-- ==== Sys2Proof/Word.lean ====
section
/-! DEFINITION. The word types of the Darsiud D12 (R2: bit 0 is the least significant bit, memory is little-endian), and
the operand spaces that an instruction's fields name (R20, R22, R28, R29). -/

namespace Sys2Proof

/-- One byte of memory. -/
abbrev Byte := BitVec 8

/-- One 32-bit register word. -/
abbrev Word := BitVec 32

/-- One 64-bit value: an address, a time, a register pair. -/
abbrev DWord := BitVec 64

/-- The pair whose low word is `lo` and whose high word is `hi` (R31). -/
def Word.pair (lo hi : Word) : DWord := BitVec.ofNat 64 (lo.toNat + hi.toNat * 2 ^ 32)

/-- The low word of a pair. -/
def DWord.lo (x : DWord) : Word := x.setWidth 32

/-- The high word of a pair. -/
def DWord.hi (x : DWord) : Word := BitVec.ofNat 32 (x.toNat / 2 ^ 32)

/-- 1 for a true condition, else 0. -/
def Word.ofBool (b : Bool) : Word := if b then 1#32 else 0#32

/-- The five neighbour ports of a thread (R29, R151). -/
inductive Port
  /-- `pe`, east. -/
  | east
  /-- `pw`, west. -/
  | west
  /-- `pn`, north. -/
  | north
  /-- `ps`, south. -/
  | south
  /-- `pd`, the die partner. -/
  | die
deriving DecidableEq, Repr

/-- The lane operand space, 128 codes (R29). -/
inductive LOp
  /-- `v0`-`v103`, codes 0-103. -/
  | v (r : Fin 104)
  /-- `o0`-`o7`, codes 104-111. -/
  | o (r : Fin 8)
  /-- `q0`, code 112. -/
  | q0
  /-- `q1`, code 113. -/
  | q1
  /-- `p0`-`p5`, codes 114-119. -/
  | p (r : Fin 6)
  /-- `pt`, code 120. -/
  | pt
  /-- `lid`, code 121. -/
  | lid
  /-- A port, codes 122-126. -/
  | port (x : Port)
  /-- `zero`, code 127. -/
  | zero
deriving DecidableEq, Repr

/-- The b operand of a lane word (R20). -/
inductive BOp
  /-- Codes 0-127. -/
  | lane (x : LOp)
  /-- `s0`-`s159`, codes 128-287. -/
  | s (r : Fin 160)
  /-- Inline constant `c - 32`, codes 288-510. -/
  | imm (c : Fin 223)
  /-- Code 511 and the literal word that follows it. -/
  | lit (w : Word)
deriving DecidableEq, Repr

/-- The uniform operand space (R28). -/
inductive UOp
  /-- `s0`-`s159`, codes 0-159. -/
  | s (r : Fin 160)
  /-- `k0`-`k6`, codes 160-166. -/
  | k (r : Fin 7)
  /-- `kt`, code 167. -/
  | kt
  /-- `zero`, code 168. -/
  | zero
  /-- Codes 169-191, reserved: naming one raises ILLEGAL_OPERAND. -/
  | reserved (r : Fin 23)
  /-- Constants 0-62, codes 192-254. -/
  | const (c : Fin 63)
  /-- Code 255 and its literal word. -/
  | lit (w : Word)
deriving DecidableEq, Repr

/-- The offset field of the memory variant (R22): b[5:0] in units of the width, or a literal byte offset, which the
field value 0b10_0000 announces. -/
inductive MOff
  /-- b[5:0] other than 0b10_0000. -/
  | units (c : BitVec 6)
  /-- A literal word carrying the signed byte offset. -/
  | lit (w : Word)
deriving DecidableEq, Repr

/-- The control registers of BAR0 that a host write reaches and that have no behaviour of their own (R317, R324). -/
inductive HostReg
  /-- SPTAB. -/
  | sptab
  /-- BASE of the sample ring. -/
  | sampleBase
  /-- PERIOD of the sample ring. -/
  | samplePeriod
  /-- LOG of the sample ring. -/
  | sampleLog
  /-- RPTR of the sample ring. -/
  | sampleRptr
  /-- BASE of the event ring. -/
  | eventBase
  /-- LOG of the event ring. -/
  | eventLog
  /-- RPTR of the event ring. -/
  | eventRptr
deriving DecidableEq, Repr

/-- The PCI Express AtomicOps a host issues (R139). -/
inductive HostAtomic
  /-- FetchAdd. -/
  | fetchAdd
  /-- Swap. -/
  | swap
  /-- CAS. -/
  | cas
deriving DecidableEq, Repr

/-- The partition split taken at a module reset (R317). -/
inductive Split
  /-- One partition. -/
  | one
  /-- Two partitions of two islands. -/
  | two
  /-- Four partitions of one island. -/
  | four
  /-- Eight partitions, two on each island. -/
  | eight
deriving DecidableEq, Repr

/-- Where an uncorrectable error strikes (R123, R130). -/
inductive ErrSite
  /-- The 128-byte line of a physical address. -/
  | line (pa : Nat)
  /-- A word of a squad's scratch. -/
  | scratch (squad word : Nat)
  /-- A word of a thread's slice. -/
  | slice (crew lane word : Nat)
deriving DecidableEq, Repr

end Sys2Proof
end

