-- ==== Sys2Proof/Syntax.lean ====
section
/-! DEFINITION. The syntax of the Darsiud D12: one constructor of `Instr` for every row of spec/opcode_table.json. The first 295 constructors are instruction words; the last 85 are
the EVENTS of the part (95_what_each_step_holds.md), which have no encoding and name the object they happen to. -/

namespace Sys2Proof

/-- One constructor for each row of spec/opcode_table.json. -/
inductive Instr
  /-- ADD (R75). Adds two 32-bit lane operands modulo 2^32 for each lane of the run. -/
  | add (u : Bool) (d a : LOp) (b : BOp)
  /-- ADD_SAT (R75). Adds two signed 32-bit operands and saturates the sum. -/
  | addSat (u : Bool) (d a : LOp) (b : BOp)
  /-- SUB (R75). Subtracts b from a modulo 2^32. -/
  | sub (u : Bool) (d a : LOp) (b : BOp)
  /-- SUB_SAT (R75). Subtracts signed operands with saturation. -/
  | subSat (u : Bool) (d a : LOp) (b : BOp)
  /-- MUL (R75). Writes the low 32 bits of the product. -/
  | mul (u : Bool) (d a : LOp) (b : BOp)
  /-- MULH_S (R75). Writes the high 32 bits of the signed product. -/
  | mulhS (u : Bool) (d a : LOp) (b : BOp)
  /-- MULH_U (R75). Writes the high 32 bits of the unsigned product. -/
  | mulhU (u : Bool) (d a : LOp) (b : BOp)
  /-- MULW_S (R75). Writes the 64-bit signed product to a register pair. -/
  | mulwS (u : Bool) (d a : LOp) (b : BOp)
  /-- MULW_U (R75). Writes the 64-bit unsigned product to a register pair. -/
  | mulwU (u : Bool) (d a : LOp) (b : BOp)
  /-- MAD (R75). Writes the low 32 bits of a times b plus d. -/
  | mad (u : Bool) (d a : LOp) (b : BOp)
  /-- ADD64 (R75). Adds two 64-bit pairs. -/
  | add64 (u : Bool) (d a : LOp) (b : BOp)
  /-- SUB64 (R75). Subtracts two 64-bit pairs. -/
  | sub64 (u : Bool) (d a : LOp) (b : BOp)
  /-- AND (R75). Bitwise AND. -/
  | and (u : Bool) (d a : LOp) (b : BOp)
  /-- OR (R75). Bitwise OR. -/
  | or (u : Bool) (d a : LOp) (b : BOp)
  /-- XOR (R75). Bitwise XOR. -/
  | xor (u : Bool) (d a : LOp) (b : BOp)
  /-- ANDN (R75). a AND NOT b. -/
  | andn (u : Bool) (d a : LOp) (b : BOp)
  /-- SHL (R76). Shifts left, giving 0 for amounts of 32 or more. -/
  | shl (u : Bool) (d a : LOp) (b : BOp)
  /-- SHR (R76). Shifts right logically. -/
  | shr (u : Bool) (d a : LOp) (b : BOp)
  /-- SAR (R76). Shifts right arithmetically. -/
  | sar (u : Bool) (d a : LOp) (b : BOp)
  /-- ROTL (R75). Rotates left by b mod 32. -/
  | rotl (u : Bool) (d a : LOp) (b : BOp)
  /-- CLZ (R75). Counts leading zero bits. -/
  | clz (u : Bool) (d : LOp) (b : BOp)
  /-- POPC (R75). Counts 1 bits. -/
  | popc (u : Bool) (d : LOp) (b : BOp)
  /-- BREV (R75). Reverses the bit order. -/
  | brev (u : Bool) (d : LOp) (b : BOp)
  /-- BFE_U (R77). Extracts an unsigned bit field. -/
  | bfeU (u : Bool) (d a : LOp) (b : BOp)
  /-- BFE_S (R77). Extracts a signed bit field. -/
  | bfeS (u : Bool) (d a : LOp) (b : BOp)
  /-- BFI (R77). Inserts a bit field into d. -/
  | bfi (u : Bool) (d a : LOp) (b : BOp)
  /-- MIN_S (R75). Signed minimum. -/
  | minS (u : Bool) (d a : LOp) (b : BOp)
  /-- MIN_U (R75). Unsigned minimum. -/
  | minU (u : Bool) (d a : LOp) (b : BOp)
  /-- MAX_S (R75). Signed maximum. -/
  | maxS (u : Bool) (d a : LOp) (b : BOp)
  /-- MAX_U (R75). Unsigned maximum. -/
  | maxU (u : Bool) (d a : LOp) (b : BOp)
  /-- CMP_EQ (R75). Writes 1 if a equals b. -/
  | cmpEq (u : Bool) (d a : LOp) (b : BOp)
  /-- CMP_NE (R75). Writes 1 if a differs from b. -/
  | cmpNe (u : Bool) (d a : LOp) (b : BOp)
  /-- CMP_LT_S (R75). Signed less-than compare. -/
  | cmpLtS (u : Bool) (d a : LOp) (b : BOp)
  /-- CMP_LE_S (R75). Signed less-or-equal compare. -/
  | cmpLeS (u : Bool) (d a : LOp) (b : BOp)
  /-- CMP_LT_U (R75). Unsigned less-than compare. -/
  | cmpLtU (u : Bool) (d a : LOp) (b : BOp)
  /-- CMP_LE_U (R75). Unsigned less-or-equal compare. -/
  | cmpLeU (u : Bool) (d a : LOp) (b : BOp)
  /-- SEL (R75). Selects a if d is nonzero, else b. -/
  | sel (u : Bool) (d a : LOp) (b : BOp)
  /-- MOV (R75). Copies b to d. -/
  | mov (u : Bool) (d : LOp) (b : BOp)
  /-- MOVL (R75). Copies a 64-bit pair. -/
  | movl (u : Bool) (d : LOp) (b : BOp)
  /-- LEA (R75). Adds a sign-extended 32-bit value to a 64-bit pair. -/
  | lea (u : Bool) (d a : LOp) (b : BOp)
  /-- PRMT (R78). Permutes bytes of a and d by selector b. -/
  | prmt (u : Bool) (d a : LOp) (b : BOp)
  /-- UDIV (R79). Unsigned division, holding the lane pipe 8 cycles. -/
  | udiv (u : Bool) (d a : LOp) (b : BOp)
  /-- SDIV (R79). Signed division truncating toward zero. -/
  | sdiv (u : Bool) (d a : LOp) (b : BOp)
  /-- UREM (R79). Unsigned remainder. -/
  | urem (u : Bool) (d a : LOp) (b : BOp)
  /-- SREM (R79). Signed remainder with the dividend's sign. -/
  | srem (u : Bool) (d a : LOp) (b : BOp)
  /-- PAND (R75). Logical AND of nonzero tests. -/
  | pand (u : Bool) (d a : LOp) (b : BOp)
  /-- POR (R75). Logical OR of nonzero tests. -/
  | por (u : Bool) (d a : LOp) (b : BOp)
  /-- PXOR (R75). Logical XOR of nonzero tests. -/
  | pxor (u : Bool) (d a : LOp) (b : BOp)
  /-- FADD (R102). FP32 add rounded to nearest even. -/
  | fadd (u : Bool) (d a : LOp) (b : BOp)
  /-- FADD_RZ (R102). FP32 add rounded toward zero. -/
  | faddRz (u : Bool) (d a : LOp) (b : BOp)
  /-- FADD_RD (R102). FP32 add rounded down. -/
  | faddRd (u : Bool) (d a : LOp) (b : BOp)
  /-- FADD_RU (R102). FP32 add rounded up. -/
  | faddRu (u : Bool) (d a : LOp) (b : BOp)
  /-- FSUB (R102). FP32 subtract, RNE. -/
  | fsub (u : Bool) (d a : LOp) (b : BOp)
  /-- FSUB_RZ (R102). FP32 subtract, RZ. -/
  | fsubRz (u : Bool) (d a : LOp) (b : BOp)
  /-- FSUB_RD (R102). FP32 subtract, RD. -/
  | fsubRd (u : Bool) (d a : LOp) (b : BOp)
  /-- FSUB_RU (R102). FP32 subtract, RU. -/
  | fsubRu (u : Bool) (d a : LOp) (b : BOp)
  /-- FMUL (R102). FP32 multiply, RNE. -/
  | fmul (u : Bool) (d a : LOp) (b : BOp)
  /-- FMUL_RZ (R102). FP32 multiply, RZ. -/
  | fmulRz (u : Bool) (d a : LOp) (b : BOp)
  /-- FMUL_RD (R102). FP32 multiply, RD. -/
  | fmulRd (u : Bool) (d a : LOp) (b : BOp)
  /-- FMUL_RU (R102). FP32 multiply, RU. -/
  | fmulRu (u : Bool) (d a : LOp) (b : BOp)
  /-- FFMA (R102). FP32 fused multiply-add into d, RNE. -/
  | ffma (u : Bool) (d a : LOp) (b : BOp)
  /-- FFMA_RZ (R102). Fused multiply-add, RZ. -/
  | ffmaRz (u : Bool) (d a : LOp) (b : BOp)
  /-- FFMA_RD (R102). Fused multiply-add, RD. -/
  | ffmaRd (u : Bool) (d a : LOp) (b : BOp)
  /-- FFMA_RU (R102). Fused multiply-add, RU. -/
  | ffmaRu (u : Bool) (d a : LOp) (b : BOp)
  /-- FMIN (R103). Returns the lesser FP32 operand unchanged. -/
  | fmin (u : Bool) (d a : LOp) (b : BOp)
  /-- FMAX (R103). Returns the greater FP32 operand unchanged. -/
  | fmax (u : Bool) (d a : LOp) (b : BOp)
  /-- FCMP_EQ (R104). FP32 equality compare. -/
  | fcmpEq (u : Bool) (d a : LOp) (b : BOp)
  /-- FCMP_LT (R104). FP32 less-than compare. -/
  | fcmpLt (u : Bool) (d a : LOp) (b : BOp)
  /-- FCMP_LE (R104). FP32 less-or-equal compare. -/
  | fcmpLe (u : Bool) (d a : LOp) (b : BOp)
  /-- FCMP_UN (R104). Writes 1 if either operand is NaN. -/
  | fcmpUn (u : Bool) (d a : LOp) (b : BOp)
  /-- FCLASS (R105). Writes a one-hot class mask of b. -/
  | fclass (u : Bool) (d : LOp) (b : BOp)
  /-- FRCP (R106). Reciprocal within 1 ulp. -/
  | frcp (u : Bool) (d : LOp) (b : BOp)
  /-- FRSQ (R106). Reciprocal square root within 1 ulp. -/
  | frsq (u : Bool) (d : LOp) (b : BOp)
  /-- FSQRT (R106). Correctly rounded square root, RNE. -/
  | fsqrt (u : Bool) (d : LOp) (b : BOp)
  /-- FSQRT_RZ (R106). Square root, RZ. -/
  | fsqrtRz (u : Bool) (d : LOp) (b : BOp)
  /-- FSQRT_RD (R106). Square root, RD. -/
  | fsqrtRd (u : Bool) (d : LOp) (b : BOp)
  /-- FSQRT_RU (R106). Square root, RU. -/
  | fsqrtRu (u : Bool) (d : LOp) (b : BOp)
  /-- FEX2 (R106). Base-2 exponential within 2 ulp. -/
  | fex2 (u : Bool) (d : LOp) (b : BOp)
  /-- FLG2 (R106). Base-2 logarithm within 2 ulp. -/
  | flg2 (u : Bool) (d : LOp) (b : BOp)
  /-- FSIN (R106). Sine within 2 ulp. -/
  | fsin (u : Bool) (d : LOp) (b : BOp)
  /-- FCOS (R106). Cosine within 2 ulp. -/
  | fcos (u : Bool) (d : LOp) (b : BOp)
  /-- FDIV_FULL (R107). Correctly rounded FP32 division, RNE. -/
  | fdivFull (u : Bool) (d a : LOp) (b : BOp)
  /-- FDIV_FULL_RZ (R107). FP32 division, RZ. -/
  | fdivFullRz (u : Bool) (d a : LOp) (b : BOp)
  /-- FDIV_FULL_RD (R107). FP32 division, RD. -/
  | fdivFullRd (u : Bool) (d a : LOp) (b : BOp)
  /-- FDIV_FULL_RU (R107). FP32 division, RU. -/
  | fdivFullRu (u : Bool) (d a : LOp) (b : BOp)
  /-- HADD2 (R108). Adds two FP16 pairs elementwise. -/
  | hadd2 (u : Bool) (d a : LOp) (b : BOp)
  /-- HMUL2 (R108). Multiplies two FP16 pairs elementwise. -/
  | hmul2 (u : Bool) (d a : LOp) (b : BOp)
  /-- HFMA2 (R108). Fused multiply-add on FP16 pairs into d. -/
  | hfma2 (u : Bool) (d a : LOp) (b : BOp)
  /-- CVTF (R109). Converts FP32 into a narrower format by the control field. -/
  | cvtf (u : Bool) (d : LOp) (rm : BitVec 2) (nosat : Bool) (fmt : BitVec 4) (b : BOp)
  /-- CVTF_W (R109). Converts a narrow format exactly to FP32. -/
  | cvtfW (u : Bool) (d : LOp) (fmt : BitVec 4) (b : BOp)
  /-- CVTI (R110). Converts FP32 to a 32-bit integer by mode. -/
  | cvti (u : Bool) (d : LOp) (rm : BitVec 2) (uns : Bool) (b : BOp)
  /-- CVFI (R110). Converts a 32-bit integer to FP32 by mode. -/
  | cvfi (u : Bool) (d : LOp) (rm : BitVec 2) (uns : Bool) (b : BOp)
  /-- QNT (R112). Quantises through a tensor identifier's scale and records the amax. -/
  | qnt (u : Bool) (d : LOp) (tx : Fin 64) (b : BOp)
  /-- DQNT (R112). Dequantises a code through a tensor identifier's scale. -/
  | dqnt (u : Bool) (d : LOp) (tx : Fin 64) (b : BOp)
  /-- PK4 (R111). Converts a register quad into four packed narrow codes. -/
  | pk4 (u : Bool) (d : LOp) (rm : BitVec 2) (nosat : Bool) (fmt : BitVec 4) (b : BOp)
  /-- UPK (R111). Unpacks four narrow codes exactly into a register quad. -/
  | upk (u : Bool) (d : LOp) (fmt : BitVec 4) (b : BOp)
  /-- DP4_S (R113). Adds four signed byte products to d. -/
  | dp4S (u : Bool) (d a : LOp) (b : BOp)
  /-- DP4_U (R113). Adds four unsigned byte products to d. -/
  | dp4U (u : Bool) (d a : LOp) (b : BOp)
  /-- FDP4_E4M3 (R113). One aligned-adder chunk of four E4M3 products into d. -/
  | fdp4E4m3 (u : Bool) (d a : LOp) (b : BOp)
  /-- FDP4_E5M2 (R113). One aligned-adder chunk of four E5M2 products into d. -/
  | fdp4E5m2 (u : Bool) (d a : LOp) (b : BOp)
  /-- FDP4_B8 (R113). One aligned-adder chunk of four B8 products into d. -/
  | fdp4B8 (u : Bool) (d a : LOp) (b : BOp)
  /-- LDG_B8 (R143). Starts a byte global load for each lane. -/
  | ldgB8 (u : Bool) (d a : LOp) (ord : BitVec 3) (off : MOff)
  /-- LDG_B16 (R143). Starts a 16-bit global load. -/
  | ldgB16 (u : Bool) (d a : LOp) (ord : BitVec 3) (off : MOff)
  /-- LDG_B32 (R143). Starts a 32-bit global load. -/
  | ldgB32 (u : Bool) (d a : LOp) (ord : BitVec 3) (off : MOff)
  /-- LDG_B64 (R143). Starts a 64-bit global load. -/
  | ldgB64 (u : Bool) (d a : LOp) (ord : BitVec 3) (off : MOff)
  /-- LDG_B128 (R143). Starts a 128-bit global load. -/
  | ldgB128 (u : Bool) (d a : LOp) (ord : BitVec 3) (off : MOff)
  /-- PFL2 (R147). Prefetches a line into its home L2 slice, raising nothing from its address. -/
  | pfl2 (width : Fin 5) (a : LOp) (off : MOff)
  /-- STG_B8 (R143). Starts a byte global store. -/
  | stgB8 (u : Bool) (d a : LOp) (ord : BitVec 3) (off : MOff)
  /-- STG_B16 (R143). Starts a 16-bit global store. -/
  | stgB16 (u : Bool) (d a : LOp) (ord : BitVec 3) (off : MOff)
  /-- STG_B32 (R143). Starts a 32-bit global store. -/
  | stgB32 (u : Bool) (d a : LOp) (ord : BitVec 3) (off : MOff)
  /-- STG_B64 (R143). Starts a 64-bit global store. -/
  | stgB64 (u : Bool) (d a : LOp) (ord : BitVec 3) (off : MOff)
  /-- STG_B128 (R143). Starts a 128-bit global store. -/
  | stgB128 (u : Bool) (d a : LOp) (ord : BitVec 3) (off : MOff)
  /-- LDS_B8 (R123). Starts a byte scratch load. -/
  | ldsB8 (u : Bool) (d a : LOp) (off : MOff)
  /-- LDS_B16 (R123). Starts a 16-bit scratch load. -/
  | ldsB16 (u : Bool) (d a : LOp) (off : MOff)
  /-- LDS_B32 (R123). Starts a 32-bit scratch load. -/
  | ldsB32 (u : Bool) (d a : LOp) (off : MOff)
  /-- LDS_B64 (R123). Starts a 64-bit scratch load. -/
  | ldsB64 (u : Bool) (d a : LOp) (off : MOff)
  /-- LDS_B128 (R123). Starts a 128-bit scratch load. -/
  | ldsB128 (u : Bool) (d a : LOp) (off : MOff)
  /-- LDP_B32 (R123). Starts a 32-bit private-slice load. -/
  | ldpB32 (u : Bool) (d a : LOp) (off : MOff)
  /-- LDP_B64 (R123). Starts a 64-bit private-slice load. -/
  | ldpB64 (u : Bool) (d a : LOp) (off : MOff)
  /-- LDP_B128 (R123). Starts a 128-bit private-slice load. -/
  | ldpB128 (u : Bool) (d a : LOp) (off : MOff)
  /-- STS_B8 (R123). Starts a byte scratch store. -/
  | stsB8 (u : Bool) (d a : LOp) (off : MOff)
  /-- STS_B16 (R123). Starts a 16-bit scratch store. -/
  | stsB16 (u : Bool) (d a : LOp) (off : MOff)
  /-- STS_B32 (R123). Starts a 32-bit scratch store. -/
  | stsB32 (u : Bool) (d a : LOp) (off : MOff)
  /-- STS_B64 (R123). Starts a 64-bit scratch store. -/
  | stsB64 (u : Bool) (d a : LOp) (off : MOff)
  /-- STS_B128 (R123). Starts a 128-bit scratch store. -/
  | stsB128 (u : Bool) (d a : LOp) (off : MOff)
  /-- STP_B32 (R123). Starts a 32-bit private-slice store. -/
  | stpB32 (u : Bool) (d a : LOp) (off : MOff)
  /-- STP_B64 (R123). Starts a 64-bit private-slice store. -/
  | stpB64 (u : Bool) (d a : LOp) (off : MOff)
  /-- STP_B128 (R123). Starts a 128-bit private-slice store. -/
  | stpB128 (u : Bool) (d a : LOp) (off : MOff)
  /-- ATS_ADD (R124). Scratch atomic add returning the old value. -/
  | atsAdd (d a : LOp) (w : Bool)
  /-- ATS_MIN_S (R124). Scratch atomic signed minimum. -/
  | atsMinS (d a : LOp) (w : Bool)
  /-- ATS_MAX_S (R124). Scratch atomic signed maximum. -/
  | atsMaxS (d a : LOp) (w : Bool)
  /-- ATS_MIN_U (R124). Scratch atomic unsigned minimum. -/
  | atsMinU (d a : LOp) (w : Bool)
  /-- ATS_MAX_U (R124). Scratch atomic unsigned maximum. -/
  | atsMaxU (d a : LOp) (w : Bool)
  /-- ATS_AND (R124). Scratch atomic AND. -/
  | atsAnd (d a : LOp) (w : Bool)
  /-- ATS_OR (R124). Scratch atomic OR. -/
  | atsOr (d a : LOp) (w : Bool)
  /-- ATS_XOR (R124). Scratch atomic XOR. -/
  | atsXor (d a : LOp) (w : Bool)
  /-- ATS_EXCH (R124). Scratch atomic exchange. -/
  | atsExch (d a : LOp) (w : Bool)
  /-- ATS_CAS (R124). Scratch atomic compare-and-swap. -/
  | atsCas (d a : LOp) (w : Bool)
  /-- ATS_FADD (R124). Scratch atomic FP32 add. -/
  | atsFadd (d a : LOp)
  /-- ATG_ADD (R145). Global atomic add at the home slice, returning the old value. -/
  | atgAdd (d a : LOp) (ord : BitVec 3) (w : Bool)
  /-- ATG_MIN_S (R145). Global atomic signed minimum. -/
  | atgMinS (d a : LOp) (ord : BitVec 3) (w : Bool)
  /-- ATG_MAX_S (R145). Global atomic signed maximum. -/
  | atgMaxS (d a : LOp) (ord : BitVec 3) (w : Bool)
  /-- ATG_MIN_U (R145). Global atomic unsigned minimum. -/
  | atgMinU (d a : LOp) (ord : BitVec 3) (w : Bool)
  /-- ATG_MAX_U (R145). Global atomic unsigned maximum. -/
  | atgMaxU (d a : LOp) (ord : BitVec 3) (w : Bool)
  /-- ATG_AND (R145). Global atomic AND. -/
  | atgAnd (d a : LOp) (ord : BitVec 3) (w : Bool)
  /-- ATG_OR (R145). Global atomic OR. -/
  | atgOr (d a : LOp) (ord : BitVec 3) (w : Bool)
  /-- ATG_XOR (R145). Global atomic XOR. -/
  | atgXor (d a : LOp) (ord : BitVec 3) (w : Bool)
  /-- ATG_EXCH (R145). Global atomic exchange. -/
  | atgExch (d a : LOp) (ord : BitVec 3) (w : Bool)
  /-- ATG_CAS (R145). Global atomic compare-and-swap. -/
  | atgCas (d a : LOp) (ord : BitVec 3) (w : Bool)
  /-- ATG_FADD (R145). Global atomic FP32 add. -/
  | atgFadd (d a : LOp) (ord : BitVec 3)
  /-- LDGA (R144). Strong acquire load at its scope. -/
  | ldga (d a : LOp) (ord : BitVec 3) (w : Bool)
  /-- REDG_ADD (R145). Global reduction add without return. -/
  | redgAdd (d a : LOp) (ord : BitVec 3) (w : Bool)
  /-- REDG_MIN_S (R145). Global reduction signed minimum. -/
  | redgMinS (d a : LOp) (ord : BitVec 3) (w : Bool)
  /-- REDG_MAX_S (R145). Global reduction signed maximum. -/
  | redgMaxS (d a : LOp) (ord : BitVec 3) (w : Bool)
  /-- REDG_MIN_U (R145). Global reduction unsigned minimum. -/
  | redgMinU (d a : LOp) (ord : BitVec 3) (w : Bool)
  /-- REDG_MAX_U (R145). Global reduction unsigned maximum. -/
  | redgMaxU (d a : LOp) (ord : BitVec 3) (w : Bool)
  /-- REDG_AND (R145). Global reduction AND. -/
  | redgAnd (d a : LOp) (ord : BitVec 3) (w : Bool)
  /-- REDG_OR (R145). Global reduction OR. -/
  | redgOr (d a : LOp) (ord : BitVec 3) (w : Bool)
  /-- REDG_XOR (R145). Global reduction XOR. -/
  | redgXor (d a : LOp) (ord : BitVec 3) (w : Bool)
  /-- REDG_FADD (R145). Global reduction FP32 add. -/
  | redgFadd (d a : LOp) (ord : BitVec 3)
  /-- STGR (R144). Strong release store at its scope. -/
  | stgr (d a : LOp) (ord : BitVec 3) (w : Bool)
  /-- FENCE (R146). Holds the run until all earlier accesses are ordered at the scope. -/
  | fence (scope : BitVec 3)
  /-- FENCE_LD (R146). Holds the run until earlier loads have performed. -/
  | fenceLd (scope : BitVec 3)
  /-- FENCE_ST (R146). Holds the run until earlier stores are visible at the scope. -/
  | fenceSt (scope : BitVec 3)
  /-- BRA (R27). Branches each thread whose condition matches the sense, setting yield marks on backward taken branches. -/
  | bra (u : Bool) (c : LOp) (sense : Bool) (off : BitVec 15)
  /-- CALL (R27). Writes the return address pair and transfers to an entry header. -/
  | call (u : Bool) (c : LOp) (off : BitVec 15)
  /-- RET (R18). Transfers the whole run to the lowest lane's target pair. -/
  | ret (a : LOp)
  /-- EXIT (R54). Makes the run's threads exited, retiring the crew when all have exited. -/
  | exitThread
  /-- RFL (R62). Broadcasts the lowest lane's value to the run. -/
  | rfl (d : LOp) (b : BOp)
  /-- ACTM (R62). Writes the mask of lanes in the run. -/
  | actm (d : LOp)
  /-- VOTE_ANY (R62). Writes 1 if any lane's value is nonzero. -/
  | voteAny (d : LOp) (b : BOp)
  /-- VOTE_ALL (R62). Writes 1 if every lane's value is nonzero. -/
  | voteAll (d : LOp) (b : BOp)
  /-- VOTE_BALLOT (R62). Writes the mask of lanes with nonzero value. -/
  | voteBallot (d : LOp) (b : BOp)
  /-- MATCH (R62). Writes the mask of lanes whose value equals this lane's. -/
  | matchLanes (d : LOp) (b : BOp)
  /-- CMPCT (R62). Writes the lane index of this lane's rank among nonzero lanes. -/
  | cmpct (d : LOp) (b : BOp)
  /-- GSR (R63). Reads a special register, latching the clock high word on a low-word read. -/
  | gsr (d : LOp) (num : BitVec 9)
  /-- SHFL (R62). Reads a value from an indexed lane of the run. -/
  | shfl (d a : LOp) (b : BOp)
  /-- SHFL_XOR (R62). Reads a value from the lane at an XOR distance. -/
  | shflXor (d a : LOp) (b : BOp)
  /-- NAP (R60). Puts the run's threads to sleep for a cycle count. -/
  | nap (b : BOp)
  /-- PCFG (R162). Sets the crew's ring mode if the crew is whole and its ring queues are idle. -/
  | pcfg (d : LOp) (b : BOp)
  /-- PCNT (R163). Writes the count of landed entries in a port queue. -/
  | pcnt (d : LOp) (sel : BitVec 3)
  /-- PPK (R164). Starts a peek of a port queue head, completing when an entry is present. -/
  | ppk (d : LOp) (sel : BitVec 3)
  /-- PFLS (R165). Discards landed port entries and returns their credits. -/
  | pfls (d : LOp) (sel : BitVec 3)
  /-- PSTS (R166). Writes a port's status word or the thread's port position. -/
  | psts (d : LOp) (sel : BitVec 3)
  /-- XLD (R176). Registers a range with the expand unit, taking the unit if free. -/
  | xld (d a : LOp) (b : BOp)
  /-- XDEAL (R177). Seals the session if loading and deals the next iteration to the thread. -/
  | xdeal (d : LOp)
  /-- XRED_ADD (R178). Closes the open iteration with an integer add term. -/
  | xredAdd (d : LOp) (b : BOp)
  /-- XRED_FADD (R178). Closes the open iteration with an FP32 add term. -/
  | xredFadd (d : LOp) (b : BOp)
  /-- XRED_MIN (R178). Closes the open iteration with a signed minimum term. -/
  | xredMin (d : LOp) (b : BOp)
  /-- XRED_MAX (R178). Closes the open iteration with a signed maximum term. -/
  | xredMax (d : LOp) (b : BOp)
  /-- XEND (R179). Frees the expand unit if no work remains in the session. -/
  | xend (d : LOp)
  /-- XST (R180). Reads the expand unit's state word. -/
  | xst (d : LOp)
  /-- PLDR_B32 (R262). Starts a 32-bit read of a pair partner's record. -/
  | pldrB32 (d : LOp) (partner : Bool) (b : BOp)
  /-- PLDR_B64 (R262). Starts a 64-bit read of a pair partner's record. -/
  | pldrB64 (d : LOp) (partner : Bool) (b : BOp)
  /-- PLDR_B128 (R262). Starts a 128-bit read of a pair partner's record. -/
  | pldrB128 (d : LOp) (partner : Bool) (b : BOp)
  /-- PRET (R263). Captures the pair contribution and exits the pair thread. -/
  | pret (a : LOp) (num : BitVec 3)
  /-- SADD (R81). Uniform add. -/
  | sadd (d a b : UOp)
  /-- SADD_SAT (R81). Uniform saturating add. -/
  | saddSat (d a b : UOp)
  /-- SSUB (R81). Uniform subtract. -/
  | ssub (d a b : UOp)
  /-- SSUB_SAT (R81). Uniform saturating subtract. -/
  | ssubSat (d a b : UOp)
  /-- SMUL (R81). Uniform multiply, low word. -/
  | smul (d a b : UOp)
  /-- SMULH_S (R81). Uniform signed high multiply. -/
  | smulhS (d a b : UOp)
  /-- SMULH_U (R81). Uniform unsigned high multiply. -/
  | smulhU (d a b : UOp)
  /-- SMULW_S (R81). Uniform signed widening multiply. -/
  | smulwS (d a b : UOp)
  /-- SMULW_U (R81). Uniform unsigned widening multiply. -/
  | smulwU (d a b : UOp)
  /-- SMAD (R81). Uniform multiply-add. -/
  | smad (d a b : UOp)
  /-- SADD64 (R81). Uniform 64-bit add. -/
  | sadd64 (d a b : UOp)
  /-- SSUB64 (R81). Uniform 64-bit subtract. -/
  | ssub64 (d a b : UOp)
  /-- SAND (R81). Uniform AND. -/
  | sand (d a b : UOp)
  /-- SOR (R81). Uniform OR. -/
  | sor (d a b : UOp)
  /-- SXOR (R81). Uniform XOR. -/
  | sxor (d a b : UOp)
  /-- SANDN (R81). Uniform AND NOT. -/
  | sandn (d a b : UOp)
  /-- SSHL (R81). Uniform shift left. -/
  | sshl (d a b : UOp)
  /-- SSHR (R81). Uniform logical shift right. -/
  | sshr (d a b : UOp)
  /-- SSAR (R81). Uniform arithmetic shift right. -/
  | ssar (d a b : UOp)
  /-- SROTL (R81). Uniform rotate left. -/
  | srotl (d a b : UOp)
  /-- SCLZ (R81). Uniform count leading zeros. -/
  | sclz (d b : UOp)
  /-- SPOPC (R81). Uniform population count. -/
  | spopc (d b : UOp)
  /-- SBREV (R81). Uniform bit reverse. -/
  | sbrev (d b : UOp)
  /-- SBFE_U (R81). Uniform unsigned bit-field extract. -/
  | sbfeU (d a b : UOp)
  /-- SBFE_S (R81). Uniform signed bit-field extract. -/
  | sbfeS (d a b : UOp)
  /-- SBFI (R81). Uniform bit-field insert. -/
  | sbfi (d a b : UOp)
  /-- SMIN_S (R81). Uniform signed minimum. -/
  | sminS (d a b : UOp)
  /-- SMIN_U (R81). Uniform unsigned minimum. -/
  | sminU (d a b : UOp)
  /-- SMAX_S (R81). Uniform signed maximum. -/
  | smaxS (d a b : UOp)
  /-- SMAX_U (R81). Uniform unsigned maximum. -/
  | smaxU (d a b : UOp)
  /-- SCMP_EQ (R81). Uniform equality compare. -/
  | scmpEq (d a b : UOp)
  /-- SCMP_NE (R81). Uniform inequality compare. -/
  | scmpNe (d a b : UOp)
  /-- SCMP_LT_S (R81). Uniform signed less-than. -/
  | scmpLtS (d a b : UOp)
  /-- SCMP_LE_S (R81). Uniform signed less-or-equal. -/
  | scmpLeS (d a b : UOp)
  /-- SCMP_LT_U (R81). Uniform unsigned less-than. -/
  | scmpLtU (d a b : UOp)
  /-- SCMP_LE_U (R81). Uniform unsigned less-or-equal. -/
  | scmpLeU (d a b : UOp)
  /-- SSEL (R81). Uniform select. -/
  | ssel (d a b : UOp)
  /-- SMOV (R81). Uniform move. -/
  | smov (d b : UOp)
  /-- SLEA (R81). Uniform 64-bit address add. -/
  | slea (d a b : UOp)
  /-- SUDIV (R81). Uniform unsigned division. -/
  | sudiv (d a b : UOp)
  /-- SSDIV (R81). Uniform signed division. -/
  | ssdiv (d a b : UOp)
  /-- SUREM (R81). Uniform unsigned remainder. -/
  | surem (d a b : UOp)
  /-- SSREM (R81). Uniform signed remainder. -/
  | ssrem (d a b : UOp)
  /-- SKAND (R81). Uniform logical AND. -/
  | skand (d a b : UOp)
  /-- SKOR (R81). Uniform logical OR. -/
  | skor (d a b : UOp)
  /-- SKXOR (R81). Uniform logical XOR. -/
  | skxor (d a b : UOp)
  /-- SLDG_B32 (R83). Starts a 32-bit uniform global load. -/
  | sldgB32 (d a b : UOp)
  /-- SLDG_B64 (R83). Starts a 64-bit uniform global load. -/
  | sldgB64 (d a b : UOp)
  /-- SLDS_B32 (R83). Starts a 32-bit uniform scratch load. -/
  | sldsB32 (d a b : UOp)
  /-- SLDS_B64 (R83). Starts a 64-bit uniform scratch load. -/
  | sldsB64 (d a b : UOp)
  /-- SCPY (R125). Copies bytes within scratch as memmove. -/
  | scpy (d a b : UOp)
  /-- SFIL (R126). Fills scratch words with a value. -/
  | sfil (d a b : UOp)
  /-- TDEF (R203). Defines a tensor identifier from a scratch descriptor. -/
  | tdef (d a b : UOp)
  /-- TXRD (R204). Reads a descriptor word, state word or ring slot of an identifier. -/
  | txrd (d a b : UOp)
  /-- TFREE (R205). Unbinds a tensor identifier. -/
  | tfree (d a : UOp)
  /-- CPY (R218). Queues a byte copy job on the copy streamer. -/
  | cpy (d a : UOp)
  /-- CPYT (R219). Queues a tensor copy-and-convert job. -/
  | cpyt (d a : UOp)
  /-- CPYM (R222). Queues a multicast into receivers' scratch within the cluster. -/
  | cpym (d a : UOp)
  /-- CPYST (R226). Queries the copy streamer's job counts. -/
  | cpyst (d : UOp)
  /-- MMA (R194). Queues a matrix multiply-accumulate job into a tile. -/
  | mma (d a : UOp)
  /-- MMSP (R195). Queues a bitmap-sparse matrix multiply-accumulate job. -/
  | mmsp (d a : UOp)
  /-- MZERO (R197). Queues a job zeroing a tile. -/
  | mzero (d b : UOp)
  /-- MLD (R197). Queues a job loading a tile from a tensor. -/
  | mld (d a : UOp)
  /-- MST (R198). Queues a job converting and storing a tile. -/
  | mst (d a : UOp)
  /-- MADD (R199). Queues a job adding lane values into tile elements. -/
  | madd (d a : UOp)
  /-- MPRED (R200). Queues a job setting a row or column predicate. -/
  | mpred (d a b : UOp)
  /-- BTN_TAKE (R190). Takes the engine if free and waits for the baton. -/
  | btnTake (d : UOp)
  /-- BTN_PASS (R190). Passes the baton to the next crew. -/
  | btnPass (d : UOp)
  /-- BTN_PASS_RELEASE (R190). Releases the engine once the squad's jobs complete. -/
  | btnPassRelease (d : UOp)
  /-- BTN_QUERY (R190). Reads the baton word. -/
  | btnQuery (d : UOp)
  /-- BISX (R206). Starts a bitmap intersection with offset advance. -/
  | bisx (d a b : UOp)
  /-- PLNCH (R254). Checks and starts a pair launch, taking a capability. -/
  | plnch (d a : UOp)
  /-- CINS (R251). Starts a job building a cell-table sweep. -/
  | cins (d a : UOp)
  /-- CINS_FIRST (R251). Starts a sweep build keeping one record per voxel. -/
  | cinsFirst (d a : UOp)
  /-- CFIND (R252). Starts a voxel lookup in a cell table. -/
  | cfind (d a b : UOp)
  /-- CCLR (R253). Starts reclaiming passed sweeps of a table. -/
  | cclr (d b : UOp)
  /-- LTSET (R238). Moves the run's threads to a new stage and time. -/
  | ltset (a b : UOp)
  /-- LTINC (R238). Increments a counter of the run's threads' time. -/
  | ltinc (a b : UOp)
  /-- LTCAP (R239). Takes a program capability at a stage and time. -/
  | ltcap (a b : UOp)
  /-- LTDROP (R239). Drops a program capability. -/
  | ltdrop (a b : UOp)
  /-- FTWAIT (R240). Counts a flag until a stage's frontier passes a time. -/
  | ftwait (flag : BitVec 4) (a b : UOp)
  /-- FTPOLL (R241). Starts a read of a stage's announced frontier. -/
  | ftpoll (d b : UOp)
  /-- LTSUM (R242). Installs a lesser or new path summary in a running launch. -/
  | ltsum (d a b : UOp)
  /-- LNCH (R309). Submits a launch packet to the chip distributor. -/
  | lnch (d a : UOp)
  /-- QPUSH (R311). Pushes a task entry to a task queue. -/
  | qpush (d a b : UOp)
  /-- QPULL (R312). Ends the current task and takes or waits for the next entry. -/
  | qpull (d a : UOp)
  /-- AMSG (R313). Sends an active message to a core. -/
  | amsg (d a : UOp)
  /-- JMP (R15). Transfers the run to the header address in a uniform pair. -/
  | jmp (a : UOp)
  /-- BAR (R61). Puts the run's threads at the squad barrier. -/
  | bar
  /-- TRAP (R65). Parks the run as a numbered program trap. -/
  | trap (b : UOp)
  /-- BRK (R65). Parks the run with BREAK. -/
  | brk
  /-- SSR (R63). Writes sr.fflags or sr.mode. -/
  | ssr (num : BitVec 8) (a : UOp)
  /-- SRET_RESUME (R286). Returns from a handler to the trapping point. -/
  | sretResume
  /-- SRET_SKIP (R286). Returns from a handler skipping the trapping word. -/
  | sretSkip
  /-- RPLY_REPLAY_ALL (R292). Performs a replay-all in the cluster. -/
  | rplyReplayAll (d : UOp)
  /-- RPLY_END_ENTRY (R292). Ends the faults of a buffer entry, killing held threads and jobs. -/
  | rplyEndEntry (d a : UOp)
  /-- TLBI (R293). Invalidates TLB entries across the partition. -/
  | tlbi (d a b : UOp)
  /-- FLT (R294). Reads a fault-buffer word or status. -/
  | flt (d a b : UOp)
  /-- CTXS (R295). Stops, releases or queries a squad by image address. -/
  | ctxs (d a b : UOp)
  /-- SELECTION (R55). Forms a crew's next run from its ready threads and issues to a pipe. -/
  | selection (crew : Nat)
  /-- CLAUSE_FETCH_DONE (R14). A pending clause fetch completes or faults. -/
  | clauseFetchDone (crew : Nat)
  /-- STARVATION_PROMOTION (R57). A thread's starvation counter reaches 1024 and it is promoted. -/
  | starvationPromotion (crew lane : Nat)
  /-- JOIN_HOLD_END (R58). A join hold ends after 64 cycles or when no thread lies below. -/
  | joinHoldEnd (crew : Nat)
  /-- NAP_EXPIRY (R60). A napping thread's count elapses and it runs again. -/
  | napExpiry (crew lane : Nat)
  /-- SQUAD_RETIRE (R53). A squad whose crews retired and operations completed frees its resources. -/
  | squadRetire (squad : Nat)
  /-- SQUAD_PLACED (R306). A core places a squad once it has slots, scratch, identifiers and a frame. -/
  | squadPlaced (squad core : Nat)
  /-- REGMISS_FETCH_DONE (R70). Absent register lines arrive and the stalled word can issue. -/
  | regmissFetchDone (crew : Nat)
  /-- EVICTION_WRITEBACK (R72). A victim's line is written back; with none left the slot becomes free. -/
  | evictionWriteback (core slot : Nat)
  /-- LOAD_DATA_LANDS (R143). A global load's data lands in its destination and its flag drops. -/
  | loadDataLands (op : Nat)
  /-- STORE_APPLIED (R135). A store is applied in its island's view or visible at scope, and its flag drops. -/
  | storeApplied (op : Nat)
  /-- WRITE_APPLY_REMOTE_VIEW (R133). A write reaches another island's view and is applied in causal order. -/
  | writeApplyRemoteView (write : Nat)
  /-- GLOBAL_ATOMIC_PERFORM (R139). An atomic or reduction is performed at the home slice and completes. -/
  | globalAtomicPerform (op : Nat)
  /-- LOCAL_ACCESS_COMPLETE (R123). A scratch or slice access completes and its flag drops. -/
  | localAccessComplete (op : Nat)
  /-- UNIFORM_LOAD_LANDS (R84). A uniform load lands, its data kept unless a later write superseded it. -/
  | uniformLoadLands (op : Nat)
  /-- FENCE_RELEASE (R137). A fence's condition is met and the run continues. -/
  | fenceRelease (crew : Nat)
  /-- PORT_ENTRY_LANDS (R156). A pushed entry lands in the neighbour's queue or image. -/
  | portEntryLands (entry : Nat)
  /-- PORT_CREDIT_RETURN (R156). A credit returns to the sender after a pop or flush. -/
  | portCreditReturn (credit : Nat)
  /-- PORT_STALL (R160). A thread stalled 2^24 cycles on a port word raises PORT_STALL. -/
  | portStall (crew lane : Nat)
  /-- MATRIX_JOB_START (R186). The engine starts its next queued job once footprints allow. -/
  | matrixJobStart (core : Nat)
  /-- MATRIX_JOB_COMPLETE (R187). A matrix job completes, writing its status and dropping counts. -/
  | matrixJobComplete (core : Nat)
  /-- ENGINE_RELEASE (R190). After a release's jobs complete the engine frees and passes to the earliest waiting squad. -/
  | engineRelease (core : Nat)
  /-- COPY_JOB_START (R213). The streamer starts a queued job once earlier overlapping jobs allow. -/
  | copyJobStart (job : Nat)
  /-- COPY_JOB_COMPLETE (R218). A copy job completes with status and drops its capability. -/
  | copyJobComplete (job : Nat)
  /-- MULTICAST_LANDING (R222). A multicast lands in one receiver's scratch or saved contents. -/
  | multicastLanding (job receiver : Nat)
  /-- CINS_JOB_COMPLETE (R251). A sweep build completes, its sweep becoming complete. -/
  | cinsJobComplete (job : Nat)
  /-- CFIND_COMPLETE (R252). A cell lookup writes its four results. -/
  | cfindComplete (op : Nat)
  /-- CCLR_COMPLETE (R253). A table scan reclaims passed sweeps and writes its status. -/
  | cclrComplete (op : Nat)
  /-- BISX_COMPLETE (R206). A bitmap intersection writes results and advances offsets. -/
  | bisxComplete (op : Nat)
  /-- CPYST_COMPLETE (R226). A streamer query writes its status word. -/
  | cpystComplete (op : Nat)
  /-- FTPOLL_COMPLETE (R241). A frontier query writes the frontier and state word. -/
  | ftpollComplete (op : Nat)
  /-- CAPABILITY_DROP (R230). A capability is dropped once its writes are applied in all views. -/
  | capabilityDrop (drop : Nat)
  /-- CAPABILITY_HANDOFF (R235). An acknowledged increment in a receiving table lets the giver decrement. -/
  | capabilityHandoff (handoff : Nat)
  /-- COUNT_REPORT (R234). An aggregator receives a count change and recomputes frontiers. -/
  | countReport (core : Nat)
  /-- FRONTIER_ANNOUNCE (R234). A raised frontier is announced to a core. -/
  | frontierAnnounce (launch stage core : Nat)
  /-- PAIR_ENUMERATION_START (R267). Isthmus begins a queued pair launch once its sweep is complete. -/
  | pairEnumerationStart (core : Nat)
  /-- PAIR_CREW_START (R260). A pair crew starts when full or 64 cycles after its first pair. -/
  | pairCrewStart (core : Nat)
  /-- PAIR_RETIRE (R264). A returned pair retires in order and commits its halves. -/
  | pairRetire (core : Nat)
  /-- PAIR_REMOTE_HALF (R264). The owner core of j applies or refuses a remote half and answers. -/
  | pairRemoteHalf (half : Nat)
  /-- PAIR_ACKNOWLEDGE (R264). On acknowledgement the owner of i applies its half. -/
  | pairAcknowledge (half : Nat)
  /-- PLNCH_COMPLETE (R269). All pairs committed; status written and capability dropped. -/
  | plnchComplete (pairLaunch : Nat)
  /-- PRE_EMPTION (R289). A squad is stopped and saved as an image until held. -/
  | preEmption (squad : Nat)
  /-- PRIORITY_PRE_EMPTION (R307). A distributor pre-empts lower-priority squads for an unplaceable one. -/
  | priorityPreEmption (squad : Nat)
  /-- SQUAD_RESTORE (R289). A held squad is restored on a core with the needed resources. -/
  | squadRestore (squad core : Nat)
  /-- PAGE_WALK (R274). Translation completes or finds the address unmapped. -/
  | pageWalk (walk : Nat)
  /-- PERMIT_BACKOFF_EXPIRY (R281). A back-off ends and the lane re-executes the trapping word. -/
  | permitBackoffExpiry (crew lane : Nat)
  /-- FAULT_LIST_WRITE (R284). An entry is written to the launch's fault list and the permit returns. -/
  | faultListWrite (entry : Nat)
  /-- TRAP_DELIVERY (R282). A parked sub-crew's record is written and it enters the trap vector. -/
  | trapDelivery (crew lane : Nat)
  /-- TLBI_DONE (R293). Every TLB has removed the entries and the run continues. -/
  | tlbiDone (crew : Nat)
  /-- TASK_FAILURE (R290). A failed task is re-enqueued or reported. -/
  | taskFailure (crew : Nat)
  /-- STEAL_REQUEST (R291). A thief asks a victim for a stealable entry. -/
  | stealRequest (crew victim : Nat)
  /-- STEAL_REPLY (R291). The victim replies with a copy of the entry. -/
  | stealReply (steal : Nat)
  /-- STEAL_ACKNOWLEDGE (R291). The victim receives the thief's acknowledgement and deletes or answers stale. -/
  | stealAcknowledge (steal : Nat)
  /-- STEAL_CONFIRM (R291). The thief queues the entry on confirmation. -/
  | stealConfirm (steal : Nat)
  /-- STEAL_RECLAIM (R291). A victim reclaims an entry after 2^16 cycles without acknowledgement. -/
  | stealReclaim (steal : Nat)
  /-- CORE_RESET (R291). A core reset loses its queued task entries and ends the launch. -/
  | coreReset (core : Nat)
  /-- QPULL_ENTRY_ARRIVES (R312). A waiting pull takes an entry that arrives or becomes stealable. -/
  | qpullEntryArrives (crew : Nat)
  /-- QUIESCENCE (R312). A quiescent launch completes every waiting pull with the end value. -/
  | quiescence (launch : Nat)
  /-- MESSAGE_ARRIVAL (R313). A receiving core accepts or drops an active message. -/
  | messageArrival (message : Nat)
  /-- MESSAGE_HANDLER_START (R313). An accepted message starts as a handler crew in a free slot. -/
  | messageHandlerStart (core : Nat)
  /-- LAUNCH_ACCEPTANCE (R301). The chip distributor reads a packet and accepts or refuses the launch. -/
  | launchAcceptance (submission : Nat)
  /-- DISTRIBUTOR_BINDING (R305). A distributor binds a span, band or cohort to an island, stack or cluster. -/
  | distributorBinding (launch : Nat)
  /-- SQUAD_STEAL (R306). A core with room steals unplaced squads of its cohort. -/
  | squadSteal (launch thief : Nat)
  /-- LAUNCH_END (R304). A launch ends and its completion record is written. -/
  | launchEnd (launch : Nat)
  /-- SAMPLE_TIMER (R325). Every 2^PERIOD timestamp counts a core writes a sample record. -/
  | sampleTimer (core : Nat)
  /-- SUBMISSION_DOORBELL (R318). A host write of QTAIL makes new packets available. -/
  | submissionDoorbell (part queue : Nat) (tail : Word)
  /-- QUEUE_CONFIG_WRITE (R318). A write of QBASE or QLOG, setting QERR if the queue is not empty. -/
  | queueConfigWrite (part queue : Nat) (base : DWord) (log : BitVec 5)
  /-- QERR_CLEAR (R318). Writing 1 clears QERR and restarts the queue. -/
  | qerrClear (part queue : Nat)
  /-- REPLAY_REGISTER (R317). A host write to the replay register acts as rply mode 0. -/
  | replayRegister (cluster : Nat)
  /-- REPLAY_END_ENTRY_REGISTER (R317). A host write of an index at +0x108 acts as rply mode 1. -/
  | replayEndEntryRegister (cluster : Nat) (index : Word)
  /-- START_REGISTER (R319). In host-assisted scheduling, a handle written releases a held launch. -/
  | startRegister (part : Nat) (handle : BitVec 16)
  /-- HOST_CTXS_REGISTER (R295). The host's register equivalent of ctxs stops, releases or queries a squad. -/
  | hostCtxsRegister (part : Nat) (image : DWord) (op : Nat)
  /-- COUNTER_LOW_READ (R323). Reading a counter's low word latches its high word. -/
  | counterLowRead (part counter : Nat)
  /-- REGISTER_WRITE (R317). A host write to a control register with no behaviour of its own. -/
  | registerWrite (part : Nat) (reg : HostReg) (value : DWord)
  /-- HOST_MEMORY_WRITE (R142). A host write through BAR4 applied at system scope. -/
  | hostMemoryWrite (pa : Nat) (bytes : List Byte)
  /-- HOST_ATOMIC_OP (R139). A host PCI Express AtomicOp on device memory. -/
  | hostAtomicOp (pa : Nat) (op : HostAtomic) (wide : Bool) (x y : DWord)
  /-- ATTESTATION_REQUEST (R321). Advances the key counter durably and returns a signed report. -/
  | attestationRequest (nonce : List Byte)
  /-- POWER_CAP_SET (R326). Sets the module power cap through BAR2. -/
  | powerCapSet (watts : Nat)
  /-- CLOCK_THROTTLE (R326). Firmware lowers or restores an island's arithmetic clock. -/
  | clockThrottle (island : Nat) (lowered : Bool)
  /-- MODULE_RESET (R317). A module reset applies the partition split and spares and boots. -/
  | moduleReset (split : Split) (image : Bool)
  /-- PARTITION_SETUP (R319). Sets each partition's modes and resets its counters. -/
  | partitionSetup (part : Nat) (hwFault hwPreempt hwSched : Bool)
  /-- UNCORRECTABLE_ERROR (R130). An uncorrectable error in a global line, scratch word or slice word poisons it. -/
  | uncorrectableError (site : ErrSite)
  /-- LINK_TRAINING (R316). A host or CXL link trains, choosing its width and rate according to its partner. -/
  | linkTraining (link width rate : Nat)
  /-- POWER_LOSS (R321). The module loses power, interrupting any attestation request while the key counter stays unchanged. -/
  | powerLoss
  /-- POWER_GATING (R291). A core is power-gated, and a thief waiting for a steal confirmation discards its copy. -/
  | powerGating (core : Nat) (gated : Bool)
deriving DecidableEq, Repr

end Sys2Proof
end

