-- ==== Sys2Proof/Machine/Event.lean ====
section
/-! DEFINITION. The events of the part as plain data for the agenda of `State`: the last 85 rows of
spec/opcode_table.json, each with the fields of its constructor of `Instr`. Compiled Lean builds no constructor
numbered above 244 that has fields, so the agenda holds these and `Event.instr` says which instruction each is. -/

namespace Sys2Proof

/-- An event of the part. -/
inductive Event
  /-- SELECTION (R55). -/
  | selection (crew : Nat)
  /-- CLAUSE_FETCH_DONE (R14). -/
  | clauseFetchDone (crew : Nat)
  /-- STARVATION_PROMOTION (R57). -/
  | starvationPromotion (crew lane : Nat)
  /-- JOIN_HOLD_END (R58). -/
  | joinHoldEnd (crew : Nat)
  /-- NAP_EXPIRY (R60). -/
  | napExpiry (crew lane : Nat)
  /-- SQUAD_RETIRE (R53). -/
  | squadRetire (squad : Nat)
  /-- SQUAD_PLACED (R306). -/
  | squadPlaced (squad core : Nat)
  /-- REGMISS_FETCH_DONE (R70). -/
  | regmissFetchDone (crew : Nat)
  /-- EVICTION_WRITEBACK (R72). -/
  | evictionWriteback (core slot : Nat)
  /-- LOAD_DATA_LANDS (R143). -/
  | loadDataLands (op : Nat)
  /-- STORE_APPLIED (R135). -/
  | storeApplied (op : Nat)
  /-- WRITE_APPLY_REMOTE_VIEW (R133). -/
  | writeApplyRemoteView (write : Nat)
  /-- GLOBAL_ATOMIC_PERFORM (R139). -/
  | globalAtomicPerform (op : Nat)
  /-- LOCAL_ACCESS_COMPLETE (R123). -/
  | localAccessComplete (op : Nat)
  /-- UNIFORM_LOAD_LANDS (R84). -/
  | uniformLoadLands (op : Nat)
  /-- FENCE_RELEASE (R137). -/
  | fenceRelease (crew : Nat)
  /-- PORT_ENTRY_LANDS (R156). -/
  | portEntryLands (entry : Nat)
  /-- PORT_CREDIT_RETURN (R156). -/
  | portCreditReturn (credit : Nat)
  /-- PORT_STALL (R160). -/
  | portStall (crew lane : Nat)
  /-- MATRIX_JOB_START (R186). -/
  | matrixJobStart (core : Nat)
  /-- MATRIX_JOB_COMPLETE (R187). -/
  | matrixJobComplete (core : Nat)
  /-- ENGINE_RELEASE (R190). -/
  | engineRelease (core : Nat)
  /-- COPY_JOB_START (R213). -/
  | copyJobStart (job : Nat)
  /-- COPY_JOB_COMPLETE (R218). -/
  | copyJobComplete (job : Nat)
  /-- MULTICAST_LANDING (R222). -/
  | multicastLanding (job receiver : Nat)
  /-- CINS_JOB_COMPLETE (R251). -/
  | cinsJobComplete (job : Nat)
  /-- CFIND_COMPLETE (R252). -/
  | cfindComplete (op : Nat)
  /-- CCLR_COMPLETE (R253). -/
  | cclrComplete (op : Nat)
  /-- BISX_COMPLETE (R206). -/
  | bisxComplete (op : Nat)
  /-- CPYST_COMPLETE (R226). -/
  | cpystComplete (op : Nat)
  /-- FTPOLL_COMPLETE (R241). -/
  | ftpollComplete (op : Nat)
  /-- CAPABILITY_DROP (R230). -/
  | capabilityDrop (drop : Nat)
  /-- CAPABILITY_HANDOFF (R235). -/
  | capabilityHandoff (handoff : Nat)
  /-- COUNT_REPORT (R234). -/
  | countReport (core : Nat)
  /-- FRONTIER_ANNOUNCE (R234). -/
  | frontierAnnounce (launch stage core : Nat)
  /-- PAIR_ENUMERATION_START (R267). -/
  | pairEnumerationStart (core : Nat)
  /-- PAIR_CREW_START (R260). -/
  | pairCrewStart (core : Nat)
  /-- PAIR_RETIRE (R264). -/
  | pairRetire (core : Nat)
  /-- PAIR_REMOTE_HALF (R264). -/
  | pairRemoteHalf (half : Nat)
  /-- PAIR_ACKNOWLEDGE (R264). -/
  | pairAcknowledge (half : Nat)
  /-- PLNCH_COMPLETE (R269). -/
  | plnchComplete (pairLaunch : Nat)
  /-- PRE_EMPTION (R289). -/
  | preEmption (squad : Nat)
  /-- PRIORITY_PRE_EMPTION (R307). -/
  | priorityPreEmption (squad : Nat)
  /-- SQUAD_RESTORE (R289). -/
  | squadRestore (squad core : Nat)
  /-- PAGE_WALK (R274). -/
  | pageWalk (walk : Nat)
  /-- PERMIT_BACKOFF_EXPIRY (R281). -/
  | permitBackoffExpiry (crew lane : Nat)
  /-- FAULT_LIST_WRITE (R284). -/
  | faultListWrite (entry : Nat)
  /-- TRAP_DELIVERY (R282). -/
  | trapDelivery (crew lane : Nat)
  /-- TLBI_DONE (R293). -/
  | tlbiDone (crew : Nat)
  /-- TASK_FAILURE (R290). -/
  | taskFailure (crew : Nat)
  /-- STEAL_REQUEST (R291). -/
  | stealRequest (crew victim : Nat)
  /-- STEAL_REPLY (R291). -/
  | stealReply (steal : Nat)
  /-- STEAL_ACKNOWLEDGE (R291). -/
  | stealAcknowledge (steal : Nat)
  /-- STEAL_CONFIRM (R291). -/
  | stealConfirm (steal : Nat)
  /-- STEAL_RECLAIM (R291). -/
  | stealReclaim (steal : Nat)
  /-- CORE_RESET (R291). -/
  | coreReset (core : Nat)
  /-- QPULL_ENTRY_ARRIVES (R312). -/
  | qpullEntryArrives (crew : Nat)
  /-- QUIESCENCE (R312). -/
  | quiescence (launch : Nat)
  /-- MESSAGE_ARRIVAL (R313). -/
  | messageArrival (message : Nat)
  /-- MESSAGE_HANDLER_START (R313). -/
  | messageHandlerStart (core : Nat)
  /-- LAUNCH_ACCEPTANCE (R301). -/
  | launchAcceptance (submission : Nat)
  /-- DISTRIBUTOR_BINDING (R305). -/
  | distributorBinding (launch : Nat)
  /-- SQUAD_STEAL (R306). -/
  | squadSteal (launch thief : Nat)
  /-- LAUNCH_END (R304). -/
  | launchEnd (launch : Nat)
  /-- SAMPLE_TIMER (R325). -/
  | sampleTimer (core : Nat)
  /-- SUBMISSION_DOORBELL (R318). -/
  | submissionDoorbell (part queue : Nat) (tail : Word)
  /-- QUEUE_CONFIG_WRITE (R318). -/
  | queueConfigWrite (part queue : Nat) (base : DWord) (log : BitVec 5)
  /-- QERR_CLEAR (R318). -/
  | qerrClear (part queue : Nat)
  /-- REPLAY_REGISTER (R317). -/
  | replayRegister (cluster : Nat)
  /-- REPLAY_END_ENTRY_REGISTER (R317). -/
  | replayEndEntryRegister (cluster : Nat) (index : Word)
  /-- START_REGISTER (R319). -/
  | startRegister (part : Nat) (handle : BitVec 16)
  /-- HOST_CTXS_REGISTER (R295). -/
  | hostCtxsRegister (part : Nat) (image : DWord) (op : Nat)
  /-- COUNTER_LOW_READ (R323). -/
  | counterLowRead (part counter : Nat)
  /-- REGISTER_WRITE (R317). -/
  | registerWrite (part : Nat) (reg : HostReg) (value : DWord)
  /-- HOST_MEMORY_WRITE (R142). -/
  | hostMemoryWrite (pa : Nat) (bytes : List Byte)
  /-- HOST_ATOMIC_OP (R139). -/
  | hostAtomicOp (pa : Nat) (op : HostAtomic) (wide : Bool) (x y : DWord)
  /-- ATTESTATION_REQUEST (R321). -/
  | attestationRequest (nonce : List Byte)
  /-- POWER_CAP_SET (R326). -/
  | powerCapSet (watts : Nat)
  /-- CLOCK_THROTTLE (R326). -/
  | clockThrottle (island : Nat) (lowered : Bool)
  /-- MODULE_RESET (R317). -/
  | moduleReset (split : Split) (image : Bool)
  /-- PARTITION_SETUP (R319). -/
  | partitionSetup (part : Nat) (hwFault hwPreempt hwSched : Bool)
  /-- UNCORRECTABLE_ERROR (R130). -/
  | uncorrectableError (site : ErrSite)
  /-- LINK_TRAINING (R316). -/
  | linkTraining (link width rate : Nat)
  /-- POWER_LOSS (R321). -/
  | powerLoss
  /-- POWER_GATING (R291). -/
  | powerGating (core : Nat) (gated : Bool)
deriving DecidableEq, Repr

/-- The constructor of `Instr` an event stands for. -/
noncomputable def Event.instr : Event → Instr
  | .selection crew => .selection crew
  | .clauseFetchDone crew => .clauseFetchDone crew
  | .starvationPromotion crew lane => .starvationPromotion crew lane
  | .joinHoldEnd crew => .joinHoldEnd crew
  | .napExpiry crew lane => .napExpiry crew lane
  | .squadRetire squad => .squadRetire squad
  | .squadPlaced squad core => .squadPlaced squad core
  | .regmissFetchDone crew => .regmissFetchDone crew
  | .evictionWriteback core slot => .evictionWriteback core slot
  | .loadDataLands op => .loadDataLands op
  | .storeApplied op => .storeApplied op
  | .writeApplyRemoteView write => .writeApplyRemoteView write
  | .globalAtomicPerform op => .globalAtomicPerform op
  | .localAccessComplete op => .localAccessComplete op
  | .uniformLoadLands op => .uniformLoadLands op
  | .fenceRelease crew => .fenceRelease crew
  | .portEntryLands entry => .portEntryLands entry
  | .portCreditReturn credit => .portCreditReturn credit
  | .portStall crew lane => .portStall crew lane
  | .matrixJobStart core => .matrixJobStart core
  | .matrixJobComplete core => .matrixJobComplete core
  | .engineRelease core => .engineRelease core
  | .copyJobStart job => .copyJobStart job
  | .copyJobComplete job => .copyJobComplete job
  | .multicastLanding job receiver => .multicastLanding job receiver
  | .cinsJobComplete job => .cinsJobComplete job
  | .cfindComplete op => .cfindComplete op
  | .cclrComplete op => .cclrComplete op
  | .bisxComplete op => .bisxComplete op
  | .cpystComplete op => .cpystComplete op
  | .ftpollComplete op => .ftpollComplete op
  | .capabilityDrop drop => .capabilityDrop drop
  | .capabilityHandoff handoff => .capabilityHandoff handoff
  | .countReport core => .countReport core
  | .frontierAnnounce launch stage core => .frontierAnnounce launch stage core
  | .pairEnumerationStart core => .pairEnumerationStart core
  | .pairCrewStart core => .pairCrewStart core
  | .pairRetire core => .pairRetire core
  | .pairRemoteHalf half => .pairRemoteHalf half
  | .pairAcknowledge half => .pairAcknowledge half
  | .plnchComplete pairLaunch => .plnchComplete pairLaunch
  | .preEmption squad => .preEmption squad
  | .priorityPreEmption squad => .priorityPreEmption squad
  | .squadRestore squad core => .squadRestore squad core
  | .pageWalk walk => .pageWalk walk
  | .permitBackoffExpiry crew lane => .permitBackoffExpiry crew lane
  | .faultListWrite entry => .faultListWrite entry
  | .trapDelivery crew lane => .trapDelivery crew lane
  | .tlbiDone crew => .tlbiDone crew
  | .taskFailure crew => .taskFailure crew
  | .stealRequest crew victim => .stealRequest crew victim
  | .stealReply steal => .stealReply steal
  | .stealAcknowledge steal => .stealAcknowledge steal
  | .stealConfirm steal => .stealConfirm steal
  | .stealReclaim steal => .stealReclaim steal
  | .coreReset core => .coreReset core
  | .qpullEntryArrives crew => .qpullEntryArrives crew
  | .quiescence launch => .quiescence launch
  | .messageArrival message => .messageArrival message
  | .messageHandlerStart core => .messageHandlerStart core
  | .launchAcceptance submission => .launchAcceptance submission
  | .distributorBinding launch => .distributorBinding launch
  | .squadSteal launch thief => .squadSteal launch thief
  | .launchEnd launch => .launchEnd launch
  | .sampleTimer core => .sampleTimer core
  | .submissionDoorbell part queue tail => .submissionDoorbell part queue tail
  | .queueConfigWrite part queue base log => .queueConfigWrite part queue base log
  | .qerrClear part queue => .qerrClear part queue
  | .replayRegister cluster => .replayRegister cluster
  | .replayEndEntryRegister cluster index => .replayEndEntryRegister cluster index
  | .startRegister part handle => .startRegister part handle
  | .hostCtxsRegister part image op => .hostCtxsRegister part image op
  | .counterLowRead part counter => .counterLowRead part counter
  | .registerWrite part reg value => .registerWrite part reg value
  | .hostMemoryWrite pa bytes => .hostMemoryWrite pa bytes
  | .hostAtomicOp pa op wide x y => .hostAtomicOp pa op wide x y
  | .attestationRequest nonce => .attestationRequest nonce
  | .powerCapSet watts => .powerCapSet watts
  | .clockThrottle island lowered => .clockThrottle island lowered
  | .moduleReset split image => .moduleReset split image
  | .partitionSetup part hwFault hwPreempt hwSched => .partitionSetup part hwFault hwPreempt hwSched
  | .uncorrectableError site => .uncorrectableError site
  | .linkTraining link width rate => .linkTraining link width rate
  | .powerLoss => .powerLoss
  | .powerGating core gated => .powerGating core gated

end Sys2Proof
end

