-- ==== Sys2Proof/Config.lean ====
section
/-! DEFINITION. What spec/ leaves open: the free values of the model. Each is opaque, so that nothing can be proved of the value
it takes, and a claim holds whatever it is. -/

namespace Sys2Proof.Machine

/-- A public key of XMSS (R320, R321): the root of its tree, and its seed. -/
structure XmssPublic where
  root : List Byte
  seed : List Byte
deriving DecidableEq, Repr, Inhabited

/-- A secret key of XMSS (R321): the seed of its chains, the key of what randomises its messages, and the public seed. -/
structure XmssSecret where
  chains : List Byte
  random : List Byte
  seed : List Byte
deriving DecidableEq, Repr, Inhabited

end Sys2Proof.Machine

namespace Sys2Proof.Config

/-- Which of the events that can happen happens next in an idle cycle, by the counter `State.fresh`; 0 is none (log 2).
Latencies bind nothing (R128, R156, R234). -/
opaque choice : Nat → Nat

/-- What the outside world does in a cycle, by the counter `State.fresh`: host and firmware events alone are taken (log 2). -/
opaque input : Nat → Option Event

/-- Which of the results within the stated error an approximate function returns, by function code of R44 and operand (R106,
log 8). -/
opaque approx : Nat → Word → Nat

/-- The bytes as which a squad's state stands in its image, whose contents are not published (R288), by the counter `State.fresh` at the save
and the offset in the image (log 20). -/
opaque imageByte : Nat → Nat → Byte

/-- Bytes 64 to 159 of an attestation report, which hold the ROM version, the partition layout and the counts of spares in a layout that is
not published: by those three and the place (R321, log 9). -/
opaque reportByte : Word → Split → List Nat → Nat → Byte

/-- The vendor's public key, fused into the boot ROM (R320, log 9). -/
opaque vendorKey : Machine.XmssPublic

/-- The secret key of the module's identity, generated at its manufacture, and the vendor's certificate of its public key (R321, log 9). -/
opaque identity : Machine.XmssSecret

@[inherit_doc identity]
opaque certificate : List Byte

/-- The firmware image that has been put in place before a module reset, its signature and the version it reports (R316, R320, log 9). -/
opaque firmwareImage : Nat → List Byte

@[inherit_doc firmwareImage]
opaque firmwareSignature : Nat → List Byte

@[inherit_doc firmwareImage]
opaque firmwareVersion : List Byte → Word

/-- The counts of spare cores, channels and lanes that firmware brings in at a module reset (R322, log 9). -/
opaque sparesInUse : Nat → Nat → Nat

/-- The address space and the entry point of the firmware's fault-service kernel (R279, log 38). -/
opaque serviceSpace : Nat

@[inherit_doc serviceSpace]
opaque serviceEntry : DWord

/-- Whether the fault-service kernel can serve a fault from its page pool, by the counter `State.fresh` and the address (R279, log 38). -/
opaque poolServes : Nat → Nat → Bool

/-- The launch that the fault service ends in a cycle, by the counter `State.fresh`: nothing in spec/ says how it asks for that (R304,
log 38). -/
opaque serviceEnds : Nat → Option Nat

/-- The cores that a degraded module does not expose after a module reset (R1, R322, log 9). -/
opaque unexposed : Nat → List Nat

end Sys2Proof.Config
end

