-- ==== Sys2Proof/Machine/Float.lean ====
section
/-! DEFINITION. Number formats and floating-point arithmetic (R85-R98): each operation forms its exact result from exact
values and rounds it once. Flags are the five bits of R96: NV 16, DZ 8, OF 4, UF 2, NX 1. -/

namespace Sys2Proof.Machine

/-! ### Formats and values -/

/-- Rounding modes (R44, R93). -/
inductive Rnd
  /-- To nearest, ties to even. -/
  | rne
  /-- Toward zero. -/
  | rz
  /-- Down. -/
  | rd
  /-- Up. -/
  | ru
deriving DecidableEq, Repr

/-- The mode of a 2-bit code: 0 RNE, 1 RZ, 2 RD, 3 RU (R44). -/
def Rnd.ofCode (c : BitVec 2) : Rnd := if c = 0#2 then .rne else if c = 1#2 then .rz else if c = 2#2 then .rd else .ru

/-- The layout of a floating-point format: exponent and fraction widths and bias, and how its top codes read (R86). -/
structure FloatFmt where
  ew : Nat
  fw : Nat
  bias : Nat
  /-- The top exponent holds infinity and NaN. -/
  ieee : Bool
  /-- Of E4M3's style: only the top code is NaN. -/
  topNan : Bool
deriving DecidableEq, Repr

/-- FP32 (R86). -/
def fp32 : FloatFmt := ⟨8, 23, 127, true, false⟩

/-- FP16 (R86). -/
def fp16 : FloatFmt := ⟨5, 10, 15, true, false⟩

/-- The layout of a format code of R43; B8, E8M0 and the integer formats have none. -/
def FloatFmt.ofCode : Nat → Option FloatFmt
  | 0 => some fp32
  | 1 => some fp16
  | 2 => some ⟨8, 7, 127, true, false⟩
  | 3 => some ⟨5, 2, 15, true, false⟩
  | 4 => some ⟨4, 3, 7, false, true⟩
  | 5 => some ⟨3, 2, 3, false, false⟩
  | 6 => some ⟨2, 3, 1, false, false⟩
  | 7 => some ⟨2, 1, 1, false, false⟩
  | _ => none

/-- The width in bits of an element of a format code of R43. -/
def fmtBits : Nat → Nat
  | 0 => 32
  | 1 => 16
  | 2 => 16
  | 3 => 8
  | 4 => 8
  | 5 => 6
  | 6 => 6
  | 7 => 4
  | 8 => 8
  | 9 => 8
  | 10 => 8
  | 11 => 8
  | 12 => 4
  | 13 => 4
  | 14 => 32
  | _ => 32

/-- What a code stands for. A finite value is (-1)^neg * m * 2^e, exactly. -/
inductive FVal
  /-- NaN; signalling or not. -/
  | nan (signalling : Bool)
  /-- An infinity. -/
  | inf (neg : Bool)
  /-- A finite value. -/
  | fin (neg : Bool) (m : Nat) (e : Int)
deriving DecidableEq, Repr

/-- 2^n for an exponent that may be negative counts 0. -/
def pow2 (n : Int) : Nat := 2 ^ n.toNat

/-- The exponent of the lowest fraction bit of a format's subnormals. -/
def FloatFmt.qmin (f : FloatFmt) : Int := 1 - (f.bias : Int) - f.fw

/-- The magnitude code of infinity, or of the first code above the largest finite value. -/
def FloatFmt.limit (f : FloatFmt) : Nat :=
  if f.ieee then (2 ^ f.ew - 1) * 2 ^ f.fw else if f.topNan then 2 ^ (f.ew + f.fw) - 1 else 2 ^ (f.ew + f.fw)

/-- The canonical NaN of a format (R89). -/
def FloatFmt.nanCode (f : FloatFmt) : Nat :=
  if f.ieee then (2 ^ f.ew - 1) * 2 ^ f.fw + 2 ^ (f.fw - 1) else 2 ^ (f.ew + f.fw) - 1

/-- The sign bit of a format. -/
def FloatFmt.sign (f : FloatFmt) (neg : Bool) : Nat := if neg then 2 ^ (f.ew + f.fw) else 0

/-- Decodes a code of a format; bits above it are ignored (R86, R88). -/
def FloatFmt.decode (f : FloatFmt) (code : Nat) : FVal :=
  let frac := code % 2 ^ f.fw
  let ex := code / 2 ^ f.fw % 2 ^ f.ew
  let neg := code / 2 ^ (f.ew + f.fw) % 2 = 1
  if f.ieee && ex == 2 ^ f.ew - 1 then
    if frac = 0 then .inf neg else .nan (decide (frac < 2 ^ (f.fw - 1)))
  else if f.topNan && code % 2 ^ (f.ew + f.fw) == 2 ^ (f.ew + f.fw) - 1 then .nan false
  else if ex = 0 then .fin neg frac f.qmin
  else .fin neg (2 ^ f.fw + frac) (f.qmin + (ex - 1 : Nat))

/-- Number of bits of a positive number; 0 for 0. -/
def bitLen (m : Nat) : Nat := if m = 0 then 0 else m.log2 + 1

/-! ### Rounding once -/

/-- A magnitude rounded: the code on the format's grid with an unbounded exponent, and whether it is inexact and below the
minimum normal before rounding. -/
structure Rounded where
  code : Nat
  inexact : Bool
  tiny : Bool
deriving DecidableEq, Repr

/-- Whether a discarded part rounds away from zero. `up` compares it with half a unit: 0 less, 1 equal, 2 more. -/
def roundsUp (rm : Rnd) (neg inexact : Bool) (half : Nat) (odd : Bool) : Bool :=
  match rm with
  | .rne => half == 2 || (half == 1 && odd)
  | .rz => false
  | .rd => neg && inexact
  | .ru => !neg && inexact

/-- Rounds the magnitude m * 2^e, with more discarded below it when `sticky`, to a format with an unbounded exponent
(R93). -/
def FloatFmt.roundMag (f : FloatFmt) (rm : Rnd) (neg : Bool) (m : Nat) (e : Int) (sticky : Bool) : Rounded :=
  if m = 0 then { code := 0, inexact := sticky, tiny := sticky }
  else
    let top := e + (bitLen m : Int) - 1
    let q := max (top - f.fw) f.qmin
    let tiny := decide (top < 1 - (f.bias : Int))
    if q ≤ e then
      { code := (q - f.qmin).toNat * 2 ^ f.fw + m * pow2 (e - q), inexact := sticky, tiny := tiny }
    else
      let sh := (q - e).toNat
      let n := m / 2 ^ sh
      let r := m % 2 ^ sh
      let inexact := r != 0 || sticky
      let half := if 2 ^ (sh - 1) < r then 2 else if r = 2 ^ (sh - 1) then (if sticky then 2 else 1) else 0
      let up := roundsUp rm neg inexact half (n % 2 = 1)
      { code := (q - f.qmin).toNat * 2 ^ f.fw + n + (if up then 1 else 0), inexact := inexact, tiny := tiny }

/-- The five flags as a word (R96). -/
def flagBits (nv dz ov uf nx : Bool) : BitVec 5 :=
  BitVec.ofNat 5 ((if nv then 16 else 0) + (if dz then 8 else 0) + (if ov then 4 else 0) + (if uf then 2 else 0)
    + (if nx then 1 else 0))

/-- Rounds an exact finite value to a format with infinities by IEEE 754: overflow goes to infinity or to the largest
finite value as the mode directs (R93). -/
def FloatFmt.roundIeee (f : FloatFmt) (rm : Rnd) (neg : Bool) (m : Nat) (e : Int) (sticky : Bool) : Nat × BitVec 5 :=
  let r := f.roundMag rm neg m e sticky
  if f.limit ≤ r.code then
    let toInf := match rm with
      | .rne => true
      | .rz => false
      | .rd => neg
      | .ru => !neg
    (f.sign neg + (if toInf then f.limit else f.limit - 1), flagBits false false true false true)
  else (f.sign neg + r.code, flagBits false false false (r.tiny && r.inexact) r.inexact)

/-- A NaN result: NV for a signalling input or a NaN made from other inputs. -/
def FloatFmt.nanResult (f : FloatFmt) (nv : Bool) : Nat × BitVec 5 := (f.nanCode, flagBits nv false false false false)

/-- An infinite result. -/
def FloatFmt.infResult (f : FloatFmt) (neg : Bool) : Nat × BitVec 5 := (f.sign neg + f.limit, 0#5)

/-! ### Arithmetic -/

/-- A signed integer multiple of a power of two. -/
def signedInt (neg : Bool) (m : Nat) : Int := if neg then -(m : Int) else m

/-- The exact sum of two finite values, as an integer multiple of 2^e. -/
def exactSum (n1 : Bool) (m1 : Nat) (e1 : Int) (n2 : Bool) (m2 : Nat) (e2 : Int) : Int × Int :=
  let e := min e1 e2
  (signedInt n1 m1 * pow2 (e1 - e) + signedInt n2 m2 * pow2 (e2 - e), e)

/-- Rounds an exact sum; an exact zero takes the sign of both operands where they agree, else + (− under RD) (R93). -/
def FloatFmt.roundSum (f : FloatFmt) (rm : Rnd) (v : Int) (e : Int) (n1 n2 : Bool) : Nat × BitVec 5 :=
  if v = 0 then (f.sign (if n1 = n2 then n1 else decide (rm = .rd)), 0#5)
  else f.roundIeee rm (decide (v < 0)) v.natAbs e false

/-- x + y (R102). -/
def FloatFmt.addV (f : FloatFmt) (rm : Rnd) (x y : FVal) : Nat × BitVec 5 :=
  match x, y with
  | .nan s, .nan s' => f.nanResult (s || s')
  | .nan s, _ => f.nanResult s
  | _, .nan s => f.nanResult s
  | .inf a, .inf b => if a = b then f.infResult a else f.nanResult true
  | .inf a, _ => f.infResult a
  | _, .inf b => f.infResult b
  | .fin n1 m1 e1, .fin n2 m2 e2 =>
    let v := exactSum n1 m1 e1 n2 m2 e2
    f.roundSum rm v.1 v.2 n1 n2

/-- The value with the other sign. -/
def FVal.negate : FVal → FVal
  | .nan s => .nan s
  | .inf n => .inf (!n)
  | .fin n m e => .fin (!n) m e

/-- A value is NaN. -/
def FVal.isNan : FVal → Bool
  | .nan _ => true
  | _ => false

/-- A value is a signalling NaN. -/
def FVal.isSnan : FVal → Bool
  | .nan s => s
  | _ => false

/-- x × y, exactly: NaN with `true` for 0 × ∞. -/
def FVal.mul (x y : FVal) : FVal :=
  match x, y with
  | .nan s, .nan s' => .nan (s || s')
  | .nan s, _ => .nan s
  | _, .nan s => .nan s
  | .inf a, .inf b => .inf (a != b)
  | .inf a, .fin b m _ => if m = 0 then .nan true else .inf (a != b)
  | .fin a m _, .inf b => if m = 0 then .nan true else .inf (a != b)
  | .fin a m e, .fin b m' e' => .fin (a != b) (m * m') (e + e')

/-- Rounds a value that is exact to a format. -/
def FloatFmt.roundV (f : FloatFmt) (rm : Rnd) : FVal → Nat × BitVec 5
  | .nan s => f.nanResult s
  | .inf n => f.infResult n
  | .fin n m e => if m = 0 then (f.sign n, 0#5) else f.roundIeee rm n m e false

/-- x × y (R102). -/
def FloatFmt.mulV (f : FloatFmt) (rm : Rnd) (x y : FVal) : Nat × BitVec 5 := f.roundV rm (x.mul y)

/-- x × y + z with one rounding; 0 × ∞ is invalid even with a quiet NaN z (R102). -/
def FloatFmt.fmaV (f : FloatFmt) (rm : Rnd) (x y z : FVal) : Nat × BitVec 5 :=
  match x.mul y, z with
  | .nan s, z => f.nanResult (s || z.isSnan)
  | p, z => f.addV rm p z

/-- Integer square root by bits: the greatest r with r² ≤ n, from `k` bits. -/
def isqrtBits (n : Nat) : Nat → Nat → Nat
  | 0, r => r
  | k + 1, r => if (r + 2 ^ k) * (r + 2 ^ k) ≤ n then isqrtBits n k (r + 2 ^ k) else isqrtBits n k r

/-- Integer square root. -/
def isqrt (n : Nat) : Nat := isqrtBits n (bitLen n / 2 + 1) 0

/-- √x (R106). -/
def FloatFmt.sqrtV (f : FloatFmt) (rm : Rnd) (x : FVal) : Nat × BitVec 5 :=
  match x with
  | .nan s => f.nanResult s
  | .inf neg => if neg then f.nanResult true else f.infResult false
  | .fin neg m e =>
    if m = 0 then (f.sign neg, 0#5)
    else if neg then f.nanResult true
    else
      let k : Int := 64 + e % 2
      let n := m * pow2 k
      let r := isqrt n
      f.roundIeee rm false r ((e - k) / 2) (decide (r * r ≠ n))

/-- x ÷ y (R107). -/
def FloatFmt.divV (f : FloatFmt) (rm : Rnd) (x y : FVal) : Nat × BitVec 5 :=
  match x, y with
  | .nan s, .nan s' => f.nanResult (s || s')
  | .nan s, _ => f.nanResult s
  | _, .nan s => f.nanResult s
  | .inf _, .inf _ => f.nanResult true
  | .inf a, .fin b _ _ => f.infResult (a != b)
  | .fin a _ _, .inf b => (f.sign (a != b), 0#5)
  | .fin a m e, .fin b m' e' =>
    if m' = 0 then
      if m = 0 then f.nanResult true else (f.sign (a != b) + f.limit, flagBits false true false false false)
    else if m = 0 then (f.sign (a != b), 0#5)
    else
      let k := bitLen m' + f.fw + 3
      let n := m * 2 ^ k
      f.roundIeee rm (a != b) (n / m') (e - e' - k) (decide (n % m' ≠ 0))

/-! ### FP32 on words -/

/-- The value of an FP32 word. -/
def fval (w : Word) : FVal := fp32.decode w.toNat

/-- A result as an FP32 word with its flags. -/
def word32 (r : Nat × BitVec 5) : Word × BitVec 5 := (BitVec.ofNat 32 r.1, r.2)

/-- FP32 addition. -/
def f32Add (rm : Rnd) (x y : Word) : Word × BitVec 5 := word32 (fp32.addV rm (fval x) (fval y))

/-- FP32 subtraction. -/
def f32Sub (rm : Rnd) (x y : Word) : Word × BitVec 5 := word32 (fp32.addV rm (fval x) (fval y).negate)

/-- FP32 multiplication. -/
def f32Mul (rm : Rnd) (x y : Word) : Word × BitVec 5 := word32 (fp32.mulV rm (fval x) (fval y))

/-- FP32 fused multiply-add. -/
def f32Fma (rm : Rnd) (x y z : Word) : Word × BitVec 5 := word32 (fp32.fmaV rm (fval x) (fval y) (fval z))

/-- FP32 division. -/
def f32Div (rm : Rnd) (x y : Word) : Word × BitVec 5 := word32 (fp32.divV rm (fval x) (fval y))

/-- FP32 square root. -/
def f32Sqrt (rm : Rnd) (x : Word) : Word × BitVec 5 := word32 (fp32.sqrtV rm (fval x))

/-- FP32 addition by RNE as atomics and reductions do it, with no flags (R124, R145, R171, R264). -/
def f32AddQuiet (x y : Word) : Word := (f32Add .rne x y).1

/-- The sign of a comparison of two finite or infinite values: -1, 0 or 1. -/
def FVal.cmp (x y : FVal) : Int :=
  match x, y with
  | .inf a, .inf b => if a = b then 0 else if a then -1 else 1
  | .inf a, _ => if a then -1 else 1
  | _, .inf b => if b then 1 else -1
  | .fin n1 m1 e1, .fin n2 m2 e2 => (exactSum n1 m1 e1 (!n2) m2 e2).1.sign
  | _, _ => 0

/-- Some operand is a signalling NaN: NV. -/
def nvOf (b : Bool) : BitVec 5 := flagBits b false false false false

/-- The order key of `fmin` and `fmax`: x is less than y, −0 less than +0 (R103). -/
def f32Less (x y : Word) : Bool :=
  let c := (fval x).cmp (fval y)
  c == -1 || (c == 0 && x.msb && !y.msb)

/-- `fmin` (R103). -/
def f32Min (x y : Word) : Word × BitVec 5 :=
  let nv := nvOf ((fval x).isSnan || (fval y).isSnan)
  if (fval x).isNan && (fval y).isNan then (0x7FC00000#32, nv)
  else if (fval x).isNan then (y, nv)
  else if (fval y).isNan then (x, nv)
  else (if f32Less y x then y else x, nv)

/-- `fmax` (R103). -/
def f32Max (x y : Word) : Word × BitVec 5 :=
  let nv := nvOf ((fval x).isSnan || (fval y).isSnan)
  if (fval x).isNan && (fval y).isNan then (0x7FC00000#32, nv)
  else if (fval x).isNan then (y, nv)
  else if (fval y).isNan then (x, nv)
  else (if f32Less x y then y else x, nv)

/-- `fcmp.eq` (R104). -/
def f32Eq (x y : Word) : Word × BitVec 5 :=
  if (fval x).isNan || (fval y).isNan then (0#32, nvOf ((fval x).isSnan || (fval y).isSnan))
  else (Word.ofBool ((fval x).cmp (fval y) = 0), 0#5)

/-- `fcmp.lt` (R104). -/
def f32Lt (x y : Word) : Word × BitVec 5 :=
  if (fval x).isNan || (fval y).isNan then (0#32, nvOf true) else (Word.ofBool ((fval x).cmp (fval y) = -1), 0#5)

/-- `fcmp.le` (R104). -/
def f32Le (x y : Word) : Word × BitVec 5 :=
  if (fval x).isNan || (fval y).isNan then (0#32, nvOf true) else (Word.ofBool ((fval x).cmp (fval y) ≤ 0), 0#5)

/-- `fcmp.un` (R104). -/
def f32Un (x y : Word) : Word × BitVec 5 :=
  (Word.ofBool ((fval x).isNan || (fval y).isNan), nvOf ((fval x).isSnan || (fval y).isSnan))

/-- `fclass` (R105). -/
def f32Class (x : Word) : Word :=
  match fval x with
  | .inf true => 0x001#32
  | .inf false => 0x080#32
  | .nan true => 0x100#32
  | .nan false => 0x200#32
  | .fin neg m _ =>
    if m = 0 then (if neg then 0x008#32 else 0x010#32)
    else if m < 2 ^ 23 then (if neg then 0x004#32 else 0x020#32)
    else (if neg then 0x002#32 else 0x040#32)

/-! ### Bucor-8 and E8M0 -/

/-- The magnitude of a B8 code from 0x01 to 0x7F: significand and fraction width, and unbiased exponent (R90, R97). -/
def b8Parts (c : Nat) : Nat × Nat × Int :=
  if 0x40 ≤ c then (32 + c % 32, 5, if c / 32 % 2 = 0 then -1 else 0)
  else if 0x20 ≤ c then (8 + c % 8, 3, [-3, -2, 1, 2].getD (c / 8 % 4) 0)
  else if 0x10 ≤ c then (2 + c % 2, 1, [-7, -6, -5, -4, 3, 4, 5, 6].getD (c / 2 % 8) 0)
  else if 0x08 ≤ c then (1, 0, [-11, -10, -9, -8, 7, 8, 9, 10].getD (c % 8) 0)
  else if 0x04 ≤ c then (1, 0, [-13, -12, 11, 12].getD (c % 4) 0)
  else if 0x02 ≤ c then (1, 0, [-14, 13].getD (c % 2) 0)
  else (1, 0, 14)

/-- The value of a B8 code (R90). -/
def b8Decode (code : Nat) : FVal :=
  let c := code % 256
  if c = 0 then .fin false 0 0
  else if c = 0x80 then .nan false
  else
    let p := b8Parts (c % 128)
    .fin (decide (128 ≤ c)) p.1 (p.2.2 - p.2.1)

/-- The non-negative B8 codes in ascending value (R91). -/
def b8Ascending : List Nat :=
  [0x00, 0x02, 0x04, 0x05] ++ (List.range 4).map (· + 0x08) ++ (List.range 8).map (· + 0x10)
    ++ (List.range 16).map (· + 0x20) ++ (List.range 64).map (· + 0x40) ++ (List.range 16).map (· + 0x30)
    ++ (List.range 8).map (· + 0x18) ++ (List.range 4).map (· + 0x0C) ++ [0x06, 0x07, 0x03, 0x01]

/-- The magnitude of a B8 code in units of 2^-14, of which every magnitude is a multiple. -/
def b8Units (c : Nat) : Nat :=
  if c = 0 then 0 else (b8Parts c).1 * pow2 ((b8Parts c).2.2 - (b8Parts c).2.1 + 14)

/-- The neighbours of a magnitude among ascending codes: the last not above it and the first not below it. -/
def b8Neighbours (m : Nat) (e : Int) : List Nat → Nat → Nat × Nat
  | [], lo => (lo, lo)
  | c :: cs, lo =>
    let v := (exactSum false m e true (b8Units c) (-14)).1
    if v = 0 then (c, c) else if v < 0 then (lo, c) else b8Neighbours m e cs c

/-- Rounds a magnitude at most 2^14 to B8 (R92). -/
def b8Round (rm : Rnd) (neg : Bool) (m : Nat) (e : Int) : Nat × Bool :=
  let n := b8Neighbours m e b8Ascending 0
  if n.1 = n.2 then (n.1, false)
  else
    let below := (exactSum false m e true (b8Units n.1) (-14))
    let above := (exactSum true m e false (b8Units n.2) (-14))
    let down := match rm with
      | .rz => true
      | .rd => !neg
      | .ru => neg
      | .rne =>
        if below.1 < above.1 then true
        else if above.1 < below.1 then false
        else if n.1 % 2 ≠ n.2 % 2 then n.1 % 2 = 0 else true
    (if down then n.1 else n.2, true)

/-- A B8 code with a sign; zero has none (R92). -/
def b8Sign (neg : Bool) (c : Nat) : Nat := if c = 0 then 0 else if neg then 128 + c else c

/-- The value of an E8M0 code (R87). -/
def e8m0Decode (code : Nat) : FVal :=
  let c := code % 256
  if c = 255 then .nan false else .fin false 1 ((c : Int) - 127)

/-- The value of a code of a format of R43. Integer formats read as their values. -/
def decodeFmt (fmt code : Nat) : FVal :=
  match FloatFmt.ofCode fmt with
  | some f => f.decode code
  | none =>
    if fmt = 8 then b8Decode code
    else if fmt = 9 then e8m0Decode code
    else if fmt = 10 then
      let c := (BitVec.ofNat 8 code).toInt
      .fin (decide (c < 0)) c.natAbs 0
    else if fmt = 11 then .fin false (code % 256) 0
    else if fmt = 12 then
      let c := (BitVec.ofNat 4 code).toInt
      .fin (decide (c < 0)) c.natAbs 0
    else if fmt = 13 then .fin false (code % 16) 0
    else
      let c := (BitVec.ofNat 32 code).toInt
      .fin (decide (c < 0)) c.natAbs 0

/-! ### Conversions -/

/-- Conversion to E8M0 (R95). DESIGN CHOICE (log 58): UF is not set where a value below 2^-127 rounds up to 2^-127. -/
def toE8m0 (rm : Rnd) (nosat : Bool) (x : FVal) : Nat × BitVec 5 :=
  match x with
  | .nan s => (0xFF, nvOf s)
  | .inf _ => (if nosat then 0xFF else 0xFE, 0#5)
  | .fin _ m e =>
    if m = 0 then (0x00, flagBits false false false true true)
    else
      let k := e + (bitLen m : Int) - 1
      let pow := decide (m = 2 ^ (bitLen m - 1))
      let up := match rm with
        | .rz => false
        | .rd => false
        | .ru => !pow
        | .rne => decide (3 * 2 ^ (bitLen m - 1) ≤ 2 * m)
      let k' := if up then k + 1 else k
      if k' < -127 then (0x00, flagBits false false false true true)
      else if 127 < k' then (if nosat then 0xFF else 0xFE, flagBits false false true false true)
      else ((k' + 127).toNat, flagBits false false false false (!pow))

/-- Conversion of an exact value to a narrow format of R43 (codes 1-9), by R92, R94, R95 and R109. -/
def convert (fmt : Nat) (rm : Rnd) (nosat : Bool) (x : FVal) : Nat × BitVec 5 :=
  if fmt = 9 then toE8m0 rm nosat x
  else if fmt = 8 then
    match x with
    | .nan s => (0x80, nvOf s)
    | .inf n => (if nosat then 0x80 else b8Sign n 1, 0#5)
    | .fin neg m e =>
      if m = 0 then (0, 0#5)
      else if 0 < (exactSum false m e true 1 14).1 then
        (if nosat then 0x80 else b8Sign neg 1, flagBits false false true false true)
      else
        let r := b8Round rm neg m e
        let tiny := decide ((exactSum false m e true 1 (-14)).1 < 0)
        (b8Sign neg r.1, flagBits false false false (tiny && r.2) r.2)
  else
    match FloatFmt.ofCode fmt with
    | none => (0, 0#5)
    | some f =>
      if fmt = 1 ∨ fmt = 2 ∨ fmt = 0 then f.roundV rm x
      else
        match x with
        | .nan s => if f.ieee || f.topNan then (f.nanCode, nvOf s) else (0, nvOf true)
        | .inf n =>
          if nosat && f.ieee then (f.sign n + f.limit, 0#5)
          else if nosat && f.topNan then (f.nanCode, 0#5)
          else (f.sign n + f.limit - 1, 0#5)
        | .fin neg m e =>
          if m = 0 then (f.sign neg, 0#5)
          else
            let r := f.roundMag rm neg m e false
            if f.limit ≤ r.code then
              let code :=
                if nosat && f.ieee then (f.roundIeee rm neg m e false).1
                else if nosat && f.topNan then f.nanCode
                else f.sign neg + f.limit - 1
              (code, flagBits false false true false true)
            else (f.sign neg + r.code, flagBits false false false (r.tiny && r.inexact) r.inexact)

/-- A narrow code as exact FP32 (R109): a NaN gives the canonical NaN. -/
def widen (fmt code : Nat) : Word × BitVec 5 := word32 (fp32.roundV .rne (decodeFmt fmt code))

/-- Rounds a magnitude to an integer by a mode. -/
def roundInt (rm : Rnd) (neg : Bool) (m : Nat) (e : Int) : Nat × Bool :=
  if 0 ≤ e then (m * pow2 e, false)
  else
    let sh := (-e).toNat
    let n := m / 2 ^ sh
    let r := m % 2 ^ sh
    let half := if 2 ^ (sh - 1) < r then 2 else if r = 2 ^ (sh - 1) then 1 else 0
    (n + (if roundsUp rm neg (r != 0) half (n % 2 = 1) then 1 else 0), r != 0)

/-- `cvti` (R110). -/
def f32ToInt (rm : Rnd) (uns : Bool) (x : Word) : Word × BitVec 5 :=
  let lo : Int := if uns then 0 else -2147483648
  let hi : Int := if uns then 4294967295 else 2147483647
  match fval x with
  | .nan _ => (0#32, nvOf true)
  | .inf n => (BitVec.ofInt 32 (if n then lo else hi), nvOf true)
  | .fin neg m e =>
    let r := roundInt rm neg m e
    let v := signedInt neg r.1
    if v < lo then (BitVec.ofInt 32 lo, nvOf true)
    else if hi < v then (BitVec.ofInt 32 hi, nvOf true)
    else (BitVec.ofInt 32 v, flagBits false false false false r.2)

/-- `cvfi` (R110). -/
def intToF32 (rm : Rnd) (uns : Bool) (x : Word) : Word × BitVec 5 :=
  let v : Int := if uns then x.toNat else x.toInt
  if v = 0 then (0#32, 0#5) else word32 (fp32.roundIeee rm (decide (v < 0)) v.natAbs 0 false)

/-- An integer as exact FP32: an inline constant where FP32 is read (R21). -/
def constF32 (w : Word) : Word := (intToF32 .rne false w).1

/-! ### The aligned adder (R97, R98) -/

/-- An element of a product: NaN, an infinity, or its integer significand, exponent and fraction width (R97). -/
inductive Elem
  /-- NaN; signalling or not. -/
  | nan (signalling : Bool)
  /-- An infinity. -/
  | inf (neg : Bool)
  /-- sa * 2^(ea - F). -/
  | fin (neg : Bool) (sa : Nat) (ea : Int) (fw : Nat)
deriving DecidableEq, Repr

/-- The element of a code of a floating-point format. -/
def elemOf (fmt code : Nat) : Elem :=
  if fmt = 8 then
    let c := code % 256
    if c = 0 then .fin false 0 0 0
    else if c = 0x80 then .nan false
    else
      let p := b8Parts (c % 128)
      .fin (decide (128 ≤ c)) p.1 p.2.2 p.2.1
  else
    match FloatFmt.ofCode fmt with
    | none => .fin false 0 0 0
    | some f =>
      match f.decode code with
      | .nan s => .nan s
      | .inf n => .inf n
      | .fin n m e => .fin n m (e + f.fw) f.fw

/-- One product of a chunk, with the exponent that its block scales add; `none` for a NaN scale. -/
structure Product where
  a : Elem
  b : Elem
  scale : Option Int
deriving DecidableEq, Repr

/-- A product is NaN: an element or the scale is, or it is 0 × ∞. -/
def Product.isNan (p : Product) : Bool :=
  match p.scale, p.a, p.b with
  | none, _, _ => true
  | _, .nan _, _ => true
  | _, _, .nan _ => true
  | _, .inf _, .fin _ m _ _ => m == 0
  | _, .fin _ m _ _, .inf _ => m == 0
  | _, _, _ => false

/-- The sign of an infinite product. -/
def Product.infSign (p : Product) : Option Bool :=
  match p.a, p.b with
  | .inf x, .inf y => some (x != y)
  | .inf x, .fin y _ _ _ => some (x != y)
  | .fin x _ _ _, .inf y => some (x != y)
  | _, _ => none

/-- A nonzero finite product: sign, significand, fraction width and exponent. -/
def Product.term (p : Product) : Option (Bool × Nat × Nat × Int) :=
  match p.a, p.b with
  | .fin x m e f, .fin y m' e' f' =>
    if m = 0 ∨ m' = 0 then none else some (x != y, m * m', f + f', e + e' + p.scale.getD 0)
  | _, _ => none

/-- The greatest exponent of terms. -/
def maxExp : List (Bool × Nat × Nat × Int) → Int
  | [] => 0
  | [t] => t.2.2.2
  | t :: ts => max t.2.2.2 (maxExp ts)

/-- The aligned sum at binary point P, and whether bits were truncated. -/
def alignSum (P : Nat) (emax : Int) : List (Bool × Nat × Nat × Int) → Int × Bool
  | [] => (0, false)
  | (neg, m, fw, e) :: ts =>
    let r := alignSum P emax ts
    let n := m * 2 ^ (P - fw)
    let d := pow2 (emax - e)
    (signedInt neg (n / d) + r.1, r.2 || n % d != 0)

/-- One chunk of R98: the new accumulator, with the flags of `fdp4` (R113). DESIGN CHOICE (log 59): 0 times infinity sets NV beside a quiet NaN of
another product, and not beside a quiet NaN accumulator. -/
def chunkSum (P : Nat) (c : Word) (ps : List Product) : Word × BitVec 5 :=
  let snan := ps.any (fun p => match p.a, p.b with
    | .nan true, _ => true
    | _, .nan true => true
    | _, _ => false)
  let made := ps.any (fun p => p.isNan && p.scale.isSome && (match p.a, p.b with
    | .nan _, _ => false
    | _, .nan _ => false
    | _, _ => true))
  if (fval c).isNan then (0x7FC00000#32, nvOf ((fval c).isSnan || snan))
  else if ps.any Product.isNan then (0x7FC00000#32, nvOf (snan || made))
  else
    let infs := ps.filterMap Product.infSign
    match infs with
    | n :: _ =>
      if infs.contains (!n) then (0x7FC00000#32, nvOf true)
      else word32 (fp32.addV .rne (fval c) (.inf n))
    | [] =>
      let ts := ps.filterMap Product.term
      if ts.isEmpty then (c, 0#5)
      else
        let emax := maxExp ts
        let a := alignSum P emax ts
        let r := word32 (fp32.addV .rne (fval c) (.fin (decide (a.1 < 0)) a.1.natAbs (emax - P)))
        (r.1, r.2 ||| flagBits false false false false a.2)

end Sys2Proof.Machine
end

