-- ==== Sys2Proof/Machine/Approx.lean ====
section
/-! DEFINITION. The unary group of R106: `frcp`, `frsq`, `fex2`, `flg2`, `fsin` and `fcos`. The exact results and the special
inputs are as the rule lists them. Any other result is a free value within the stated error: the model computes the exact
result to far more bits than FP32 holds, and `Config.approx` says which of the FP32 values within the error is returned
(log 8). -/

namespace Sys2Proof.Machine

/-! ### Fixed-point arithmetic with 400 fraction bits -/

/-- Fraction bits of the fixed-point numbers. -/
def fxBits : Nat := 400

/-- floor(π · 2^400). -/
def fxPi : Nat :=
  8112377246730971238862271351300894519161151600179265203591191037615230905373990498745523360926816815427566779727327576236

/-- floor(ln 2 · 2^400). -/
def fxLn2 : Nat :=
  1789879222497203190815761498240779176894896805856420935579692301363062920687047601279850318367644315849030039181347319086

/-- Product of fixed-point numbers. -/
def fxMul (a b : Int) : Int := a * b / 2 ^ fxBits

/-- The series 1 + x/1 (1 + x/2 (1 + x/3 (...))), `n` terms deep from term `k` on. -/
def fxExp (x : Int) : Nat → Nat → Int
  | 0, _ => 2 ^ fxBits
  | n + 1, k => 2 ^ fxBits + fxMul x (fxExp x n (k + 1)) / k

/-- The series 1 - x²/(k(k+1)) (1 - ...), `n` terms deep: sine over x from k = 2, cosine from k = 1. -/
def fxAlt (x2 : Int) : Nat → Nat → Int
  | 0, _ => 2 ^ fxBits
  | n + 1, k => 2 ^ fxBits - fxMul x2 (fxAlt x2 n (k + 2)) / (k * (k + 1) : Nat)

/-- Sine of a small angle, cut off towards 0. -/
def fxSin (x : Int) : Int := signedInt (decide (x < 0)) (fxMul x.natAbs (fxAlt (fxMul x x) 50 2)).natAbs

/-- Cosine of a small angle. -/
def fxCos (x : Int) : Int := fxAlt (fxMul x x) 50 1

/-- Fraction bits of the base-2 logarithm of x in [1, 2), highest first, by squaring. -/
def fxLog2 (x : Nat) : Nat → Nat
  | 0 => 0
  | n + 1 =>
    let y := x * x / 2 ^ fxBits
    if 2 ^ (fxBits + 1) ≤ y then 2 ^ n + fxLog2 (y / 2) n else fxLog2 y n

/-- A finite value m * 2^e in fixed point. -/
def fxOf (neg : Bool) (m : Nat) (e : Int) : Int :=
  signedInt neg (if 0 ≤ e + fxBits then m * pow2 (e + fxBits) else m / pow2 (-(e + fxBits)))

/-! ### Free values within an error -/

/-- The finite magnitude that an FP32 code stands for, in units of 2^-149; the codes after the largest go on. -/
def f32Units (code : Nat) : Nat := if code < 2 ^ 23 then code else (2 ^ 23 + code % 2 ^ 23) * 2 ^ (code / 2 ^ 23 - 1)

/-- The FP32 value of a magnitude code lies within `n` ulp of the exact magnitude m * 2^e, whose code rounded towards 0 is `base`. DESIGN CHOICE
(log 60): an ulp is the distance of FP32 values about the exact result. -/
def withinUlps (n base m : Nat) (e : Int) (code : Nat) : Bool :=
  let k := e + 149
  let err := ((f32Units code * pow2 (-k) : Nat) : Int) - (m * pow2 k : Nat)
  decide (err.natAbs ≤ n * (f32Units (base + 1) - f32Units base) * pow2 (-k))

/-- The magnitude codes within `n` ulp, 1 or 2, of the exact magnitude. -/
def codesWithin (n m : Nat) (e : Int) : List Nat :=
  let base := (fp32.roundMag .rz false m e true).code
  ((List.range 6).map (base + 2 - ·)).filter (withinUlps n base m e)

/-- An FP32 result within `n` ulp of the exact magnitude m * 2^e, whose last bits are cut off: which, spec/ leaves open (log 8). -/
def approxMag (fn : Nat) (x : Word) (n : Nat) (neg : Bool) (m : Nat) (e : Int) : Word × BitVec 5 :=
  let r := fp32.roundMag .rz false m e true
  let codes := codesWithin n m e
  let code := codes.getD (Config.approx fn x % codes.length) r.code
  if fp32.limit ≤ code then (BitVec.ofNat 32 (fp32.sign neg + fp32.limit), flagBits false false true false true)
  else (BitVec.ofNat 32 (fp32.sign neg + code), flagBits false false false r.tiny true)

/-- A sine or cosine as a signed fixed-point number, whose last bits may be off by three units: the magnitude is at least what is left without
them. -/
def approxFx (fn : Nat) (x : Word) (v : Int) : Word × BitVec 5 :=
  approxMag fn x 2 (decide (v < 0)) (v.natAbs - 3) (-(fxBits : Int))

/-- The canonical NaN with NV. -/
def invalid : Word × BitVec 5 := (0x7FC00000#32, nvOf true)

/-- A NaN operand: NV when it signals. -/
def quieted (s : Bool) : Word × BitVec 5 := (0x7FC00000#32, nvOf s)

/-- An infinity with DZ. -/
def infDz (neg : Bool) : Word × BitVec 5 := (BitVec.ofNat 32 (fp32.sign neg + fp32.limit), flagBits false true false false false)

/-- The exponent k of a magnitude m * 2^e that is exactly 2^k. -/
def exactPow2 (m : Nat) (e : Int) : Option Int :=
  if m = 2 ^ (bitLen m - 1) then some (e + (bitLen m : Int) - 1) else none

/-- An integer exponent as the exact power of two: overflow and underflow as for any result. -/
def pow2F32 (neg : Bool) (k : Int) : Word × BitVec 5 := word32 (fp32.roundIeee .rne neg 1 k false)

/-- `frcp`. -/
def f32Rcp (x : Word) : Word × BitVec 5 :=
  match fval x with
  | .nan s => quieted s
  | .inf n => (BitVec.ofNat 32 (fp32.sign n), 0#5)
  | .fin n m e =>
    if m = 0 then infDz n
    else
      match exactPow2 m e with
      | some k => pow2F32 n (-k)
      | none => approxMag 0 x 1 n (2 ^ 80 / m) (-80 - e)

/-- `frsq`. -/
def f32Rsq (x : Word) : Word × BitVec 5 :=
  match fval x with
  | .nan s => quieted s
  | .inf n => if n then invalid else (0#32, 0#5)
  | .fin n m e =>
    if m = 0 then infDz n
    else if n then invalid
    else
      match exactPow2 m e with
      | some k => if k % 2 = 0 then pow2F32 false (-(k / 2))
                  else approxMag 1 x 1 false (isqrt (2 ^ 160 / 2)) (-80 - (k - 1) / 2)
      | none =>
        let m' := if e % 2 = 0 then m else 2 * m
        approxMag 1 x 1 false (isqrt (2 ^ 160 / m')) (-80 - e / 2)

/-- `fex2`. -/
def f32Ex2 (x : Word) : Word × BitVec 5 :=
  match fval x with
  | .nan s => quieted s
  | .inf n => if n then (0#32, 0#5) else (BitVec.ofNat 32 fp32.limit, 0#5)
  | .fin n m e =>
    if m = 0 then (0x3F800000#32, 0#5)
    else
      let big := 8 < e + (bitLen m : Int)
      if big && !n then (BitVec.ofNat 32 fp32.limit, flagBits false false true false true)
      else if big then approxMag 6 x 2 false 1 (-300)
      else
        let v := fxOf n m e
        let k := v / 2 ^ fxBits
        let f := v % 2 ^ fxBits
        if e + fxBits ≥ 0 ∧ f = 0 then pow2F32 false k
        else approxMag 6 x 2 false (fxExp (fxMul f fxLn2) 90 1).toNat (k - fxBits)

/-- `flg2`. -/
def f32Lg2 (x : Word) : Word × BitVec 5 :=
  match fval x with
  | .nan s => quieted s
  | .inf n => if n then invalid else (BitVec.ofNat 32 fp32.limit, 0#5)
  | .fin n m e =>
    if m = 0 then infDz true
    else if n then invalid
    else
      match exactPow2 m e with
      | some k => (intToF32 .rne false (BitVec.ofInt 32 k)).1 |> fun w => (w, 0#5)
      | none =>
        let k := e + (bitLen m : Int) - 1
        let y := m * 2 ^ (fxBits + 1 - bitLen m)
        let v : Int := k * 2 ^ 200 + fxLog2 y 200
        approxMag 7 x 2 (decide (v < 0)) v.natAbs (-200)

/-- The magnitude of an angle reduced: the quadrant and the rest, at most an eighth of the circle to either side. -/
def reduceAngle (m : Nat) (e : Int) : Int × Int :=
  let v := fxOf false m e
  let q := (2 * v + fxPi / 2) / fxPi
  (q % 4, v - q * fxPi / 2)

/-- `fsin`: odd, so of the magnitude, with the sign of the angle. -/
def f32Sin (x : Word) : Word × BitVec 5 :=
  match fval x with
  | .nan s => quieted s
  | .inf _ => invalid
  | .fin n m e =>
    if m = 0 then (x, 0#5)
    else
      let r := reduceAngle m e
      let v := if r.1 = 0 then fxSin r.2 else if r.1 = 1 then fxCos r.2 else if r.1 = 2 then -(fxSin r.2) else -(fxCos r.2)
      approxFx 8 x (if n then -v else v)

/-- `fcos`: even, so of the magnitude. -/
def f32Cos (x : Word) : Word × BitVec 5 :=
  match fval x with
  | .nan s => quieted s
  | .inf _ => invalid
  | .fin _ m e =>
    if m = 0 then (0x3F800000#32, 0#5)
    else
      let r := reduceAngle m e
      approxFx 9 x (if r.1 = 0 then fxCos r.2 else if r.1 = 1 then -(fxSin r.2)
        else if r.1 = 2 then -(fxCos r.2) else fxSin r.2)

end Sys2Proof.Machine
end

