-- ==== Sys2Proof/WellFormed.lean ====
section
/-! DEFINITION. Which terms of `Instr` are instructions: what the encodings of R20-R44 admit, and for an event the
numbers of the units it names (R7). An operand that the encoding admits and the instruction does not accept is
well formed here: it raises ILLEGAL_OPERAND when it issues. -/

namespace Sys2Proof

/-- The offset field 0b10_0000 announces a literal and is no offset of its own (R22). -/
def MOff.wf : MOff → Bool
  | .units c => c != 32#6
  | .lit _ => true

/-- A destination code of 255 names no destination (R28). -/
def UOp.dstWf : UOp → Bool
  | .lit _ => false
  | _ => true

/-- A load of `zero` is the prefetch (R26), so it is no load. -/
def LOp.loadWf : LOp → Bool
  | .zero => false
  | _ => true

/-- Lane numbers of a crew (R50). -/
def laneWf (l : Nat) : Bool := l < 32
/-- Core numbers of the device (R7). -/
def coreWf (c : Nat) : Bool := c < 576
/-- Cluster numbers of the device (R7). -/
def clusterWf (c : Nat) : Bool := c < 48
/-- Island numbers (R6). -/
def islandWf (i : Nat) : Bool := i < 4
/-- Partition numbers (R317). -/
def partWf (p : Nat) : Bool := p < 8

/-- A term of `Instr` that stands for an instruction word or for an event of a unit that exists. -/
def Instr.wf : Instr → Bool
  | .add _ _ _ _ => true
  | .addSat _ _ _ _ => true
  | .sub _ _ _ _ => true
  | .subSat _ _ _ _ => true
  | .mul _ _ _ _ => true
  | .mulhS _ _ _ _ => true
  | .mulhU _ _ _ _ => true
  | .mulwS _ _ _ _ => true
  | .mulwU _ _ _ _ => true
  | .mad _ _ _ _ => true
  | .add64 _ _ _ _ => true
  | .sub64 _ _ _ _ => true
  | .and _ _ _ _ => true
  | .or _ _ _ _ => true
  | .xor _ _ _ _ => true
  | .andn _ _ _ _ => true
  | .shl _ _ _ _ => true
  | .shr _ _ _ _ => true
  | .sar _ _ _ _ => true
  | .rotl _ _ _ _ => true
  | .clz _ _ _ => true
  | .popc _ _ _ => true
  | .brev _ _ _ => true
  | .bfeU _ _ _ _ => true
  | .bfeS _ _ _ _ => true
  | .bfi _ _ _ _ => true
  | .minS _ _ _ _ => true
  | .minU _ _ _ _ => true
  | .maxS _ _ _ _ => true
  | .maxU _ _ _ _ => true
  | .cmpEq _ _ _ _ => true
  | .cmpNe _ _ _ _ => true
  | .cmpLtS _ _ _ _ => true
  | .cmpLeS _ _ _ _ => true
  | .cmpLtU _ _ _ _ => true
  | .cmpLeU _ _ _ _ => true
  | .sel _ _ _ _ => true
  | .mov _ _ _ => true
  | .movl _ _ _ => true
  | .lea _ _ _ _ => true
  | .prmt _ _ _ _ => true
  | .udiv _ _ _ _ => true
  | .sdiv _ _ _ _ => true
  | .urem _ _ _ _ => true
  | .srem _ _ _ _ => true
  | .pand _ _ _ _ => true
  | .por _ _ _ _ => true
  | .pxor _ _ _ _ => true
  | .fadd _ _ _ _ => true
  | .faddRz _ _ _ _ => true
  | .faddRd _ _ _ _ => true
  | .faddRu _ _ _ _ => true
  | .fsub _ _ _ _ => true
  | .fsubRz _ _ _ _ => true
  | .fsubRd _ _ _ _ => true
  | .fsubRu _ _ _ _ => true
  | .fmul _ _ _ _ => true
  | .fmulRz _ _ _ _ => true
  | .fmulRd _ _ _ _ => true
  | .fmulRu _ _ _ _ => true
  | .ffma _ _ _ _ => true
  | .ffmaRz _ _ _ _ => true
  | .ffmaRd _ _ _ _ => true
  | .ffmaRu _ _ _ _ => true
  | .fmin _ _ _ _ => true
  | .fmax _ _ _ _ => true
  | .fcmpEq _ _ _ _ => true
  | .fcmpLt _ _ _ _ => true
  | .fcmpLe _ _ _ _ => true
  | .fcmpUn _ _ _ _ => true
  | .fclass _ _ _ => true
  | .frcp _ _ _ => true
  | .frsq _ _ _ => true
  | .fsqrt _ _ _ => true
  | .fsqrtRz _ _ _ => true
  | .fsqrtRd _ _ _ => true
  | .fsqrtRu _ _ _ => true
  | .fex2 _ _ _ => true
  | .flg2 _ _ _ => true
  | .fsin _ _ _ => true
  | .fcos _ _ _ => true
  | .fdivFull _ _ _ _ => true
  | .fdivFullRz _ _ _ _ => true
  | .fdivFullRd _ _ _ _ => true
  | .fdivFullRu _ _ _ _ => true
  | .hadd2 _ _ _ _ => true
  | .hmul2 _ _ _ _ => true
  | .hfma2 _ _ _ _ => true
  | .cvtf _ _ _ _ _ _ => true
  | .cvtfW _ _ _ _ => true
  | .cvti _ _ _ _ _ => true
  | .cvfi _ _ _ _ _ => true
  | .qnt _ _ _ _ => true
  | .dqnt _ _ _ _ => true
  | .pk4 _ _ _ _ _ _ => true
  | .upk _ _ _ _ => true
  | .dp4S _ _ _ _ => true
  | .dp4U _ _ _ _ => true
  | .fdp4E4m3 _ _ _ _ => true
  | .fdp4E5m2 _ _ _ _ => true
  | .fdp4B8 _ _ _ _ => true
  | .ldgB8 _ d _ _ off => d.loadWf && off.wf
  | .ldgB16 _ d _ _ off => d.loadWf && off.wf
  | .ldgB32 _ d _ _ off => d.loadWf && off.wf
  | .ldgB64 _ d _ _ off => d.loadWf && off.wf
  | .ldgB128 _ d _ _ off => d.loadWf && off.wf
  | .pfl2 _ _ off => off.wf
  | .stgB8 _ _ _ _ off => off.wf
  | .stgB16 _ _ _ _ off => off.wf
  | .stgB32 _ _ _ _ off => off.wf
  | .stgB64 _ _ _ _ off => off.wf
  | .stgB128 _ _ _ _ off => off.wf
  | .ldsB8 _ _ _ off => off.wf
  | .ldsB16 _ _ _ off => off.wf
  | .ldsB32 _ _ _ off => off.wf
  | .ldsB64 _ _ _ off => off.wf
  | .ldsB128 _ _ _ off => off.wf
  | .ldpB32 _ _ _ off => off.wf
  | .ldpB64 _ _ _ off => off.wf
  | .ldpB128 _ _ _ off => off.wf
  | .stsB8 _ _ _ off => off.wf
  | .stsB16 _ _ _ off => off.wf
  | .stsB32 _ _ _ off => off.wf
  | .stsB64 _ _ _ off => off.wf
  | .stsB128 _ _ _ off => off.wf
  | .stpB32 _ _ _ off => off.wf
  | .stpB64 _ _ _ off => off.wf
  | .stpB128 _ _ _ off => off.wf
  | .atsAdd _ _ _ => true
  | .atsMinS _ _ _ => true
  | .atsMaxS _ _ _ => true
  | .atsMinU _ _ _ => true
  | .atsMaxU _ _ _ => true
  | .atsAnd _ _ _ => true
  | .atsOr _ _ _ => true
  | .atsXor _ _ _ => true
  | .atsExch _ _ _ => true
  | .atsCas _ _ _ => true
  | .atsFadd _ _ => true
  | .atgAdd _ _ _ _ => true
  | .atgMinS _ _ _ _ => true
  | .atgMaxS _ _ _ _ => true
  | .atgMinU _ _ _ _ => true
  | .atgMaxU _ _ _ _ => true
  | .atgAnd _ _ _ _ => true
  | .atgOr _ _ _ _ => true
  | .atgXor _ _ _ _ => true
  | .atgExch _ _ _ _ => true
  | .atgCas _ _ _ _ => true
  | .atgFadd _ _ _ => true
  | .ldga _ _ _ _ => true
  | .redgAdd _ _ _ _ => true
  | .redgMinS _ _ _ _ => true
  | .redgMaxS _ _ _ _ => true
  | .redgMinU _ _ _ _ => true
  | .redgMaxU _ _ _ _ => true
  | .redgAnd _ _ _ _ => true
  | .redgOr _ _ _ _ => true
  | .redgXor _ _ _ _ => true
  | .redgFadd _ _ _ => true
  | .stgr _ _ _ _ => true
  | .fence _ => true
  | .fenceLd _ => true
  | .fenceSt _ => true
  | .bra _ _ _ _ => true
  | .call _ _ _ => true
  | .ret _ => true
  | .exitThread => true
  | .rfl _ _ => true
  | .actm _ => true
  | .voteAny _ _ => true
  | .voteAll _ _ => true
  | .voteBallot _ _ => true
  | .matchLanes _ _ => true
  | .cmpct _ _ => true
  | .gsr _ _ => true
  | .shfl _ _ _ => true
  | .shflXor _ _ _ => true
  | .nap _ => true
  | .pcfg _ _ => true
  | .pcnt _ _ => true
  | .ppk _ _ => true
  | .pfls _ _ => true
  | .psts _ _ => true
  | .xld _ _ _ => true
  | .xdeal _ => true
  | .xredAdd _ _ => true
  | .xredFadd _ _ => true
  | .xredMin _ _ => true
  | .xredMax _ _ => true
  | .xend _ => true
  | .xst _ => true
  | .pldrB32 _ _ _ => true
  | .pldrB64 _ _ _ => true
  | .pldrB128 _ _ _ => true
  | .pret _ _ => true
  | .sadd d _ _ => d.dstWf
  | .saddSat d _ _ => d.dstWf
  | .ssub d _ _ => d.dstWf
  | .ssubSat d _ _ => d.dstWf
  | .smul d _ _ => d.dstWf
  | .smulhS d _ _ => d.dstWf
  | .smulhU d _ _ => d.dstWf
  | .smulwS d _ _ => d.dstWf
  | .smulwU d _ _ => d.dstWf
  | .smad d _ _ => d.dstWf
  | .sadd64 d _ _ => d.dstWf
  | .ssub64 d _ _ => d.dstWf
  | .sand d _ _ => d.dstWf
  | .sor d _ _ => d.dstWf
  | .sxor d _ _ => d.dstWf
  | .sandn d _ _ => d.dstWf
  | .sshl d _ _ => d.dstWf
  | .sshr d _ _ => d.dstWf
  | .ssar d _ _ => d.dstWf
  | .srotl d _ _ => d.dstWf
  | .sclz d _ => d.dstWf
  | .spopc d _ => d.dstWf
  | .sbrev d _ => d.dstWf
  | .sbfeU d _ _ => d.dstWf
  | .sbfeS d _ _ => d.dstWf
  | .sbfi d _ _ => d.dstWf
  | .sminS d _ _ => d.dstWf
  | .sminU d _ _ => d.dstWf
  | .smaxS d _ _ => d.dstWf
  | .smaxU d _ _ => d.dstWf
  | .scmpEq d _ _ => d.dstWf
  | .scmpNe d _ _ => d.dstWf
  | .scmpLtS d _ _ => d.dstWf
  | .scmpLeS d _ _ => d.dstWf
  | .scmpLtU d _ _ => d.dstWf
  | .scmpLeU d _ _ => d.dstWf
  | .ssel d _ _ => d.dstWf
  | .smov d _ => d.dstWf
  | .slea d _ _ => d.dstWf
  | .sudiv d _ _ => d.dstWf
  | .ssdiv d _ _ => d.dstWf
  | .surem d _ _ => d.dstWf
  | .ssrem d _ _ => d.dstWf
  | .skand d _ _ => d.dstWf
  | .skor d _ _ => d.dstWf
  | .skxor d _ _ => d.dstWf
  | .sldgB32 d _ _ => d.dstWf
  | .sldgB64 d _ _ => d.dstWf
  | .sldsB32 d _ _ => d.dstWf
  | .sldsB64 d _ _ => d.dstWf
  | .scpy d _ _ => d.dstWf
  | .sfil d _ _ => d.dstWf
  | .tdef d _ _ => d.dstWf
  | .txrd d _ _ => d.dstWf
  | .tfree d _ => d.dstWf
  | .cpy d _ => d.dstWf
  | .cpyt d _ => d.dstWf
  | .cpym d _ => d.dstWf
  | .cpyst d => d.dstWf
  | .mma d _ => d.dstWf
  | .mmsp d _ => d.dstWf
  | .mzero d _ => d.dstWf
  | .mld d _ => d.dstWf
  | .mst d _ => d.dstWf
  | .madd d _ => d.dstWf
  | .mpred d _ _ => d.dstWf
  | .btnTake d => d.dstWf
  | .btnPass d => d.dstWf
  | .btnPassRelease d => d.dstWf
  | .btnQuery d => d.dstWf
  | .bisx d _ _ => d.dstWf
  | .plnch d _ => d.dstWf
  | .cins d _ => d.dstWf
  | .cinsFirst d _ => d.dstWf
  | .cfind d _ _ => d.dstWf
  | .cclr d _ => d.dstWf
  | .ltset _ _ => true
  | .ltinc _ _ => true
  | .ltcap _ _ => true
  | .ltdrop _ _ => true
  | .ftwait _ _ _ => true
  | .ftpoll d _ => d.dstWf
  | .ltsum d _ _ => d.dstWf
  | .lnch d _ => d.dstWf
  | .qpush d _ _ => d.dstWf
  | .qpull d _ => d.dstWf
  | .amsg d _ => d.dstWf
  | .jmp _ => true
  | .bar => true
  | .trap _ => true
  | .brk => true
  | .ssr _ _ => true
  | .sretResume => true
  | .sretSkip => true
  | .rplyReplayAll d => d.dstWf
  | .rplyEndEntry d _ => d.dstWf
  | .tlbi d _ _ => d.dstWf
  | .flt d _ _ => d.dstWf
  | .ctxs d _ _ => d.dstWf
  | .selection _ => true
  | .clauseFetchDone _ => true
  | .starvationPromotion _ lane => laneWf lane
  | .joinHoldEnd _ => true
  | .napExpiry _ lane => laneWf lane
  | .squadRetire _ => true
  | .squadPlaced _ core => coreWf core
  | .regmissFetchDone _ => true
  | .evictionWriteback core slot => coreWf core && decide (slot < 16)
  | .loadDataLands _ => true
  | .storeApplied _ => true
  | .writeApplyRemoteView _ => true
  | .globalAtomicPerform _ => true
  | .localAccessComplete _ => true
  | .uniformLoadLands _ => true
  | .fenceRelease _ => true
  | .portEntryLands _ => true
  | .portCreditReturn _ => true
  | .portStall _ lane => laneWf lane
  | .matrixJobStart core => coreWf core
  | .matrixJobComplete core => coreWf core
  | .engineRelease core => coreWf core
  | .copyJobStart _ => true
  | .copyJobComplete _ => true
  | .multicastLanding _ _ => true
  | .cinsJobComplete _ => true
  | .cfindComplete _ => true
  | .cclrComplete _ => true
  | .bisxComplete _ => true
  | .cpystComplete _ => true
  | .ftpollComplete _ => true
  | .capabilityDrop _ => true
  | .capabilityHandoff _ => true
  | .countReport core => coreWf core
  | .frontierAnnounce _ stage core => decide (stage < 16) && coreWf core
  | .pairEnumerationStart core => coreWf core
  | .pairCrewStart core => coreWf core
  | .pairRetire core => coreWf core
  | .pairRemoteHalf _ => true
  | .pairAcknowledge _ => true
  | .plnchComplete _ => true
  | .preEmption _ => true
  | .priorityPreEmption _ => true
  | .squadRestore _ core => coreWf core
  | .pageWalk _ => true
  | .permitBackoffExpiry _ lane => laneWf lane
  | .faultListWrite _ => true
  | .trapDelivery _ lane => laneWf lane
  | .tlbiDone _ => true
  | .taskFailure _ => true
  | .stealRequest _ _ => true
  | .stealReply _ => true
  | .stealAcknowledge _ => true
  | .stealConfirm _ => true
  | .stealReclaim _ => true
  | .coreReset core => coreWf core
  | .qpullEntryArrives _ => true
  | .quiescence _ => true
  | .messageArrival _ => true
  | .messageHandlerStart core => coreWf core
  | .launchAcceptance _ => true
  | .distributorBinding _ => true
  | .squadSteal _ thief => coreWf thief
  | .launchEnd _ => true
  | .sampleTimer core => coreWf core
  | .submissionDoorbell part queue _ => partWf part && decide (queue < 8)
  | .queueConfigWrite part queue _ _ => partWf part && decide (queue < 8)
  | .qerrClear part queue => partWf part && decide (queue < 8)
  | .replayRegister cluster => clusterWf cluster
  | .replayEndEntryRegister cluster _ => clusterWf cluster
  | .startRegister part _ => partWf part
  | .hostCtxsRegister part _ _ => partWf part
  | .counterLowRead part counter => partWf part && decide (counter < 10)
  | .registerWrite part _ _ => partWf part
  | .hostMemoryWrite _ _ => true
  | .hostAtomicOp _ _ _ _ _ => true
  | .attestationRequest _ => true
  | .powerCapSet _ => true
  | .clockThrottle island _ => islandWf island
  | .moduleReset _ _ => true
  | .partitionSetup part _ _ _ => partWf part
  | .uncorrectableError _ => true
  | .linkTraining link _ _ => decide (link < 6)
  | .powerLoss => true
  | .powerGating core _ => coreWf core

/-- The instruction is a word of the lane or uniform set, not an event. -/
def Instr.isWord : Instr → Bool
  | .add _ _ _ _ => true
  | .addSat _ _ _ _ => true
  | .sub _ _ _ _ => true
  | .subSat _ _ _ _ => true
  | .mul _ _ _ _ => true
  | .mulhS _ _ _ _ => true
  | .mulhU _ _ _ _ => true
  | .mulwS _ _ _ _ => true
  | .mulwU _ _ _ _ => true
  | .mad _ _ _ _ => true
  | .add64 _ _ _ _ => true
  | .sub64 _ _ _ _ => true
  | .and _ _ _ _ => true
  | .or _ _ _ _ => true
  | .xor _ _ _ _ => true
  | .andn _ _ _ _ => true
  | .shl _ _ _ _ => true
  | .shr _ _ _ _ => true
  | .sar _ _ _ _ => true
  | .rotl _ _ _ _ => true
  | .clz _ _ _ => true
  | .popc _ _ _ => true
  | .brev _ _ _ => true
  | .bfeU _ _ _ _ => true
  | .bfeS _ _ _ _ => true
  | .bfi _ _ _ _ => true
  | .minS _ _ _ _ => true
  | .minU _ _ _ _ => true
  | .maxS _ _ _ _ => true
  | .maxU _ _ _ _ => true
  | .cmpEq _ _ _ _ => true
  | .cmpNe _ _ _ _ => true
  | .cmpLtS _ _ _ _ => true
  | .cmpLeS _ _ _ _ => true
  | .cmpLtU _ _ _ _ => true
  | .cmpLeU _ _ _ _ => true
  | .sel _ _ _ _ => true
  | .mov _ _ _ => true
  | .movl _ _ _ => true
  | .lea _ _ _ _ => true
  | .prmt _ _ _ _ => true
  | .udiv _ _ _ _ => true
  | .sdiv _ _ _ _ => true
  | .urem _ _ _ _ => true
  | .srem _ _ _ _ => true
  | .pand _ _ _ _ => true
  | .por _ _ _ _ => true
  | .pxor _ _ _ _ => true
  | .fadd _ _ _ _ => true
  | .faddRz _ _ _ _ => true
  | .faddRd _ _ _ _ => true
  | .faddRu _ _ _ _ => true
  | .fsub _ _ _ _ => true
  | .fsubRz _ _ _ _ => true
  | .fsubRd _ _ _ _ => true
  | .fsubRu _ _ _ _ => true
  | .fmul _ _ _ _ => true
  | .fmulRz _ _ _ _ => true
  | .fmulRd _ _ _ _ => true
  | .fmulRu _ _ _ _ => true
  | .ffma _ _ _ _ => true
  | .ffmaRz _ _ _ _ => true
  | .ffmaRd _ _ _ _ => true
  | .ffmaRu _ _ _ _ => true
  | .fmin _ _ _ _ => true
  | .fmax _ _ _ _ => true
  | .fcmpEq _ _ _ _ => true
  | .fcmpLt _ _ _ _ => true
  | .fcmpLe _ _ _ _ => true
  | .fcmpUn _ _ _ _ => true
  | .fclass _ _ _ => true
  | .frcp _ _ _ => true
  | .frsq _ _ _ => true
  | .fsqrt _ _ _ => true
  | .fsqrtRz _ _ _ => true
  | .fsqrtRd _ _ _ => true
  | .fsqrtRu _ _ _ => true
  | .fex2 _ _ _ => true
  | .flg2 _ _ _ => true
  | .fsin _ _ _ => true
  | .fcos _ _ _ => true
  | .fdivFull _ _ _ _ => true
  | .fdivFullRz _ _ _ _ => true
  | .fdivFullRd _ _ _ _ => true
  | .fdivFullRu _ _ _ _ => true
  | .hadd2 _ _ _ _ => true
  | .hmul2 _ _ _ _ => true
  | .hfma2 _ _ _ _ => true
  | .cvtf _ _ _ _ _ _ => true
  | .cvtfW _ _ _ _ => true
  | .cvti _ _ _ _ _ => true
  | .cvfi _ _ _ _ _ => true
  | .qnt _ _ _ _ => true
  | .dqnt _ _ _ _ => true
  | .pk4 _ _ _ _ _ _ => true
  | .upk _ _ _ _ => true
  | .dp4S _ _ _ _ => true
  | .dp4U _ _ _ _ => true
  | .fdp4E4m3 _ _ _ _ => true
  | .fdp4E5m2 _ _ _ _ => true
  | .fdp4B8 _ _ _ _ => true
  | .ldgB8 _ _ _ _ _ => true
  | .ldgB16 _ _ _ _ _ => true
  | .ldgB32 _ _ _ _ _ => true
  | .ldgB64 _ _ _ _ _ => true
  | .ldgB128 _ _ _ _ _ => true
  | .pfl2 _ _ _ => true
  | .stgB8 _ _ _ _ _ => true
  | .stgB16 _ _ _ _ _ => true
  | .stgB32 _ _ _ _ _ => true
  | .stgB64 _ _ _ _ _ => true
  | .stgB128 _ _ _ _ _ => true
  | .ldsB8 _ _ _ _ => true
  | .ldsB16 _ _ _ _ => true
  | .ldsB32 _ _ _ _ => true
  | .ldsB64 _ _ _ _ => true
  | .ldsB128 _ _ _ _ => true
  | .ldpB32 _ _ _ _ => true
  | .ldpB64 _ _ _ _ => true
  | .ldpB128 _ _ _ _ => true
  | .stsB8 _ _ _ _ => true
  | .stsB16 _ _ _ _ => true
  | .stsB32 _ _ _ _ => true
  | .stsB64 _ _ _ _ => true
  | .stsB128 _ _ _ _ => true
  | .stpB32 _ _ _ _ => true
  | .stpB64 _ _ _ _ => true
  | .stpB128 _ _ _ _ => true
  | .atsAdd _ _ _ => true
  | .atsMinS _ _ _ => true
  | .atsMaxS _ _ _ => true
  | .atsMinU _ _ _ => true
  | .atsMaxU _ _ _ => true
  | .atsAnd _ _ _ => true
  | .atsOr _ _ _ => true
  | .atsXor _ _ _ => true
  | .atsExch _ _ _ => true
  | .atsCas _ _ _ => true
  | .atsFadd _ _ => true
  | .atgAdd _ _ _ _ => true
  | .atgMinS _ _ _ _ => true
  | .atgMaxS _ _ _ _ => true
  | .atgMinU _ _ _ _ => true
  | .atgMaxU _ _ _ _ => true
  | .atgAnd _ _ _ _ => true
  | .atgOr _ _ _ _ => true
  | .atgXor _ _ _ _ => true
  | .atgExch _ _ _ _ => true
  | .atgCas _ _ _ _ => true
  | .atgFadd _ _ _ => true
  | .ldga _ _ _ _ => true
  | .redgAdd _ _ _ _ => true
  | .redgMinS _ _ _ _ => true
  | .redgMaxS _ _ _ _ => true
  | .redgMinU _ _ _ _ => true
  | .redgMaxU _ _ _ _ => true
  | .redgAnd _ _ _ _ => true
  | .redgOr _ _ _ _ => true
  | .redgXor _ _ _ _ => true
  | .redgFadd _ _ _ => true
  | .stgr _ _ _ _ => true
  | .fence _ => true
  | .fenceLd _ => true
  | .fenceSt _ => true
  | .bra _ _ _ _ => true
  | .call _ _ _ => true
  | .ret _ => true
  | .exitThread => true
  | .rfl _ _ => true
  | .actm _ => true
  | .voteAny _ _ => true
  | .voteAll _ _ => true
  | .voteBallot _ _ => true
  | .matchLanes _ _ => true
  | .cmpct _ _ => true
  | .gsr _ _ => true
  | .shfl _ _ _ => true
  | .shflXor _ _ _ => true
  | .nap _ => true
  | .pcfg _ _ => true
  | .pcnt _ _ => true
  | .ppk _ _ => true
  | .pfls _ _ => true
  | .psts _ _ => true
  | .xld _ _ _ => true
  | .xdeal _ => true
  | .xredAdd _ _ => true
  | .xredFadd _ _ => true
  | .xredMin _ _ => true
  | .xredMax _ _ => true
  | .xend _ => true
  | .xst _ => true
  | .pldrB32 _ _ _ => true
  | .pldrB64 _ _ _ => true
  | .pldrB128 _ _ _ => true
  | .pret _ _ => true
  | .sadd _ _ _ => true
  | .saddSat _ _ _ => true
  | .ssub _ _ _ => true
  | .ssubSat _ _ _ => true
  | .smul _ _ _ => true
  | .smulhS _ _ _ => true
  | .smulhU _ _ _ => true
  | .smulwS _ _ _ => true
  | .smulwU _ _ _ => true
  | .smad _ _ _ => true
  | .sadd64 _ _ _ => true
  | .ssub64 _ _ _ => true
  | .sand _ _ _ => true
  | .sor _ _ _ => true
  | .sxor _ _ _ => true
  | .sandn _ _ _ => true
  | .sshl _ _ _ => true
  | .sshr _ _ _ => true
  | .ssar _ _ _ => true
  | .srotl _ _ _ => true
  | .sclz _ _ => true
  | .spopc _ _ => true
  | .sbrev _ _ => true
  | .sbfeU _ _ _ => true
  | .sbfeS _ _ _ => true
  | .sbfi _ _ _ => true
  | .sminS _ _ _ => true
  | .sminU _ _ _ => true
  | .smaxS _ _ _ => true
  | .smaxU _ _ _ => true
  | .scmpEq _ _ _ => true
  | .scmpNe _ _ _ => true
  | .scmpLtS _ _ _ => true
  | .scmpLeS _ _ _ => true
  | .scmpLtU _ _ _ => true
  | .scmpLeU _ _ _ => true
  | .ssel _ _ _ => true
  | .smov _ _ => true
  | .slea _ _ _ => true
  | .sudiv _ _ _ => true
  | .ssdiv _ _ _ => true
  | .surem _ _ _ => true
  | .ssrem _ _ _ => true
  | .skand _ _ _ => true
  | .skor _ _ _ => true
  | .skxor _ _ _ => true
  | .sldgB32 _ _ _ => true
  | .sldgB64 _ _ _ => true
  | .sldsB32 _ _ _ => true
  | .sldsB64 _ _ _ => true
  | .scpy _ _ _ => true
  | .sfil _ _ _ => true
  | .tdef _ _ _ => true
  | .txrd _ _ _ => true
  | .tfree _ _ => true
  | .cpy _ _ => true
  | .cpyt _ _ => true
  | .cpym _ _ => true
  | .cpyst _ => true
  | .mma _ _ => true
  | .mmsp _ _ => true
  | .mzero _ _ => true
  | .mld _ _ => true
  | .mst _ _ => true
  | .madd _ _ => true
  | .mpred _ _ _ => true
  | .btnTake _ => true
  | .btnPass _ => true
  | .btnPassRelease _ => true
  | .btnQuery _ => true
  | .bisx _ _ _ => true
  | .plnch _ _ => true
  | .cins _ _ => true
  | .cinsFirst _ _ => true
  | .cfind _ _ _ => true
  | .cclr _ _ => true
  | .ltset _ _ => true
  | .ltinc _ _ => true
  | .ltcap _ _ => true
  | .ltdrop _ _ => true
  | .ftwait _ _ _ => true
  | .ftpoll _ _ => true
  | .ltsum _ _ _ => true
  | .lnch _ _ => true
  | .qpush _ _ _ => true
  | .qpull _ _ => true
  | .amsg _ _ => true
  | .jmp _ => true
  | .bar => true
  | .trap _ => true
  | .brk => true
  | .ssr _ _ => true
  | .sretResume => true
  | .sretSkip => true
  | .rplyReplayAll _ => true
  | .rplyEndEntry _ _ => true
  | .tlbi _ _ _ => true
  | .flt _ _ _ => true
  | .ctxs _ _ _ => true
  | .selection _ => false
  | .clauseFetchDone _ => false
  | .starvationPromotion _ _ => false
  | .joinHoldEnd _ => false
  | .napExpiry _ _ => false
  | .squadRetire _ => false
  | .squadPlaced _ _ => false
  | .regmissFetchDone _ => false
  | .evictionWriteback _ _ => false
  | .loadDataLands _ => false
  | .storeApplied _ => false
  | .writeApplyRemoteView _ => false
  | .globalAtomicPerform _ => false
  | .localAccessComplete _ => false
  | .uniformLoadLands _ => false
  | .fenceRelease _ => false
  | .portEntryLands _ => false
  | .portCreditReturn _ => false
  | .portStall _ _ => false
  | .matrixJobStart _ => false
  | .matrixJobComplete _ => false
  | .engineRelease _ => false
  | .copyJobStart _ => false
  | .copyJobComplete _ => false
  | .multicastLanding _ _ => false
  | .cinsJobComplete _ => false
  | .cfindComplete _ => false
  | .cclrComplete _ => false
  | .bisxComplete _ => false
  | .cpystComplete _ => false
  | .ftpollComplete _ => false
  | .capabilityDrop _ => false
  | .capabilityHandoff _ => false
  | .countReport _ => false
  | .frontierAnnounce _ _ _ => false
  | .pairEnumerationStart _ => false
  | .pairCrewStart _ => false
  | .pairRetire _ => false
  | .pairRemoteHalf _ => false
  | .pairAcknowledge _ => false
  | .plnchComplete _ => false
  | .preEmption _ => false
  | .priorityPreEmption _ => false
  | .squadRestore _ _ => false
  | .pageWalk _ => false
  | .permitBackoffExpiry _ _ => false
  | .faultListWrite _ => false
  | .trapDelivery _ _ => false
  | .tlbiDone _ => false
  | .taskFailure _ => false
  | .stealRequest _ _ => false
  | .stealReply _ => false
  | .stealAcknowledge _ => false
  | .stealConfirm _ => false
  | .stealReclaim _ => false
  | .coreReset _ => false
  | .qpullEntryArrives _ => false
  | .quiescence _ => false
  | .messageArrival _ => false
  | .messageHandlerStart _ => false
  | .launchAcceptance _ => false
  | .distributorBinding _ => false
  | .squadSteal _ _ => false
  | .launchEnd _ => false
  | .sampleTimer _ => false
  | .submissionDoorbell _ _ _ => false
  | .queueConfigWrite _ _ _ _ => false
  | .qerrClear _ _ => false
  | .replayRegister _ => false
  | .replayEndEntryRegister _ _ => false
  | .startRegister _ _ => false
  | .hostCtxsRegister _ _ _ => false
  | .counterLowRead _ _ => false
  | .registerWrite _ _ _ => false
  | .hostMemoryWrite _ _ => false
  | .hostAtomicOp _ _ _ _ _ => false
  | .attestationRequest _ => false
  | .powerCapSet _ => false
  | .clockThrottle _ _ => false
  | .moduleReset _ _ => false
  | .partitionSetup _ _ _ _ => false
  | .uncorrectableError _ => false
  | .linkTraining _ _ _ => false
  | .powerLoss => false
  | .powerGating _ _ => false

end Sys2Proof
end

