-- ==== Sys2Proof/Decode.lean ====
section
/-! DEFINITION. The decoder and the encoder of the two instruction word sets (R20-R44), written from the opcode maps
R39, R40 and the function fields R44. The decoder is total: a list of clause words gives an instruction and the number
of words it takes, or the reason it is none. -/

namespace Sys2Proof

/-- Why the words at a PC are no instruction; the cause that issuing them raises. -/
inductive DecodeError
  /-- No word is left in the clause. -/
  | noWord
  /-- An unassigned opcode: ILLEGAL_OP (R41). -/
  | unassigned
  /-- A literal beyond the clause's last word: ILLEGAL_OP (R20, R28). -/
  | noLiteral
  /-- A field that the instruction's encoding does not admit: ILLEGAL_OPERAND (R22-R28, R33, R35, R44). -/
  | badField
deriving DecidableEq, Repr

/-! ### Operand codes -/

/-- The port of a selector 0-4 (R161) and of the codes 122-126 (R29). -/
def Port.ofSel (n : Nat) : Port :=
  if n = 0 then .east else if n = 1 then .west else if n = 2 then .north else if n = 3 then .south else .die

/-- The selector of a port (R161). -/
def Port.num : Port → Nat
  | .east => 0
  | .west => 1
  | .north => 2
  | .south => 3
  | .die => 4

/-- The lane operand of a 7-bit code (R29). -/
def LOp.ofCode (n : Nat) : LOp :=
  if h : n < 104 then .v ⟨n, h⟩
  else if h : n - 104 < 8 then .o ⟨n - 104, h⟩
  else if n = 112 then .q0
  else if n = 113 then .q1
  else if h : n - 114 < 6 then .p ⟨n - 114, h⟩
  else if n = 120 then .pt
  else if n = 121 then .lid
  else if n < 127 then .port (Port.ofSel (n - 122))
  else .zero

/-- The 7-bit code of a lane operand (R29). -/
def LOp.code : LOp → Nat
  | .v r => r.val
  | .o r => 104 + r.val
  | .q0 => 112
  | .q1 => 113
  | .p r => 114 + r.val
  | .pt => 120
  | .lid => 121
  | .port x => 122 + x.num
  | .zero => 127

/-- The 9-bit code of a b operand (R20). -/
def BOp.code : BOp → Nat
  | .lane x => x.code
  | .s r => 128 + r.val
  | .imm c => 288 + c.val
  | .lit _ => 511

/-- The literal words of a b operand. -/
def BOp.lits : BOp → List Word
  | .lit w => [w]
  | _ => []

/-- The b operand of a 9-bit code, with the words that follow the instruction word (R20). -/
def BOp.ofCode (n : Nat) (rest : List Word) : Except DecodeError BOp :=
  if n < 128 then .ok (.lane (LOp.ofCode n))
  else if h : n - 128 < 160 then .ok (.s ⟨n - 128, h⟩)
  else if h : n - 288 < 223 then .ok (.imm ⟨n - 288, h⟩)
  else match rest with
    | w :: _ => .ok (.lit w)
    | [] => .error .noLiteral

/-- The 8-bit code of a uniform operand (R28). -/
def UOp.code : UOp → Nat
  | .s r => r.val
  | .k r => 160 + r.val
  | .kt => 167
  | .zero => 168
  | .reserved r => 169 + r.val
  | .const c => 192 + c.val
  | .lit _ => 255

/-- The literal words of a uniform operand. -/
def UOp.lits : UOp → List Word
  | .lit w => [w]
  | _ => []

/-- The uniform operand of an 8-bit code; a code of 255 takes the literal `w` (R28). -/
def UOp.ofCode (n : Nat) (w : Option Word) : Except DecodeError UOp :=
  if h : n < 160 then .ok (.s ⟨n, h⟩)
  else if h : n - 160 < 7 then .ok (.k ⟨n - 160, h⟩)
  else if n = 167 then .ok .kt
  else if n = 168 then .ok .zero
  else if h : n - 169 < 23 then .ok (.reserved ⟨n - 169, h⟩)
  else if h : n - 192 < 63 then .ok (.const ⟨n - 192, h⟩)
  else match w with
    | some w => .ok (.lit w)
    | none => .error .noLiteral

/-- The offset of a 6-bit field (R22). -/
def MOff.ofCode (n : Nat) (rest : List Word) : Except DecodeError MOff :=
  if n = 32 then
    match rest with
    | w :: _ => .ok (.lit w)
    | [] => .error .noLiteral
  else .ok (.units (BitVec.ofNat 6 n))

/-- The 6-bit field of an offset (R22). -/
def MOff.code : MOff → Nat
  | .units c => c.toNat
  | .lit _ => 32

/-- The literal words of an offset. -/
def MOff.lits : MOff → List Word
  | .lit w => [w]
  | _ => []

/-- A field that the instruction does not use must hold its unused value (R33). -/
def fieldIs (n v : Nat) : Except DecodeError Unit := if n = v then .ok () else .error .badField

/-- The U bit of an opcode that does not take it (R35). -/
def noU (u : Bool) : Except DecodeError Unit := if u then .error .badField else .ok ()

/-- A 1-bit field as a condition. -/
def bit1 (n : Nat) : Bool := n % 2 = 1

/-! ### Encoding -/

/-- The number of a condition. -/
def Bool.bitNat (b : Bool) : Nat := if b then 1 else 0

/-- A lane word of R20. -/
def laneWord (op : Nat) (u : Bool) (d a b : Nat) : Word :=
  BitVec.ofNat 32 (op * 2 ^ 24 + Bool.bitNat u * 2 ^ 23 + d * 2 ^ 16 + a * 2 ^ 9 + b)

/-- A uniform word of R28. -/
def uniWord (op d a b : Nat) : Word :=
  BitVec.ofNat 32 (2 ^ 31 + op * 2 ^ 24 + d * 2 ^ 16 + a * 2 ^ 8 + b)

/-- The words of an instruction: its word and its literals. An event has none. -/
def encode : Instr → List Word
  | .add u d a b => laneWord 0 u d.code a.code b.code :: b.lits
  | .addSat u d a b => laneWord 1 u d.code a.code b.code :: b.lits
  | .sub u d a b => laneWord 2 u d.code a.code b.code :: b.lits
  | .subSat u d a b => laneWord 3 u d.code a.code b.code :: b.lits
  | .mul u d a b => laneWord 4 u d.code a.code b.code :: b.lits
  | .mulhS u d a b => laneWord 5 u d.code a.code b.code :: b.lits
  | .mulhU u d a b => laneWord 6 u d.code a.code b.code :: b.lits
  | .mulwS u d a b => laneWord 7 u d.code a.code b.code :: b.lits
  | .mulwU u d a b => laneWord 8 u d.code a.code b.code :: b.lits
  | .mad u d a b => laneWord 9 u d.code a.code b.code :: b.lits
  | .add64 u d a b => laneWord 10 u d.code a.code b.code :: b.lits
  | .sub64 u d a b => laneWord 11 u d.code a.code b.code :: b.lits
  | .and u d a b => laneWord 12 u d.code a.code b.code :: b.lits
  | .or u d a b => laneWord 13 u d.code a.code b.code :: b.lits
  | .xor u d a b => laneWord 14 u d.code a.code b.code :: b.lits
  | .andn u d a b => laneWord 15 u d.code a.code b.code :: b.lits
  | .shl u d a b => laneWord 16 u d.code a.code b.code :: b.lits
  | .shr u d a b => laneWord 17 u d.code a.code b.code :: b.lits
  | .sar u d a b => laneWord 18 u d.code a.code b.code :: b.lits
  | .rotl u d a b => laneWord 19 u d.code a.code b.code :: b.lits
  | .clz u d b => laneWord 20 u d.code 127 b.code :: b.lits
  | .popc u d b => laneWord 21 u d.code 127 b.code :: b.lits
  | .brev u d b => laneWord 22 u d.code 127 b.code :: b.lits
  | .bfeU u d a b => laneWord 23 u d.code a.code b.code :: b.lits
  | .bfeS u d a b => laneWord 24 u d.code a.code b.code :: b.lits
  | .bfi u d a b => laneWord 25 u d.code a.code b.code :: b.lits
  | .minS u d a b => laneWord 26 u d.code a.code b.code :: b.lits
  | .minU u d a b => laneWord 27 u d.code a.code b.code :: b.lits
  | .maxS u d a b => laneWord 28 u d.code a.code b.code :: b.lits
  | .maxU u d a b => laneWord 29 u d.code a.code b.code :: b.lits
  | .cmpEq u d a b => laneWord 30 u d.code a.code b.code :: b.lits
  | .cmpNe u d a b => laneWord 31 u d.code a.code b.code :: b.lits
  | .cmpLtS u d a b => laneWord 32 u d.code a.code b.code :: b.lits
  | .cmpLeS u d a b => laneWord 33 u d.code a.code b.code :: b.lits
  | .cmpLtU u d a b => laneWord 34 u d.code a.code b.code :: b.lits
  | .cmpLeU u d a b => laneWord 35 u d.code a.code b.code :: b.lits
  | .sel u d a b => laneWord 36 u d.code a.code b.code :: b.lits
  | .mov u d b => laneWord 37 u d.code 127 b.code :: b.lits
  | .movl u d b => laneWord 38 u d.code 127 b.code :: b.lits
  | .lea u d a b => laneWord 39 u d.code a.code b.code :: b.lits
  | .prmt u d a b => laneWord 40 u d.code a.code b.code :: b.lits
  | .udiv u d a b => laneWord 41 u d.code a.code b.code :: b.lits
  | .sdiv u d a b => laneWord 42 u d.code a.code b.code :: b.lits
  | .urem u d a b => laneWord 43 u d.code a.code b.code :: b.lits
  | .srem u d a b => laneWord 44 u d.code a.code b.code :: b.lits
  | .pand u d a b => laneWord 45 u d.code a.code b.code :: b.lits
  | .por u d a b => laneWord 46 u d.code a.code b.code :: b.lits
  | .pxor u d a b => laneWord 47 u d.code a.code b.code :: b.lits
  | .fadd u d a b => laneWord 48 u d.code a.code b.code :: b.lits
  | .faddRz u d a b => laneWord 49 u d.code a.code b.code :: b.lits
  | .faddRd u d a b => laneWord 50 u d.code a.code b.code :: b.lits
  | .faddRu u d a b => laneWord 51 u d.code a.code b.code :: b.lits
  | .fsub u d a b => laneWord 52 u d.code a.code b.code :: b.lits
  | .fsubRz u d a b => laneWord 53 u d.code a.code b.code :: b.lits
  | .fsubRd u d a b => laneWord 54 u d.code a.code b.code :: b.lits
  | .fsubRu u d a b => laneWord 55 u d.code a.code b.code :: b.lits
  | .fmul u d a b => laneWord 56 u d.code a.code b.code :: b.lits
  | .fmulRz u d a b => laneWord 57 u d.code a.code b.code :: b.lits
  | .fmulRd u d a b => laneWord 58 u d.code a.code b.code :: b.lits
  | .fmulRu u d a b => laneWord 59 u d.code a.code b.code :: b.lits
  | .ffma u d a b => laneWord 60 u d.code a.code b.code :: b.lits
  | .ffmaRz u d a b => laneWord 61 u d.code a.code b.code :: b.lits
  | .ffmaRd u d a b => laneWord 62 u d.code a.code b.code :: b.lits
  | .ffmaRu u d a b => laneWord 63 u d.code a.code b.code :: b.lits
  | .fmin u d a b => laneWord 64 u d.code a.code b.code :: b.lits
  | .fmax u d a b => laneWord 65 u d.code a.code b.code :: b.lits
  | .fcmpEq u d a b => laneWord 66 u d.code a.code b.code :: b.lits
  | .fcmpLt u d a b => laneWord 67 u d.code a.code b.code :: b.lits
  | .fcmpLe u d a b => laneWord 68 u d.code a.code b.code :: b.lits
  | .fcmpUn u d a b => laneWord 69 u d.code a.code b.code :: b.lits
  | .fclass u d b => laneWord 70 u d.code 127 b.code :: b.lits
  | .frcp u d b => laneWord 71 u d.code 0 b.code :: b.lits
  | .frsq u d b => laneWord 71 u d.code 1 b.code :: b.lits
  | .fsqrt u d b => laneWord 71 u d.code 2 b.code :: b.lits
  | .fsqrtRz u d b => laneWord 71 u d.code 3 b.code :: b.lits
  | .fsqrtRd u d b => laneWord 71 u d.code 4 b.code :: b.lits
  | .fsqrtRu u d b => laneWord 71 u d.code 5 b.code :: b.lits
  | .fex2 u d b => laneWord 71 u d.code 6 b.code :: b.lits
  | .flg2 u d b => laneWord 71 u d.code 7 b.code :: b.lits
  | .fsin u d b => laneWord 71 u d.code 8 b.code :: b.lits
  | .fcos u d b => laneWord 71 u d.code 9 b.code :: b.lits
  | .fdivFull u d a b => laneWord 72 u d.code a.code b.code :: b.lits
  | .fdivFullRz u d a b => laneWord 73 u d.code a.code b.code :: b.lits
  | .fdivFullRd u d a b => laneWord 74 u d.code a.code b.code :: b.lits
  | .fdivFullRu u d a b => laneWord 75 u d.code a.code b.code :: b.lits
  | .hadd2 u d a b => laneWord 76 u d.code a.code b.code :: b.lits
  | .hmul2 u d a b => laneWord 77 u d.code a.code b.code :: b.lits
  | .hfma2 u d a b => laneWord 78 u d.code a.code b.code :: b.lits
  | .cvtf u d rm nosat fmt b => laneWord 80 u d.code (rm.toNat * 32 + Bool.bitNat nosat * 16 + fmt.toNat) b.code :: b.lits
  | .cvtfW u d fmt b => laneWord 81 u d.code fmt.toNat b.code :: b.lits
  | .cvti u d rm uns b => laneWord 82 u d.code (rm.toNat * 32 + Bool.bitNat uns * 16) b.code :: b.lits
  | .cvfi u d rm uns b => laneWord 83 u d.code (rm.toNat * 32 + Bool.bitNat uns * 16) b.code :: b.lits
  | .qnt u d tx b => laneWord 84 u d.code tx.val b.code :: b.lits
  | .dqnt u d tx b => laneWord 85 u d.code tx.val b.code :: b.lits
  | .pk4 u d rm nosat fmt b => laneWord 86 u d.code (rm.toNat * 32 + Bool.bitNat nosat * 16 + fmt.toNat) b.code :: b.lits
  | .upk u d fmt b => laneWord 87 u d.code fmt.toNat b.code :: b.lits
  | .dp4S u d a b => laneWord 88 u d.code a.code b.code :: b.lits
  | .dp4U u d a b => laneWord 89 u d.code a.code b.code :: b.lits
  | .fdp4E4m3 u d a b => laneWord 90 u d.code a.code b.code :: b.lits
  | .fdp4E5m2 u d a b => laneWord 91 u d.code a.code b.code :: b.lits
  | .fdp4B8 u d a b => laneWord 92 u d.code a.code b.code :: b.lits
  | .ldgB8 u d a ord off => laneWord 96 u d.code a.code (ord.toNat * 64 + off.code) :: off.lits
  | .ldgB16 u d a ord off => laneWord 97 u d.code a.code (ord.toNat * 64 + off.code) :: off.lits
  | .ldgB32 u d a ord off => laneWord 98 u d.code a.code (ord.toNat * 64 + off.code) :: off.lits
  | .ldgB64 u d a ord off => laneWord 99 u d.code a.code (ord.toNat * 64 + off.code) :: off.lits
  | .ldgB128 u d a ord off => laneWord 100 u d.code a.code (ord.toNat * 64 + off.code) :: off.lits
  | .pfl2 width a off => laneWord (96 + width.val) false 127 a.code off.code :: off.lits
  | .stgB8 u d a ord off => laneWord 101 u d.code a.code (ord.toNat * 64 + off.code) :: off.lits
  | .stgB16 u d a ord off => laneWord 102 u d.code a.code (ord.toNat * 64 + off.code) :: off.lits
  | .stgB32 u d a ord off => laneWord 103 u d.code a.code (ord.toNat * 64 + off.code) :: off.lits
  | .stgB64 u d a ord off => laneWord 104 u d.code a.code (ord.toNat * 64 + off.code) :: off.lits
  | .stgB128 u d a ord off => laneWord 105 u d.code a.code (ord.toNat * 64 + off.code) :: off.lits
  | .ldsB8 u d a off => laneWord 106 u d.code a.code (off.code) :: off.lits
  | .ldsB16 u d a off => laneWord 106 u d.code a.code (64 + off.code) :: off.lits
  | .ldsB32 u d a off => laneWord 106 u d.code a.code (128 + off.code) :: off.lits
  | .ldsB64 u d a off => laneWord 106 u d.code a.code (192 + off.code) :: off.lits
  | .ldsB128 u d a off => laneWord 106 u d.code a.code (256 + off.code) :: off.lits
  | .ldpB32 u d a off => laneWord 106 u d.code a.code (320 + off.code) :: off.lits
  | .ldpB64 u d a off => laneWord 106 u d.code a.code (384 + off.code) :: off.lits
  | .ldpB128 u d a off => laneWord 106 u d.code a.code (448 + off.code) :: off.lits
  | .stsB8 u d a off => laneWord 107 u d.code a.code (off.code) :: off.lits
  | .stsB16 u d a off => laneWord 107 u d.code a.code (64 + off.code) :: off.lits
  | .stsB32 u d a off => laneWord 107 u d.code a.code (128 + off.code) :: off.lits
  | .stsB64 u d a off => laneWord 107 u d.code a.code (192 + off.code) :: off.lits
  | .stsB128 u d a off => laneWord 107 u d.code a.code (256 + off.code) :: off.lits
  | .stpB32 u d a off => laneWord 107 u d.code a.code (320 + off.code) :: off.lits
  | .stpB64 u d a off => laneWord 107 u d.code a.code (384 + off.code) :: off.lits
  | .stpB128 u d a off => laneWord 107 u d.code a.code (448 + off.code) :: off.lits
  | .atsAdd d a w => [laneWord 108 false d.code a.code (Bool.bitNat w * 32 + 0)]
  | .atsMinS d a w => [laneWord 108 false d.code a.code (Bool.bitNat w * 32 + 1)]
  | .atsMaxS d a w => [laneWord 108 false d.code a.code (Bool.bitNat w * 32 + 2)]
  | .atsMinU d a w => [laneWord 108 false d.code a.code (Bool.bitNat w * 32 + 3)]
  | .atsMaxU d a w => [laneWord 108 false d.code a.code (Bool.bitNat w * 32 + 4)]
  | .atsAnd d a w => [laneWord 108 false d.code a.code (Bool.bitNat w * 32 + 5)]
  | .atsOr d a w => [laneWord 108 false d.code a.code (Bool.bitNat w * 32 + 6)]
  | .atsXor d a w => [laneWord 108 false d.code a.code (Bool.bitNat w * 32 + 7)]
  | .atsExch d a w => [laneWord 108 false d.code a.code (Bool.bitNat w * 32 + 8)]
  | .atsCas d a w => [laneWord 108 false d.code a.code (Bool.bitNat w * 32 + 9)]
  | .atsFadd d a => [laneWord 108 false d.code a.code 10]
  | .atgAdd d a ord w => [laneWord 109 false d.code a.code (ord.toNat * 64 + Bool.bitNat w * 32 + 0)]
  | .atgMinS d a ord w => [laneWord 109 false d.code a.code (ord.toNat * 64 + Bool.bitNat w * 32 + 1)]
  | .atgMaxS d a ord w => [laneWord 109 false d.code a.code (ord.toNat * 64 + Bool.bitNat w * 32 + 2)]
  | .atgMinU d a ord w => [laneWord 109 false d.code a.code (ord.toNat * 64 + Bool.bitNat w * 32 + 3)]
  | .atgMaxU d a ord w => [laneWord 109 false d.code a.code (ord.toNat * 64 + Bool.bitNat w * 32 + 4)]
  | .atgAnd d a ord w => [laneWord 109 false d.code a.code (ord.toNat * 64 + Bool.bitNat w * 32 + 5)]
  | .atgOr d a ord w => [laneWord 109 false d.code a.code (ord.toNat * 64 + Bool.bitNat w * 32 + 6)]
  | .atgXor d a ord w => [laneWord 109 false d.code a.code (ord.toNat * 64 + Bool.bitNat w * 32 + 7)]
  | .atgExch d a ord w => [laneWord 109 false d.code a.code (ord.toNat * 64 + Bool.bitNat w * 32 + 8)]
  | .atgCas d a ord w => [laneWord 109 false d.code a.code (ord.toNat * 64 + Bool.bitNat w * 32 + 9)]
  | .atgFadd d a ord => [laneWord 109 false d.code a.code (ord.toNat * 64 + 10)]
  | .ldga d a ord w => [laneWord 109 false d.code a.code (ord.toNat * 64 + Bool.bitNat w * 32 + 11)]
  | .redgAdd d a ord w => [laneWord 110 false d.code a.code (ord.toNat * 64 + Bool.bitNat w * 32 + 0)]
  | .redgMinS d a ord w => [laneWord 110 false d.code a.code (ord.toNat * 64 + Bool.bitNat w * 32 + 1)]
  | .redgMaxS d a ord w => [laneWord 110 false d.code a.code (ord.toNat * 64 + Bool.bitNat w * 32 + 2)]
  | .redgMinU d a ord w => [laneWord 110 false d.code a.code (ord.toNat * 64 + Bool.bitNat w * 32 + 3)]
  | .redgMaxU d a ord w => [laneWord 110 false d.code a.code (ord.toNat * 64 + Bool.bitNat w * 32 + 4)]
  | .redgAnd d a ord w => [laneWord 110 false d.code a.code (ord.toNat * 64 + Bool.bitNat w * 32 + 5)]
  | .redgOr d a ord w => [laneWord 110 false d.code a.code (ord.toNat * 64 + Bool.bitNat w * 32 + 6)]
  | .redgXor d a ord w => [laneWord 110 false d.code a.code (ord.toNat * 64 + Bool.bitNat w * 32 + 7)]
  | .redgFadd d a ord => [laneWord 110 false d.code a.code (ord.toNat * 64 + 10)]
  | .stgr d a ord w => [laneWord 110 false d.code a.code (ord.toNat * 64 + Bool.bitNat w * 32 + 12)]
  | .fence scope => [laneWord 111 false 127 127 (scope.toNat * 64 + 0)]
  | .fenceLd scope => [laneWord 111 false 127 127 (scope.toNat * 64 + 1)]
  | .fenceSt scope => [laneWord 111 false 127 127 (scope.toNat * 64 + 2)]
  | .bra u c sense off => [BitVec.ofNat 32 (112 * 2 ^ 24 + Bool.bitNat u * 2 ^ 23 + c.code * 2 ^ 16 + Bool.bitNat sense * 2 ^ 15 + off.toNat)]
  | .call u c off => [BitVec.ofNat 32 (113 * 2 ^ 24 + Bool.bitNat u * 2 ^ 23 + c.code * 2 ^ 16 + Bool.bitNat false * 2 ^ 15 + off.toNat)]
  | .ret a => [laneWord 114 false 127 a.code 127]
  | .exitThread => [laneWord 115 false 127 127 127]
  | .rfl d b => laneWord 116 false d.code 0 b.code :: b.lits
  | .actm d => [laneWord 116 false d.code 1 127]
  | .voteAny d b => laneWord 116 false d.code 2 b.code :: b.lits
  | .voteAll d b => laneWord 116 false d.code 3 b.code :: b.lits
  | .voteBallot d b => laneWord 116 false d.code 4 b.code :: b.lits
  | .matchLanes d b => laneWord 116 false d.code 5 b.code :: b.lits
  | .cmpct d b => laneWord 116 false d.code 6 b.code :: b.lits
  | .gsr d num => [laneWord 116 false d.code 7 num.toNat]
  | .shfl d a b => laneWord 117 false d.code a.code b.code :: b.lits
  | .shflXor d a b => laneWord 118 false d.code a.code b.code :: b.lits
  | .nap b => laneWord 119 false 127 127 b.code :: b.lits
  | .pcfg d b => laneWord 120 false d.code 0 b.code :: b.lits
  | .pcnt d sel => [laneWord 120 false d.code 1 (320 + sel.toNat)]
  | .ppk d sel => [laneWord 120 false d.code 2 (320 + sel.toNat)]
  | .pfls d sel => [laneWord 120 false d.code 3 (320 + sel.toNat)]
  | .psts d sel => [laneWord 120 false d.code 4 (320 + sel.toNat)]
  | .xld d a b => laneWord 121 false d.code a.code b.code :: b.lits
  | .xdeal d => [laneWord 122 false d.code 127 127]
  | .xredAdd d b => laneWord 123 false d.code 0 b.code :: b.lits
  | .xredFadd d b => laneWord 123 false d.code 1 b.code :: b.lits
  | .xredMin d b => laneWord 123 false d.code 2 b.code :: b.lits
  | .xredMax d b => laneWord 123 false d.code 3 b.code :: b.lits
  | .xend d => [laneWord 124 false d.code 0 127]
  | .xst d => [laneWord 124 false d.code 1 127]
  | .pldrB32 d partner b => laneWord 125 false d.code (0 + Bool.bitNat partner) b.code :: b.lits
  | .pldrB64 d partner b => laneWord 125 false d.code (2 + Bool.bitNat partner) b.code :: b.lits
  | .pldrB128 d partner b => laneWord 125 false d.code (4 + Bool.bitNat partner) b.code :: b.lits
  | .pret a num => [laneWord 126 false 127 a.code (320 + num.toNat)]
  | .sadd d a b => uniWord 0 d.code a.code b.code :: (a.lits ++ b.lits)
  | .saddSat d a b => uniWord 1 d.code a.code b.code :: (a.lits ++ b.lits)
  | .ssub d a b => uniWord 2 d.code a.code b.code :: (a.lits ++ b.lits)
  | .ssubSat d a b => uniWord 3 d.code a.code b.code :: (a.lits ++ b.lits)
  | .smul d a b => uniWord 4 d.code a.code b.code :: (a.lits ++ b.lits)
  | .smulhS d a b => uniWord 5 d.code a.code b.code :: (a.lits ++ b.lits)
  | .smulhU d a b => uniWord 6 d.code a.code b.code :: (a.lits ++ b.lits)
  | .smulwS d a b => uniWord 7 d.code a.code b.code :: (a.lits ++ b.lits)
  | .smulwU d a b => uniWord 8 d.code a.code b.code :: (a.lits ++ b.lits)
  | .smad d a b => uniWord 9 d.code a.code b.code :: (a.lits ++ b.lits)
  | .sadd64 d a b => uniWord 10 d.code a.code b.code :: (a.lits ++ b.lits)
  | .ssub64 d a b => uniWord 11 d.code a.code b.code :: (a.lits ++ b.lits)
  | .sand d a b => uniWord 12 d.code a.code b.code :: (a.lits ++ b.lits)
  | .sor d a b => uniWord 13 d.code a.code b.code :: (a.lits ++ b.lits)
  | .sxor d a b => uniWord 14 d.code a.code b.code :: (a.lits ++ b.lits)
  | .sandn d a b => uniWord 15 d.code a.code b.code :: (a.lits ++ b.lits)
  | .sshl d a b => uniWord 16 d.code a.code b.code :: (a.lits ++ b.lits)
  | .sshr d a b => uniWord 17 d.code a.code b.code :: (a.lits ++ b.lits)
  | .ssar d a b => uniWord 18 d.code a.code b.code :: (a.lits ++ b.lits)
  | .srotl d a b => uniWord 19 d.code a.code b.code :: (a.lits ++ b.lits)
  | .sclz d b => uniWord 20 d.code 168 b.code :: b.lits
  | .spopc d b => uniWord 21 d.code 168 b.code :: b.lits
  | .sbrev d b => uniWord 22 d.code 168 b.code :: b.lits
  | .sbfeU d a b => uniWord 23 d.code a.code b.code :: (a.lits ++ b.lits)
  | .sbfeS d a b => uniWord 24 d.code a.code b.code :: (a.lits ++ b.lits)
  | .sbfi d a b => uniWord 25 d.code a.code b.code :: (a.lits ++ b.lits)
  | .sminS d a b => uniWord 26 d.code a.code b.code :: (a.lits ++ b.lits)
  | .sminU d a b => uniWord 27 d.code a.code b.code :: (a.lits ++ b.lits)
  | .smaxS d a b => uniWord 28 d.code a.code b.code :: (a.lits ++ b.lits)
  | .smaxU d a b => uniWord 29 d.code a.code b.code :: (a.lits ++ b.lits)
  | .scmpEq d a b => uniWord 30 d.code a.code b.code :: (a.lits ++ b.lits)
  | .scmpNe d a b => uniWord 31 d.code a.code b.code :: (a.lits ++ b.lits)
  | .scmpLtS d a b => uniWord 32 d.code a.code b.code :: (a.lits ++ b.lits)
  | .scmpLeS d a b => uniWord 33 d.code a.code b.code :: (a.lits ++ b.lits)
  | .scmpLtU d a b => uniWord 34 d.code a.code b.code :: (a.lits ++ b.lits)
  | .scmpLeU d a b => uniWord 35 d.code a.code b.code :: (a.lits ++ b.lits)
  | .ssel d a b => uniWord 36 d.code a.code b.code :: (a.lits ++ b.lits)
  | .smov d b => uniWord 37 d.code 168 b.code :: b.lits
  | .slea d a b => uniWord 38 d.code a.code b.code :: (a.lits ++ b.lits)
  | .sudiv d a b => uniWord 39 d.code a.code b.code :: (a.lits ++ b.lits)
  | .ssdiv d a b => uniWord 40 d.code a.code b.code :: (a.lits ++ b.lits)
  | .surem d a b => uniWord 41 d.code a.code b.code :: (a.lits ++ b.lits)
  | .ssrem d a b => uniWord 42 d.code a.code b.code :: (a.lits ++ b.lits)
  | .skand d a b => uniWord 43 d.code a.code b.code :: (a.lits ++ b.lits)
  | .skor d a b => uniWord 44 d.code a.code b.code :: (a.lits ++ b.lits)
  | .skxor d a b => uniWord 45 d.code a.code b.code :: (a.lits ++ b.lits)
  | .sldgB32 d a b => uniWord 48 d.code a.code b.code :: (a.lits ++ b.lits)
  | .sldgB64 d a b => uniWord 49 d.code a.code b.code :: (a.lits ++ b.lits)
  | .sldsB32 d a b => uniWord 50 d.code a.code b.code :: (a.lits ++ b.lits)
  | .sldsB64 d a b => uniWord 51 d.code a.code b.code :: (a.lits ++ b.lits)
  | .scpy d a b => uniWord 52 d.code a.code b.code :: (a.lits ++ b.lits)
  | .sfil d a b => uniWord 53 d.code a.code b.code :: (a.lits ++ b.lits)
  | .tdef d a b => uniWord 54 d.code a.code b.code :: (a.lits ++ b.lits)
  | .txrd d a b => uniWord 55 d.code a.code b.code :: (a.lits ++ b.lits)
  | .tfree d a => uniWord 56 d.code a.code 168 :: a.lits
  | .cpy d a => uniWord 64 d.code a.code 168 :: a.lits
  | .cpyt d a => uniWord 65 d.code a.code 168 :: a.lits
  | .cpym d a => uniWord 66 d.code a.code 168 :: a.lits
  | .cpyst d => [uniWord 67 d.code 168 168]
  | .mma d a => uniWord 68 d.code a.code 168 :: a.lits
  | .mmsp d a => uniWord 69 d.code a.code 168 :: a.lits
  | .mzero d b => uniWord 70 d.code 168 b.code :: b.lits
  | .mld d a => uniWord 71 d.code a.code 168 :: a.lits
  | .mst d a => uniWord 72 d.code a.code 168 :: a.lits
  | .madd d a => uniWord 73 d.code a.code 168 :: a.lits
  | .mpred d a b => uniWord 74 d.code a.code b.code :: (a.lits ++ b.lits)
  | .btnTake d => [uniWord 75 d.code 168 168]
  | .btnPass d => [uniWord 76 d.code 168 192]
  | .btnPassRelease d => [uniWord 76 d.code 168 193]
  | .btnQuery d => [uniWord 77 d.code 168 168]
  | .bisx d a b => uniWord 78 d.code a.code b.code :: (a.lits ++ b.lits)
  | .plnch d a => uniWord 80 d.code a.code 168 :: a.lits
  | .cins d a => uniWord 81 d.code a.code 168 :: a.lits
  | .cinsFirst d a => uniWord 82 d.code a.code 168 :: a.lits
  | .cfind d a b => uniWord 83 d.code a.code b.code :: (a.lits ++ b.lits)
  | .cclr d b => uniWord 84 d.code 168 b.code :: b.lits
  | .ltset a b => uniWord 88 168 a.code b.code :: (a.lits ++ b.lits)
  | .ltinc a b => uniWord 89 168 a.code b.code :: (a.lits ++ b.lits)
  | .ltcap a b => uniWord 90 168 a.code b.code :: (a.lits ++ b.lits)
  | .ltdrop a b => uniWord 91 168 a.code b.code :: (a.lits ++ b.lits)
  | .ftwait flag a b => uniWord 92 (192 + flag.toNat) a.code b.code :: (a.lits ++ b.lits)
  | .ftpoll d b => uniWord 93 d.code 168 b.code :: b.lits
  | .ltsum d a b => uniWord 94 d.code a.code b.code :: (a.lits ++ b.lits)
  | .lnch d a => uniWord 96 d.code a.code 168 :: a.lits
  | .qpush d a b => uniWord 97 d.code a.code b.code :: (a.lits ++ b.lits)
  | .qpull d a => uniWord 98 d.code a.code 168 :: a.lits
  | .amsg d a => uniWord 99 d.code a.code 168 :: a.lits
  | .jmp a => uniWord 112 168 a.code 168 :: a.lits
  | .bar => [uniWord 113 168 168 168]
  | .trap b => uniWord 114 168 168 b.code :: b.lits
  | .brk => [uniWord 115 168 168 168]
  | .ssr num a => uniWord 116 num.toNat a.code 168 :: a.lits
  | .sretResume => [uniWord 117 168 168 192]
  | .sretSkip => [uniWord 117 168 168 193]
  | .rplyReplayAll d => [uniWord 118 d.code 168 192]
  | .rplyEndEntry d a => uniWord 118 d.code a.code 193 :: a.lits
  | .tlbi d a b => uniWord 119 d.code a.code b.code :: (a.lits ++ b.lits)
  | .flt d a b => uniWord 120 d.code a.code b.code :: (a.lits ++ b.lits)
  | .ctxs d a b => uniWord 121 d.code a.code b.code :: (a.lits ++ b.lits)
  | .selection _ => []
  | .clauseFetchDone _ => []
  | .starvationPromotion _ _ => []
  | .joinHoldEnd _ => []
  | .napExpiry _ _ => []
  | .squadRetire _ => []
  | .squadPlaced _ _ => []
  | .regmissFetchDone _ => []
  | .evictionWriteback _ _ => []
  | .loadDataLands _ => []
  | .storeApplied _ => []
  | .writeApplyRemoteView _ => []
  | .globalAtomicPerform _ => []
  | .localAccessComplete _ => []
  | .uniformLoadLands _ => []
  | .fenceRelease _ => []
  | .portEntryLands _ => []
  | .portCreditReturn _ => []
  | .portStall _ _ => []
  | .matrixJobStart _ => []
  | .matrixJobComplete _ => []
  | .engineRelease _ => []
  | .copyJobStart _ => []
  | .copyJobComplete _ => []
  | .multicastLanding _ _ => []
  | .cinsJobComplete _ => []
  | .cfindComplete _ => []
  | .cclrComplete _ => []
  | .bisxComplete _ => []
  | .cpystComplete _ => []
  | .ftpollComplete _ => []
  | .capabilityDrop _ => []
  | .capabilityHandoff _ => []
  | .countReport _ => []
  | .frontierAnnounce _ _ _ => []
  | .pairEnumerationStart _ => []
  | .pairCrewStart _ => []
  | .pairRetire _ => []
  | .pairRemoteHalf _ => []
  | .pairAcknowledge _ => []
  | .plnchComplete _ => []
  | .preEmption _ => []
  | .priorityPreEmption _ => []
  | .squadRestore _ _ => []
  | .pageWalk _ => []
  | .permitBackoffExpiry _ _ => []
  | .faultListWrite _ => []
  | .trapDelivery _ _ => []
  | .tlbiDone _ => []
  | .taskFailure _ => []
  | .stealRequest _ _ => []
  | .stealReply _ => []
  | .stealAcknowledge _ => []
  | .stealConfirm _ => []
  | .stealReclaim _ => []
  | .coreReset _ => []
  | .qpullEntryArrives _ => []
  | .quiescence _ => []
  | .messageArrival _ => []
  | .messageHandlerStart _ => []
  | .launchAcceptance _ => []
  | .distributorBinding _ => []
  | .squadSteal _ _ => []
  | .launchEnd _ => []
  | .sampleTimer _ => []
  | .submissionDoorbell _ _ _ => []
  | .queueConfigWrite _ _ _ _ => []
  | .qerrClear _ _ => []
  | .replayRegister _ => []
  | .replayEndEntryRegister _ _ => []
  | .startRegister _ _ => []
  | .hostCtxsRegister _ _ _ => []
  | .counterLowRead _ _ => []
  | .registerWrite _ _ _ => []
  | .hostMemoryWrite _ _ => []
  | .hostAtomicOp _ _ _ _ _ => []
  | .attestationRequest _ => []
  | .powerCapSet _ => []
  | .clockThrottle _ _ => []
  | .moduleReset _ _ => []
  | .partitionSetup _ _ _ _ => []
  | .uncorrectableError _ => []
  | .linkTraining _ _ _ => []
  | .powerLoss => []
  | .powerGating _ _ => []

/-! ### What the decoder answers

Compiled Lean builds no constructor numbered above 244 that has fields, so the decoder answers the uniform words past
that number in a type of their own; `Decoded.instr` is the instruction meant. -/

/-- The uniform words whose constructor of `Instr` compiled code cannot build, each with that constructor's fields. -/
inductive Late
  /-- SLDS_B32 (R83). -/
  | sldsB32 (d a b : UOp)
  /-- SLDS_B64 (R83). -/
  | sldsB64 (d a b : UOp)
  /-- SCPY (R125). -/
  | scpy (d a b : UOp)
  /-- SFIL (R126). -/
  | sfil (d a b : UOp)
  /-- TDEF (R203). -/
  | tdef (d a b : UOp)
  /-- TXRD (R204). -/
  | txrd (d a b : UOp)
  /-- TFREE (R205). -/
  | tfree (d a : UOp)
  /-- CPY (R218). -/
  | cpy (d a : UOp)
  /-- CPYT (R219). -/
  | cpyt (d a : UOp)
  /-- CPYM (R222). -/
  | cpym (d a : UOp)
  /-- CPYST (R226). -/
  | cpyst (d : UOp)
  /-- MMA (R194). -/
  | mma (d a : UOp)
  /-- MMSP (R195). -/
  | mmsp (d a : UOp)
  /-- MZERO (R197). -/
  | mzero (d b : UOp)
  /-- MLD (R197). -/
  | mld (d a : UOp)
  /-- MST (R198). -/
  | mst (d a : UOp)
  /-- MADD (R199). -/
  | madd (d a : UOp)
  /-- MPRED (R200). -/
  | mpred (d a b : UOp)
  /-- BTN_TAKE (R190). -/
  | btnTake (d : UOp)
  /-- BTN_PASS (R190). -/
  | btnPass (d : UOp)
  /-- BTN_PASS_RELEASE (R190). -/
  | btnPassRelease (d : UOp)
  /-- BTN_QUERY (R190). -/
  | btnQuery (d : UOp)
  /-- BISX (R206). -/
  | bisx (d a b : UOp)
  /-- PLNCH (R254). -/
  | plnch (d a : UOp)
  /-- CINS (R251). -/
  | cins (d a : UOp)
  /-- CINS_FIRST (R251). -/
  | cinsFirst (d a : UOp)
  /-- CFIND (R252). -/
  | cfind (d a b : UOp)
  /-- CCLR (R253). -/
  | cclr (d b : UOp)
  /-- LTSET (R238). -/
  | ltset (a b : UOp)
  /-- LTINC (R238). -/
  | ltinc (a b : UOp)
  /-- LTCAP (R239). -/
  | ltcap (a b : UOp)
  /-- LTDROP (R239). -/
  | ltdrop (a b : UOp)
  /-- FTWAIT (R240). -/
  | ftwait (flag : BitVec 4) (a b : UOp)
  /-- FTPOLL (R241). -/
  | ftpoll (d b : UOp)
  /-- LTSUM (R242). -/
  | ltsum (d a b : UOp)
  /-- LNCH (R309). -/
  | lnch (d a : UOp)
  /-- QPUSH (R311). -/
  | qpush (d a b : UOp)
  /-- QPULL (R312). -/
  | qpull (d a : UOp)
  /-- AMSG (R313). -/
  | amsg (d a : UOp)
  /-- JMP (R15). -/
  | jmp (a : UOp)
  /-- TRAP (R65). -/
  | trap (b : UOp)
  /-- SSR (R63). -/
  | ssr (num : BitVec 8) (a : UOp)
  /-- RPLY_REPLAY_ALL (R292). -/
  | rplyReplayAll (d : UOp)
  /-- RPLY_END_ENTRY (R292). -/
  | rplyEndEntry (d a : UOp)
  /-- TLBI (R293). -/
  | tlbi (d a b : UOp)
  /-- FLT (R294). -/
  | flt (d a b : UOp)
  /-- CTXS (R295). -/
  | ctxs (d a b : UOp)
deriving DecidableEq, Repr

/-- The instruction a late word stands for. -/
noncomputable def Late.instr : Late → Instr
  | .sldsB32 d a b => .sldsB32 d a b
  | .sldsB64 d a b => .sldsB64 d a b
  | .scpy d a b => .scpy d a b
  | .sfil d a b => .sfil d a b
  | .tdef d a b => .tdef d a b
  | .txrd d a b => .txrd d a b
  | .tfree d a => .tfree d a
  | .cpy d a => .cpy d a
  | .cpyt d a => .cpyt d a
  | .cpym d a => .cpym d a
  | .cpyst d => .cpyst d
  | .mma d a => .mma d a
  | .mmsp d a => .mmsp d a
  | .mzero d b => .mzero d b
  | .mld d a => .mld d a
  | .mst d a => .mst d a
  | .madd d a => .madd d a
  | .mpred d a b => .mpred d a b
  | .btnTake d => .btnTake d
  | .btnPass d => .btnPass d
  | .btnPassRelease d => .btnPassRelease d
  | .btnQuery d => .btnQuery d
  | .bisx d a b => .bisx d a b
  | .plnch d a => .plnch d a
  | .cins d a => .cins d a
  | .cinsFirst d a => .cinsFirst d a
  | .cfind d a b => .cfind d a b
  | .cclr d b => .cclr d b
  | .ltset a b => .ltset a b
  | .ltinc a b => .ltinc a b
  | .ltcap a b => .ltcap a b
  | .ltdrop a b => .ltdrop a b
  | .ftwait flag a b => .ftwait flag a b
  | .ftpoll d b => .ftpoll d b
  | .ltsum d a b => .ltsum d a b
  | .lnch d a => .lnch d a
  | .qpush d a b => .qpush d a b
  | .qpull d a => .qpull d a
  | .amsg d a => .amsg d a
  | .jmp a => .jmp a
  | .trap b => .trap b
  | .ssr num a => .ssr num a
  | .rplyReplayAll d => .rplyReplayAll d
  | .rplyEndEntry d a => .rplyEndEntry d a
  | .tlbi d a b => .tlbi d a b
  | .flt d a b => .flt d a b
  | .ctxs d a b => .ctxs d a b

/-- A decoded instruction word. -/
inductive Decoded
  /-- An instruction that compiled code builds directly. -/
  | early (i : Instr)
  /-- A uniform word past that limit. -/
  | late (l : Late)
deriving DecidableEq, Repr

/-- The instruction decoded. -/
noncomputable def Decoded.instr : Decoded → Instr
  | .early i => i
  | .late l => l.instr

/-- The entry of a table in rows of eight. -/
def rowAt {α : Type} (t : List (List (Option α))) (n : Nat) : Option α := (((t[n / 8]?).getD [])[n % 8]?).join

/-! ### Decoding -/

/-- The fields of a lane word (R20). -/
structure LaneFields where
  op : Nat
  u : Bool
  d : Nat
  a : Nat
  b : Nat
deriving DecidableEq, Repr

/-- Cutting a lane word into its fields (R20). -/
def laneFields (w : Word) : LaneFields :=
  { op := w.toNat / 2 ^ 24 % 128, u := bit1 (w.toNat / 2 ^ 23), d := w.toNat / 2 ^ 16 % 128,
    a := w.toNat / 2 ^ 9 % 128, b := w.toNat % 512 }

/-- Lane opcodes 0x00-0x5F of the forms with two sources (R39). Rows of eight. -/
def rowsAB : List (List (Option (Bool → LOp → LOp → BOp → Instr))) := [
  [some .add, some .addSat, some .sub, some .subSat, some .mul, some .mulhS, some .mulhU, some .mulwS],
  [some .mulwU, some .mad, some .add64, some .sub64, some .and, some .or, some .xor, some .andn],
  [some .shl, some .shr, some .sar, some .rotl, none, none, none, some .bfeU],
  [some .bfeS, some .bfi, some .minS, some .minU, some .maxS, some .maxU, some .cmpEq, some .cmpNe],
  [some .cmpLtS, some .cmpLeS, some .cmpLtU, some .cmpLeU, some .sel, none, none, some .lea],
  [some .prmt, some .udiv, some .sdiv, some .urem, some .srem, some .pand, some .por, some .pxor],
  [some .fadd, some .faddRz, some .faddRd, some .faddRu, some .fsub, some .fsubRz, some .fsubRd, some .fsubRu],
  [some .fmul, some .fmulRz, some .fmulRd, some .fmulRu, some .ffma, some .ffmaRz, some .ffmaRd, some .ffmaRu],
  [some .fmin, some .fmax, some .fcmpEq, some .fcmpLt, some .fcmpLe, some .fcmpUn, none, none],
  [some .fdivFull, some .fdivFullRz, some .fdivFullRd, some .fdivFullRu, some .hadd2, some .hmul2, some .hfma2, none],
  [none, none, none, none, none, none, none, none],
  [some .dp4S, some .dp4U, some .fdp4E4m3, some .fdp4E5m2, some .fdp4B8, none, none, none]]

/-- Lane opcodes 0x00-0x5F of the unary form, whose a holds 127 (R39, R74). Rows of eight. -/
def rowsB : List (List (Option (Bool → LOp → BOp → Instr))) := [
  [none, none, none, none, none, none, none, none],
  [none, none, none, none, none, none, none, none],
  [none, none, none, none, some .clz, some .popc, some .brev, none],
  [none, none, none, none, none, none, none, none],
  [none, none, none, none, none, some .mov, some .movl, none],
  [none, none, none, none, none, none, none, none],
  [none, none, none, none, none, none, none, none],
  [none, none, none, none, none, none, none, none],
  [none, none, none, none, none, none, some .fclass, none],
  [none, none, none, none, none, none, none, none],
  [none, none, none, none, none, none, none, none],
  [none, none, none, none, none, none, none, none]]

/-- The unary group 0x47 by its function (R44). Rows of eight. -/
def rowsUnary : List (List (Option (Bool → LOp → BOp → Instr))) := [
  [some .frcp, some .frsq, some .fsqrt, some .fsqrtRz, some .fsqrtRd, some .fsqrtRu, some .fex2, some .flg2],
  [some .fsin, some .fcos]]

/-- Global loads 0x60-0x64 (R22). Rows of eight. -/
def rowsLdg : List (List (Option (Bool → LOp → LOp → BitVec 3 → MOff → Instr))) := [
  [some .ldgB8, some .ldgB16, some .ldgB32, some .ldgB64, some .ldgB128]]

/-- Global stores 0x65-0x69 (R22). Rows of eight. -/
def rowsStg : List (List (Option (Bool → LOp → LOp → BitVec 3 → MOff → Instr))) := [
  [some .stgB8, some .stgB16, some .stgB32, some .stgB64, some .stgB128]]

/-- Local loads 0x6A by width code (R23). Rows of eight. -/
def rowsLocalLoad : List (List (Option (Bool → LOp → LOp → MOff → Instr))) := [
  [some .ldsB8, some .ldsB16, some .ldsB32, some .ldsB64, some .ldsB128, some .ldpB32, some .ldpB64, some .ldpB128]]

/-- Local stores 0x6B by width code (R23). Rows of eight. -/
def rowsLocalStore : List (List (Option (Bool → LOp → LOp → MOff → Instr))) := [
  [some .stsB8, some .stsB16, some .stsB32, some .stsB64, some .stsB128, some .stpB32, some .stpB64, some .stpB128]]

/-- Scratch atomics 0x6C by operation (R24). Rows of eight. -/
def rowsAts : List (List (Option (LOp → LOp → Bool → Instr))) := [
  [some .atsAdd, some .atsMinS, some .atsMaxS, some .atsMinU, some .atsMaxU, some .atsAnd, some .atsOr, some .atsXor],
  [some .atsExch, some .atsCas, none, none, none, none, none, none],
  [none, none, none, none, none, none, none, none],
  [none, none, none, none, none, none, none, none]]

/-- Global atomics 0x6D by operation (R24). Rows of eight. -/
def rowsAtg : List (List (Option (LOp → LOp → BitVec 3 → Bool → Instr))) := [
  [some .atgAdd, some .atgMinS, some .atgMaxS, some .atgMinU, some .atgMaxU, some .atgAnd, some .atgOr, some .atgXor],
  [some .atgExch, some .atgCas, none, some .ldga, none, none, none, none],
  [none, none, none, none, none, none, none, none],
  [none, none, none, none, none, none, none, none]]

/-- Global reductions 0x6E by operation (R24). Rows of eight. -/
def rowsRedg : List (List (Option (LOp → LOp → BitVec 3 → Bool → Instr))) := [
  [some .redgAdd, some .redgMinS, some .redgMaxS, some .redgMinU, some .redgMaxU, some .redgAnd, some .redgOr, some .redgXor],
  [none, none, none, none, some .stgr, none, none, none],
  [none, none, none, none, none, none, none, none],
  [none, none, none, none, none, none, none, none]]

/-- The crew group 0x74 by function, but for `actm` and `gsr` (R44, R62). Rows of eight. -/
def rowsCrew : List (List (Option (LOp → BOp → Instr))) := [
  [some .rfl, none, some .voteAny, some .voteAll, some .voteBallot, some .matchLanes, some .cmpct, none]]

/-- The port group 0x78 by function, but for `pcfg` (R44, R161). Rows of eight. -/
def rowsPort : List (List (Option (LOp → BitVec 3 → Instr))) := [
  [none, some .pcnt, some .ppk, some .pfls, some .psts]]

/-- `xred` 0x7B by function (R44). Rows of eight. -/
def rowsXred : List (List (Option (LOp → BOp → Instr))) := [
  [some .xredAdd, some .xredFadd, some .xredMin, some .xredMax]]

/-- `pldr` 0x7D by width (R262). Rows of eight. -/
def rowsPldr : List (List (Option (LOp → Bool → BOp → Instr))) := [
  [some .pldrB32, some .pldrB64, some .pldrB128]]

/-- Uniform opcodes with d, a and b (R40). Rows of eight. -/
def rowsUAB : List (List (Option (UOp → UOp → UOp → Decoded))) := [
  [some fun x y z => .early (.sadd x y z), some fun x y z => .early (.saddSat x y z), some fun x y z => .early (.ssub x y z), some fun x y z => .early (.ssubSat x y z), some fun x y z => .early (.smul x y z), some fun x y z => .early (.smulhS x y z), some fun x y z => .early (.smulhU x y z), some fun x y z => .early (.smulwS x y z)],
  [some fun x y z => .early (.smulwU x y z), some fun x y z => .early (.smad x y z), some fun x y z => .early (.sadd64 x y z), some fun x y z => .early (.ssub64 x y z), some fun x y z => .early (.sand x y z), some fun x y z => .early (.sor x y z), some fun x y z => .early (.sxor x y z), some fun x y z => .early (.sandn x y z)],
  [some fun x y z => .early (.sshl x y z), some fun x y z => .early (.sshr x y z), some fun x y z => .early (.ssar x y z), some fun x y z => .early (.srotl x y z), none, none, none, some fun x y z => .early (.sbfeU x y z)],
  [some fun x y z => .early (.sbfeS x y z), some fun x y z => .early (.sbfi x y z), some fun x y z => .early (.sminS x y z), some fun x y z => .early (.sminU x y z), some fun x y z => .early (.smaxS x y z), some fun x y z => .early (.smaxU x y z), some fun x y z => .early (.scmpEq x y z), some fun x y z => .early (.scmpNe x y z)],
  [some fun x y z => .early (.scmpLtS x y z), some fun x y z => .early (.scmpLeS x y z), some fun x y z => .early (.scmpLtU x y z), some fun x y z => .early (.scmpLeU x y z), some fun x y z => .early (.ssel x y z), none, some fun x y z => .early (.slea x y z), some fun x y z => .early (.sudiv x y z)],
  [some fun x y z => .early (.ssdiv x y z), some fun x y z => .early (.surem x y z), some fun x y z => .early (.ssrem x y z), some fun x y z => .early (.skand x y z), some fun x y z => .early (.skor x y z), some fun x y z => .early (.skxor x y z), none, none],
  [some fun x y z => .early (.sldgB32 x y z), some fun x y z => .early (.sldgB64 x y z), some fun x y z => .late (.sldsB32 x y z), some fun x y z => .late (.sldsB64 x y z), some fun x y z => .late (.scpy x y z), some fun x y z => .late (.sfil x y z), some fun x y z => .late (.tdef x y z), some fun x y z => .late (.txrd x y z)],
  [none, none, none, none, none, none, none, none],
  [none, none, none, none, none, none, none, none],
  [none, none, some fun x y z => .late (.mpred x y z), none, none, none, some fun x y z => .late (.bisx x y z), none],
  [none, none, none, some fun x y z => .late (.cfind x y z), none, none, none, none],
  [none, none, none, none, none, none, some fun x y z => .late (.ltsum x y z), none],
  [none, some fun x y z => .late (.qpush x y z), none, none, none, none, none, none],
  [none, none, none, none, none, none, none, none],
  [none, none, none, none, none, none, none, some fun x y z => .late (.tlbi x y z)],
  [some fun x y z => .late (.flt x y z), some fun x y z => .late (.ctxs x y z), none, none, none, none, none, none]]

/-- Uniform opcodes with d and b, whose a holds 168 (R40). Rows of eight. -/
def rowsUB : List (List (Option (UOp → UOp → Decoded))) := [
  [none, none, none, none, none, none, none, none],
  [none, none, none, none, none, none, none, none],
  [none, none, none, none, some fun x y => .early (.sclz x y), some fun x y => .early (.spopc x y), some fun x y => .early (.sbrev x y), none],
  [none, none, none, none, none, none, none, none],
  [none, none, none, none, none, some fun x y => .early (.smov x y), none, none],
  [none, none, none, none, none, none, none, none],
  [none, none, none, none, none, none, none, none],
  [none, none, none, none, none, none, none, none],
  [none, none, none, none, none, none, some fun x y => .late (.mzero x y), none],
  [none, none, none, none, none, none, none, none],
  [none, none, none, none, some fun x y => .late (.cclr x y), none, none, none],
  [none, none, none, none, none, some fun x y => .late (.ftpoll x y), none, none],
  [none, none, none, none, none, none, none, none],
  [none, none, none, none, none, none, none, none],
  [none, none, none, none, none, none, none, none],
  [none, none, none, none, none, none, none, none]]

/-- Uniform opcodes with d and a, whose b holds 168 (R40). Rows of eight. -/
def rowsUA : List (List (Option (UOp → UOp → Decoded))) := [
  [none, none, none, none, none, none, none, none],
  [none, none, none, none, none, none, none, none],
  [none, none, none, none, none, none, none, none],
  [none, none, none, none, none, none, none, none],
  [none, none, none, none, none, none, none, none],
  [none, none, none, none, none, none, none, none],
  [none, none, none, none, none, none, none, none],
  [some fun x y => .late (.tfree x y), none, none, none, none, none, none, none],
  [some fun x y => .late (.cpy x y), some fun x y => .late (.cpyt x y), some fun x y => .late (.cpym x y), none, some fun x y => .late (.mma x y), some fun x y => .late (.mmsp x y), none, some fun x y => .late (.mld x y)],
  [some fun x y => .late (.mst x y), some fun x y => .late (.madd x y), none, none, none, none, none, none],
  [some fun x y => .late (.plnch x y), some fun x y => .late (.cins x y), some fun x y => .late (.cinsFirst x y), none, none, none, none, none],
  [none, none, none, none, none, none, none, none],
  [some fun x y => .late (.lnch x y), none, some fun x y => .late (.qpull x y), some fun x y => .late (.amsg x y), none, none, none, none],
  [none, none, none, none, none, none, none, none],
  [none, none, none, none, none, none, none, none],
  [none, none, none, none, none, none, none, none]]

/-- Uniform opcodes with d alone (R40). Rows of eight. -/
def rowsUD : List (List (Option (UOp → Decoded))) := [
  [none, none, none, none, none, none, none, none],
  [none, none, none, none, none, none, none, none],
  [none, none, none, none, none, none, none, none],
  [none, none, none, none, none, none, none, none],
  [none, none, none, none, none, none, none, none],
  [none, none, none, none, none, none, none, none],
  [none, none, none, none, none, none, none, none],
  [none, none, none, none, none, none, none, none],
  [none, none, none, some fun x => .late (.cpyst x), none, none, none, none],
  [none, none, none, some fun x => .late (.btnTake x), none, some fun x => .late (.btnQuery x), none, none],
  [none, none, none, none, none, none, none, none],
  [none, none, none, none, none, none, none, none],
  [none, none, none, none, none, none, none, none],
  [none, none, none, none, none, none, none, none],
  [none, none, none, none, none, none, none, none],
  [none, none, none, none, none, none, none, none]]

/-- Uniform opcodes with a and b, whose d holds 168 (R237). Rows of eight. -/
def rowsULt : List (List (Option (UOp → UOp → Decoded))) := [
  [none, none, none, none, none, none, none, none],
  [none, none, none, none, none, none, none, none],
  [none, none, none, none, none, none, none, none],
  [none, none, none, none, none, none, none, none],
  [none, none, none, none, none, none, none, none],
  [none, none, none, none, none, none, none, none],
  [none, none, none, none, none, none, none, none],
  [none, none, none, none, none, none, none, none],
  [none, none, none, none, none, none, none, none],
  [none, none, none, none, none, none, none, none],
  [none, none, none, none, none, none, none, none],
  [some fun x y => .late (.ltset x y), some fun x y => .late (.ltinc x y), some fun x y => .late (.ltcap x y), some fun x y => .late (.ltdrop x y), none, none, none, none],
  [none, none, none, none, none, none, none, none],
  [none, none, none, none, none, none, none, none],
  [none, none, none, none, none, none, none, none],
  [none, none, none, none, none, none, none, none]]

/-- Decoding a lane word of the opcodes 0x00-0x5F (R39, R44). -/
def decodeAlu (f : LaneFields) (rest : List Word) : Except DecodeError Instr :=
  let d := LOp.ofCode f.d
  match rowAt rowsAB (f.op) with
  | some mk => do
    let b ← BOp.ofCode f.b rest
    .ok (mk f.u d (LOp.ofCode f.a) b)
  | none =>
    match rowAt rowsB (f.op) with
    | some mk => do
      let b ← BOp.ofCode f.b rest
      fieldIs f.a 127
      .ok (mk f.u d b)
    | none =>
      if f.op = 0x47 then
        match rowAt rowsUnary (f.a) with
        | some mk => do
          let b ← BOp.ofCode f.b rest
          .ok (mk f.u d b)
        | none => .error .badField
      else if f.op = 0x50 then do
        let b ← BOp.ofCode f.b rest
        .ok (.cvtf f.u d (BitVec.ofNat 2 (f.a / 32)) (bit1 (f.a / 16)) (BitVec.ofNat 4 f.a) b)
      else if f.op = 0x51 then do
        let b ← BOp.ofCode f.b rest
        fieldIs (f.a / 16) 0
        .ok (.cvtfW f.u d (BitVec.ofNat 4 f.a) b)
      else if f.op = 0x52 then do
        let b ← BOp.ofCode f.b rest
        fieldIs (f.a % 16) 0
        .ok (.cvti f.u d (BitVec.ofNat 2 (f.a / 32)) (bit1 (f.a / 16)) b)
      else if f.op = 0x53 then do
        let b ← BOp.ofCode f.b rest
        fieldIs (f.a % 16) 0
        .ok (.cvfi f.u d (BitVec.ofNat 2 (f.a / 32)) (bit1 (f.a / 16)) b)
      else if f.op = 0x54 then
        if h : f.a < 64 then do
          let b ← BOp.ofCode f.b rest
          .ok (.qnt f.u d ⟨f.a, h⟩ b)
        else .error .badField
      else if f.op = 0x55 then
        if h : f.a < 64 then do
          let b ← BOp.ofCode f.b rest
          .ok (.dqnt f.u d ⟨f.a, h⟩ b)
        else .error .badField
      else if f.op = 0x56 then do
        let b ← BOp.ofCode f.b rest
        .ok (.pk4 f.u d (BitVec.ofNat 2 (f.a / 32)) (bit1 (f.a / 16)) (BitVec.ofNat 4 f.a) b)
      else if f.op = 0x57 then do
        let b ← BOp.ofCode f.b rest
        fieldIs (f.a / 16) 0
        .ok (.upk f.u d (BitVec.ofNat 4 f.a) b)
      else .error .unassigned

/-- Decoding a lane word of the memory variant 0x60-0x6F (R22-R26). -/
def decodeMem (f : LaneFields) (rest : List Word) : Except DecodeError Instr :=
  let d := LOp.ofCode f.d
  let a := LOp.ofCode f.a
  let ord := BitVec.ofNat 3 (f.b / 64)
  let w := bit1 (f.b / 32)
  if h : f.op - 0x60 < 5 then
    match rowAt rowsLdg (f.op - 0x60) with
    | some mk => do
      let off ← MOff.ofCode (f.b % 64) rest
      if f.d = 127 then do
        noU f.u
        fieldIs (f.b / 64) 0
        .ok (.pfl2 ⟨f.op - 0x60, h⟩ a off)
      else .ok (mk f.u d a ord off)
    | none => .error .unassigned
  else if f.op < 0x6A then
    match rowAt rowsStg (f.op - 0x65) with
    | some mk => do
      let off ← MOff.ofCode (f.b % 64) rest
      .ok (mk f.u d a ord off)
    | none => .error .unassigned
  else if f.op = 0x6A then
    match rowAt rowsLocalLoad (f.b / 64) with
    | some mk => do
      let off ← MOff.ofCode (f.b % 64) rest
      .ok (mk f.u d a off)
    | none => .error .badField
  else if f.op = 0x6B then
    match rowAt rowsLocalStore (f.b / 64) with
    | some mk => do
      let off ← MOff.ofCode (f.b % 64) rest
      .ok (mk f.u d a off)
    | none => .error .badField
  else if f.op = 0x6C then do
    noU f.u
    fieldIs (f.b / 64) 0
    if f.b % 32 = 10 then do
      fieldIs (f.b / 32) 0
      .ok (.atsFadd d a)
    else match rowAt rowsAts (f.b % 32) with
      | some mk => .ok (mk d a w)
      | none => .error .badField
  else if f.op = 0x6D then do
    noU f.u
    if f.b % 32 = 10 then do
      fieldIs (f.b / 32 % 2) 0
      .ok (.atgFadd d a ord)
    else match rowAt rowsAtg (f.b % 32) with
      | some mk => .ok (mk d a ord w)
      | none => .error .badField
  else if f.op = 0x6E then do
    noU f.u
    if f.b % 32 = 10 then do
      fieldIs (f.b / 32 % 2) 0
      .ok (.redgFadd d a ord)
    else match rowAt rowsRedg (f.b % 32) with
      | some mk => .ok (mk d a ord w)
      | none => .error .badField
  else do
    noU f.u
    fieldIs f.d 127
    fieldIs f.a 127
    if f.b % 64 = 0 then .ok (.fence ord)
    else if f.b % 64 = 1 then .ok (.fenceLd ord)
    else if f.b % 64 = 2 then .ok (.fenceSt ord)
    else .error .badField

/-- Decoding a lane word of the opcodes 0x70-0x7F (R27, R44). -/
def decodeCtl (w : Word) (f : LaneFields) (rest : List Word) : Except DecodeError Instr :=
  let d := LOp.ofCode f.d
  let a := LOp.ofCode f.a
  let sense := bit1 (w.toNat / 2 ^ 15)
  let off := BitVec.ofNat 15 w.toNat
  if f.op = 0x70 then .ok (.bra f.u d sense off)
  else if f.op = 0x71 then if sense then .error .badField else .ok (.call f.u d off)
  else do
    if f.op ≤ 0x7E then noU f.u else .error .unassigned
    if f.op = 0x72 then do
      fieldIs f.d 127
      fieldIs f.b 127
      .ok (.ret a)
    else if f.op = 0x73 then do
      fieldIs f.d 127
      fieldIs f.a 127
      fieldIs f.b 127
      .ok .exitThread
    else if f.op = 0x74 then
      if f.a = 1 then do
        fieldIs f.b 127
        .ok (.actm d)
      else if f.a = 7 then .ok (.gsr d (BitVec.ofNat 9 f.b))
      else match rowAt rowsCrew (f.a) with
        | some mk => do
          let b ← BOp.ofCode f.b rest
          .ok (mk d b)
        | none => .error .badField
    else if f.op = 0x75 then do
      let b ← BOp.ofCode f.b rest
      .ok (.shfl d a b)
    else if f.op = 0x76 then do
      let b ← BOp.ofCode f.b rest
      .ok (.shflXor d a b)
    else if f.op = 0x77 then do
      let b ← BOp.ofCode f.b rest
      fieldIs f.d 127
      fieldIs f.a 127
      .ok (.nap b)
    else if f.op = 0x78 then
      if f.a = 0 then do
        let b ← BOp.ofCode f.b rest
        .ok (.pcfg d b)
      else match rowAt rowsPort (f.a) with
        | some mk => do
          fieldIs (f.b / 8) 40
          .ok (mk d (BitVec.ofNat 3 f.b))
        | none => .error .badField
    else if f.op = 0x79 then do
      let b ← BOp.ofCode f.b rest
      .ok (.xld d a b)
    else if f.op = 0x7A then do
      fieldIs f.a 127
      fieldIs f.b 127
      .ok (.xdeal d)
    else if f.op = 0x7B then
      match rowAt rowsXred (f.a) with
      | some mk => do
        let b ← BOp.ofCode f.b rest
        .ok (mk d b)
      | none => .error .badField
    else if f.op = 0x7C then do
      fieldIs f.b 127
      if f.a = 0 then .ok (.xend d) else if f.a = 1 then .ok (.xst d) else .error .badField
    else if f.op = 0x7D then
      match rowAt rowsPldr (f.a / 2) with
      | some mk => do
        let b ← BOp.ofCode f.b rest
        .ok (mk d (bit1 f.a) b)
      | none => .error .badField
    else do
      fieldIs f.d 127
      fieldIs (f.b / 8) 40
      .ok (.pret a (BitVec.ofNat 3 f.b))

/-- The literal that the code `n` of a uniform operand takes, from the words that follow (R28). -/
def uniLit (n : Nat) (rest : List Word) : Option Word × List Word :=
  if n = 255 then
    match rest with
    | w :: r => (some w, r)
    | [] => (none, [])
  else (none, rest)

/-- Decoding a uniform word (R28, R40). -/
def decodeUni (w : Word) (rest : List Word) : Except DecodeError Decoded :=
  let op := w.toNat / 2 ^ 24 % 128
  let dc := w.toNat / 2 ^ 16 % 256
  let ac := w.toNat / 2 ^ 8 % 256
  let bc := w.toNat % 256
  let la := uniLit ac rest
  let lb := uniLit bc la.2
  match rowAt rowsUAB (op), rowAt rowsUB (op), rowAt rowsUA (op), rowAt rowsUD (op), rowAt rowsULt (op) with
  | some mk, _, _, _, _ => do
    let a ← UOp.ofCode ac la.1
    let b ← UOp.ofCode bc lb.1
    if dc = 255 then .error .badField else do
      let d ← UOp.ofCode dc none
      .ok (mk d a b)
  | none, some mk, _, _, _ => do
    let b ← UOp.ofCode bc lb.1
    fieldIs ac 168
    if dc = 255 then .error .badField else do
      let d ← UOp.ofCode dc none
      .ok (mk d b)
  | none, none, some mk, _, _ => do
    let a ← UOp.ofCode ac la.1
    fieldIs bc 168
    if dc = 255 then .error .badField else do
      let d ← UOp.ofCode dc none
      .ok (mk d a)
  | none, none, none, some mk, _ => do
    fieldIs ac 168
    fieldIs bc 168
    if dc = 255 then .error .badField else do
      let d ← UOp.ofCode dc none
      .ok (mk d)
  | none, none, none, none, some mk => do
    let a ← UOp.ofCode ac la.1
    let b ← UOp.ofCode bc lb.1
    fieldIs dc 168
    .ok (mk a b)
  | none, none, none, none, none =>
    if op = 0x4C then do
      fieldIs ac 168
      if dc = 255 then .error .badField else do
        let d ← UOp.ofCode dc none
        if bc = 192 then .ok (.late (.btnPass d)) else if bc = 193 then .ok (.late (.btnPassRelease d)) else .error .badField
    else if op = 0x5C then
      if dc / 16 = 12 then do
        let a ← UOp.ofCode ac la.1
        let b ← UOp.ofCode bc lb.1
        .ok (.late (.ftwait (BitVec.ofNat 4 dc) a b))
      else .error .badField
    else if op = 0x70 then do
      let a ← UOp.ofCode ac la.1
      fieldIs dc 168
      fieldIs bc 168
      .ok (.late (.jmp a))
    else if op = 0x71 then do
      fieldIs dc 168
      fieldIs ac 168
      fieldIs bc 168
      .ok (.early .bar)
    else if op = 0x72 then do
      let b ← UOp.ofCode bc lb.1
      fieldIs dc 168
      fieldIs ac 168
      .ok (.late (.trap b))
    else if op = 0x73 then do
      fieldIs dc 168
      fieldIs ac 168
      fieldIs bc 168
      .ok (.early .brk)
    else if op = 0x74 then do
      let a ← UOp.ofCode ac la.1
      fieldIs bc 168
      .ok (.late (.ssr (BitVec.ofNat 8 dc) a))
    else if op = 0x75 then do
      fieldIs dc 168
      fieldIs ac 168
      if bc = 192 then .ok (.early .sretResume) else if bc = 193 then .ok (.early .sretSkip) else .error .badField
    else if op = 0x76 then
      if dc = 255 then .error .badField else do
        let d ← UOp.ofCode dc none
        if bc = 192 then do
          fieldIs ac 168
          .ok (.late (.rplyReplayAll d))
        else if bc = 193 then do
          let a ← UOp.ofCode ac la.1
          .ok (.late (.rplyEndEntry d a))
        else .error .badField
    else .error .unassigned

/-- Decoding the words of a clause from an instruction word on: the instruction, and how many words it takes. -/
def decodeWords : List Word → Except DecodeError (Decoded × Nat)
  | [] => .error .noWord
  | w :: rest =>
    if w.toNat / 2 ^ 31 = 1 then
      match decodeUni w rest with
      | .ok d => .ok (d, 1 + Bool.bitNat (w.toNat / 2 ^ 8 % 256 = 255) + Bool.bitNat (w.toNat % 256 = 255))
      | .error e => .error e
    else
      let f := laneFields w
      match if f.op < 0x60 then decodeAlu f rest
            else if f.op < 0x70 then decodeMem f rest
            else decodeCtl w f rest with
      | .ok i => .ok (.early i, (encode i).length)
      | .error e => .error e

/-- The little-endian word at the head of a list of bytes (R2). -/
def wordsOfBytes : List Byte → List Word
  | b0 :: b1 :: b2 :: b3 :: rest =>
    BitVec.ofNat 32 (b0.toNat + b1.toNat * 2 ^ 8 + b2.toNat * 2 ^ 16 + b3.toNat * 2 ^ 24) :: wordsOfBytes rest
  | _ => []

/-- Decoding the bytes of a clause from an instruction word on. -/
def decodeBytes (bs : List Byte) : Except DecodeError (Decoded × Nat) := decodeWords (wordsOfBytes bs)

/-- The four bytes of a word, lowest address first (R2). -/
def bytesOfWord (w : Word) : List Byte :=
  [BitVec.ofNat 8 w.toNat, BitVec.ofNat 8 (w.toNat / 2 ^ 8), BitVec.ofNat 8 (w.toNat / 2 ^ 16),
   BitVec.ofNat 8 (w.toNat / 2 ^ 24)]

/-- The words of a table word: its first word, and zeros for as many literals as an instruction may take. -/
def tableWords (nbits w : Nat) : List Word :=
  BitVec.ofNat 32 (w % 2 ^ nbits) :: BitVec.ofNat 32 (w % 2 ^ nbits / 2 ^ 32) :: [0#32]

/-- The instruction the decoder reads from a word numbered as the opcode table numbers it, laid out in memory. -/
noncomputable def decodeTableWord (nbits w : Nat) : Option Instr :=
  match decodeBytes ((tableWords nbits w).flatMap bytesOfWord) with
  | .ok (d, _) => some d.instr
  | .error _ => none

end Sys2Proof
end

