-- ==== Sys2Proof/Machine/State.lean ====
section
/-! DEFINITION. The state of the Darsiud D12 as plain data: every piece of state that spec/ gives the part, each under
the rule that names it (INVENTORY.md, State). Units of a kind are held in association lists keyed by number, and a unit
that is not listed is as reset leaves it, its core's clock apart. Cores are numbered island * 144 + cluster * 12 + core, clusters island * 12 +
cluster (R6, R7). -/

namespace Sys2Proof.Machine

/-- Values of width `w` by number: strictly rising keys, no entry of value 0, and an unlisted key reads 0. -/
abbrev Store (w : Nat) : Type := List (Nat × BitVec w)

/-- Bytes by address in that canonical form. What an unlisted address reads as is `Memory.unlisted`. -/
abbrev Memory : Type := List Host.Cell

/-- What a byte that nothing has written reads as. DESIGN CHOICE (log 3): the spec gives no power-on contents. -/
def Memory.unlisted : Byte := 0#8

/-- Records by number. -/
abbrev AList (α : Type) : Type := List (Nat × α)

/-! ### Threads -/

/-- The state of a thread (R54). -/
inductive TState
  /-- Running. -/
  | running
  /-- Napping (R60). -/
  | napping
  /-- At barrier (R61). -/
  | atBarrier
  /-- Holding baton wait (R190). -/
  | batonWait
  /-- Held at join (R58). -/
  | heldAtJoin
  /-- Parked (R280). -/
  | parked
  /-- Exited (R54). -/
  | exited
deriving DecidableEq, Repr

/-- The queues whose room a word waits for. -/
inductive QueueKind
  /-- The eight matrix jobs of a core (R186). -/
  | matrix
  /-- The sixteen copy jobs of a core (R213). -/
  | copy
  /-- The four pair launches of a core's Isthmus (R267). -/
  | pair
deriving DecidableEq, Repr

/-- Why a running thread stands stalled at the word of its PC (R19), with what ends the stall. -/
inductive Stall
  /-- A pop finds too few entries (R155): entries needed by port number, and the port pushed. -/
  | portEmpty (need : List (Nat × Nat)) (push : Option Nat)
  /-- A push finds no credit (R155). -/
  | portFull (need : List (Nat × Nat)) (push : Option Nat)
  /-- A flag that counts 15 operations for one of these lanes (R16). -/
  | flagFull (flag : Nat) (lanes : List Nat)
  /-- No free `ftwait` descriptor (R287). -/
  | waitsFull
  /-- A fence whose condition does not hold yet (R137): operations numbered below `before` are earlier than it; `last` says that the
  fence is its clause's last word. -/
  | fence (scope kind before : Nat) (last : Bool)
  /-- Back-off for a trap permit (R281). -/
  | permit
  /-- A full queue (R186, R213, R267). -/
  | queueFull (q : QueueKind)
  /-- The full count table of a core, for an increment of a launch at a stage and time (R233). -/
  | countTable (core launch : Nat) (stage : BitVec 4) (time : DWord)
  /-- Absent register lines (R70). -/
  | regMiss (lines : List Nat)
  /-- `tlbi` in progress (R293): the page or space to remove, the kind, the status register, the words it takes, and whether they
  end its clause. -/
  | tlbi (va space kind : Nat) (sd : Option Nat) (size : Nat) (last : Bool)
  /-- A full term store (R172). -/
  | termStore
deriving DecidableEq, Repr

/-- How a thread came to the header of its PC (R15). -/
inductive Arrival
  /-- By fall-through, `bra`, `ret` or `sret`: E is not tested. -/
  | fall
  /-- By `call`, `jmp` or a start: E is tested. -/
  | entry
  /-- By delivery of a trap: E is tested, and a header without it kills the thread (R282). -/
  | vector
deriving DecidableEq, Repr

/-- The causes of R280. -/
inductive Cause
  /-- 0x01. -/
  | trap
  /-- 0x02. -/
  | break
  /-- 0x03. -/
  | uniformCheck
  /-- 0x04. -/
  | illegalOp
  /-- 0x05. -/
  | illegalOperand
  /-- 0x06. -/
  | misaligned
  /-- 0x07. -/
  | protection
  /-- 0x08. -/
  | streamRights
  /-- 0x09. -/
  | baton
  /-- 0x0A. -/
  | tensorId
  /-- 0x0B. -/
  | portDisconnected
  /-- 0x10. -/
  | pageFault
  /-- 0x11. -/
  | poison
  /-- 0x12. -/
  | portStall
  /-- 0x13. -/
  | timeOrder
  /-- 0x14. -/
  | pairAbort
  /-- 0x15. -/
  | doubleTrap
deriving DecidableEq, Repr

/-- A fault record (R283), as fields. -/
structure FaultRec where
  cause : BitVec 6 := 0#6
  stage : BitVec 4 := 0#4
  exp : Bool := false
  pair : Bool := false
  eng : Bool := false
  kill : Bool := false
  owner : BitVec 9 := 0#9
  exec : BitVec 9 := 0#9
  inner : Word := 0#32
  defer : Bool := false
  pc : DWord := 0#64
  addr : DWord := 0#64
deriving DecidableEq, Repr

/-- How far a parked lane has come on its route (R280-R282). -/
inductive Route
  /-- PAGE_FAULT: the fault is not recorded yet, and the lane holds a permit (R276, R281). -/
  | walk
  /-- PAGE_FAULT: recorded or dropped; the lane waits for a replay. -/
  | held
  /-- The record waits for the fault list, and the lane holds a permit (R281, R284). -/
  | list
  /-- The cause waits for delivery to the trap vector (R282). -/
  | deliver
deriving DecidableEq, Repr

/-- What a parked lane is parked with. -/
structure Parked where
  cause : Cause
  addr : DWord := 0#64
  defer : Bool := false
  eng : Bool := false
  route : Route := .deliver
  /-- The cycle in which it parked: lanes of one cycle, PC and cause form a sub-crew (R12). -/
  at_ : Nat := 0
  /-- The device write of its record is held or was ended (R328). -/
  writeHeld : Bool := false
  writeEnded : Bool := false
deriving DecidableEq, Repr

/-- A word that a `scpy` or `sfil` is to write: its address, its value, and whether its source was poisoned (R125). -/
structure MoveWord where
  addr : Nat
  val : Word
  bad : Bool
deriving DecidableEq, Repr

/-- What an outstanding operation does (R16). -/
inductive OpKind
  /-- A global load: `ldg`, `pldr`; `ldga` when `acq` (R143, R144, R262). -/
  | load (acq : Bool)
  /-- A global store: `stg`; `stgr` when `rel` (R143, R144). -/
  | store (rel : Bool)
  /-- A global atomic by operation code, with return (`atg`) or without (`redg`) (R145). -/
  | atomic (code : Nat) (ret : Bool)
  /-- A scratch load (R123). -/
  | lds
  /-- A scratch store (R123). -/
  | sts
  /-- A slice load (R123). -/
  | ldp
  /-- A slice store (R123). -/
  | stp
  /-- A scratch atomic by operation code (R124). -/
  | ats (code : Nat)
  /-- `scpy` from `src`, `n` bytes to the op's address (R125). -/
  | scpy (src n : Nat)
  /-- `sfil` with `value`, `n` bytes (R126). -/
  | sfil (value : Word) (n : Nat)
  /-- A `scpy` or `sfil` under way: the words that it is still to read into its buffer, each with the address it goes to, then those that it
  is still to write (R125, R126). -/
  | moves (reads : List (Nat × Nat)) (writes : List MoveWord)
  /-- `sldg` (R83). -/
  | sldg
  /-- `slds` (R83). -/
  | slds
  /-- `cfind` of a key in a table at a time (R252), and the sweep that counts it as a user (R245). -/
  | cfind (table : Nat) (key time : DWord) (sweep : Option Nat)
  /-- `cclr` of a table (R253). -/
  | cclr (table : Nat)
  /-- `bisx` with its operands (R206). -/
  | bisx (sa sb : Nat) (x y oa ob : Word)
  /-- `cpyst` (R226). -/
  | cpyst
  /-- `ftpoll` of a stage (R241). -/
  | ftpoll (stage : Nat)
  /-- `lnch` of a packet (R309). -/
  | lnch
  /-- A waiting `qpull` (R312). -/
  | qpull (mask : Nat)
  /-- A message under way whose status is outstanding (R313). -/
  | amsg (message : Nat)
  /-- `xred`: the flag count of a term not yet applied (R173). -/
  | xred (index : Nat)
  /-- `ltset`, `ltinc` or `ltdrop`: its count stays until its drops are made (R237). -/
  | timeDrop
deriving DecidableEq, Repr

/-- Where an operation's result goes. -/
inductive Dest
  /-- Nowhere. -/
  | none
  /-- Lane registers from an operand on. -/
  | lane (d : LOp)
  /-- Uniform registers, by number, not superseded yet (R84). -/
  | uni (regs : List Nat)
deriving DecidableEq, Repr

/-- An outstanding operation. Numbers rise in issue order. -/
structure Op where
  id : Nat
  kind : OpKind
  crew : Nat
  /-- The threads whose access it is: one, or the run when it is performed once (R34). -/
  lanes : List Nat
  flag : Option Nat
  dest : Dest
  /-- Virtual or local address. -/
  addr : Nat
  /-- Physical address of a global access. -/
  pa : Nat
  width : Nat
  /-- Ordering code of R22. -/
  ord : Nat
  /-- Bytes to store, or operands of an atomic, lowest first. -/
  data : List Byte
  pc : DWord
  stage : BitVec 4
  time : DWord
  /-- The cycle in which its word issued. A crew issues one word in a cycle (R56), so crew and cycle name the issue; an access
  held for replay keeps it. -/
  at_ : Nat := 0
  /-- Of an atomic, the lanes of the run that issued it (R148). -/
  issue : List Nat := []
  /-- A load into a port that took a credit as it issued (R158). -/
  credit : Bool := false
  /-- A load of a record that goes on in another page: how many of its bytes lie before that, and the physical address of the rest (R262). -/
  split : Option (Nat × Nat) := none
deriving DecidableEq, Repr

/-- An access held for replay by a parked thread (R143, R276), or a clause fetch (R274). -/
structure Held where
  /-- The operation to issue once the page is mapped; `none` for a fetch. -/
  op : Option Op
  fetch : Bool
  write : Bool
  addr : DWord
  /-- Where the lane runs on once the access has translated, and whether that lies in its clause. -/
  after : DWord
  mid : Bool
deriving DecidableEq, Repr

/-- An outstanding peek (R164), numbered as operations are. -/
structure Peek where
  flag : Option Nat
  d : LOp
  id : Nat := 0
  /-- The head that it has read, while an earlier operation is still to write its register (R17). -/
  value : Option Word := none
deriving DecidableEq, Repr

/-- One neighbour port of a thread (R151, R156). -/
structure PortState where
  queue : List Word := []
  /-- The threads that pushed the queued entries, which get their credits back (R156, R165). -/
  senders : List (Nat × Nat) := []
  credit : Nat := 8
  peeks : List Peek := []
deriving DecidableEq, Repr

/-- A pair thread's place: its launch, its core and its place in the core's retirement order (R257, R261). -/
structure PairRef where
  launch : Nat
  core : Nat
  place : Nat
  i : Word
  j : Word
deriving DecidableEq, Repr

/-- One thread (R54, R66, R287). -/
structure Thread where
  v : Store 32 := []
  o : Store 32 := []
  q0 : Word := 0#32
  q1 : Word := 0#32
  p : BitVec 6 := 0#6
  pc : DWord := 0#64
  st : TState := .running
  stall : Option Stall := none
  /-- The PC is a word of the clause at `clhdr`, not a header. -/
  mid : Bool := false
  clhdr : DWord := 0#64
  arrival : Arrival := .fall
  yieldMark : Bool := false
  /-- Released from a join hold at the header of its PC (R58). -/
  joined : Bool := false
  starve : Nat := 0
  promoted : Bool := false
  flags : Store 4 := []
  nap : Nat := 0
  watchdog : Nat := 0
  backoff : Nat := 0
  /-- The next back-off, 64 to 4,096 cycles (R281). -/
  backoffLen : Nat := 64
  stage : BitVec 4 := 0#4
  time : DWord := 0#64
  fflags : BitVec 5 := 0#5
  xcur : Nat := 0
  xopen : Option Nat := none
  xown : Word := 0x1FF#32
  xinn : Word := 0#32
  clockHi : Option Word := none
  ports : List PortState := [{}, {}, {}, {}, {}]
  heldWord : Word := 0#32
  held : Option Held := none
  parked : Option Parked := none
  /-- Causes found as data landed or an engine job ended, to be delivered at the next header (R130, R188). -/
  deferred : List Parked := []
  inHandler : Bool := false
  qsave0 : Word := 0#32
  qsave1 : Word := 0#32
  /-- CLHDR as the delivery recorded it (R282, R286). -/
  trapHdr : DWord := 0#64
  frec : FaultRec := {}
  slice : Memory := []
  slicePoison : List Nat := []
  /-- The lines of its image of which it has written a word since they were fetched, in registers or in other state (R72). -/
  wrote : List Nat := []
  /-- Its `qpull` has ended the task whose time it still reads, and it holds no capability there (R312). -/
  freed : Bool := false
  pair : Option PairRef := none
deriving DecidableEq, Repr

/-! ### Crews -/

/-- A run and its clause (R14, R55). -/
structure Run where
  lanes : List Nat
  hdr : DWord
  /-- Absent until the clause fetch is done. -/
  hword : Option Word
  words : List Word
  /-- The next word of the clause. -/
  idx : Nat
deriving DecidableEq, Repr

/-- An outstanding `ftwait` (R240, R287). -/
structure FtWait where
  stage : Nat
  time : DWord
  flag : Nat
  lanes : List Nat
deriving DecidableEq, Repr

/-- A task-queue entry (R310). -/
structure TaskEntry where
  queue : Nat
  words : List Word
  /-- The count-table entry its capability counts in. -/
  cap : Nat
  /-- Failures so far (R290). -/
  fails : Nat := 0
  /-- The steal to which a copy of it has been replied (R291). -/
  offer : Option Nat := none
deriving DecidableEq, Repr

/-- The task a crew runs (R290, R312). -/
structure Task where
  entry : TaskEntry
  effects : Bool := false
  failed : Bool := false
  /-- The record of the thread whose kill failed it, and that thread's time. -/
  record : FaultRec := {}
  time : DWord := 0#64
  /-- Its entry's capability is held beside the squad's, which held one at the task's time already; any other's has become the squad's
  (R312). -/
  own : Bool := false
deriving DecidableEq, Repr

/-- What a crew was placed for. -/
inductive CrewKind
  /-- A crew of a squad of a launch. -/
  | ordinary
  /-- A pair crew (R260). -/
  | pair
  /-- A message-handler crew (R313). -/
  | handler
  /-- A firmware service crew (R279). -/
  | service
deriving DecidableEq, Repr, Inhabited

/-- One crew (R10, R287). -/
structure Crew where
  squad : Nat := 0
  /-- Crew index in the squad. -/
  index : Nat := 0
  slot : Nat := 0
  resident : Bool := false
  retired : Bool := false
  s : Store 32 := []
  k : BitVec 7 := 0#7
  mode : Word := 0#32
  /-- Ring mode: 1 crew ring (R153). -/
  crewRing : Bool := false
  /-- Port position: island, cluster, core and slot of the first placement (R152). -/
  portIsland : Nat := 0
  portCluster : Nat := 0
  portCore : Nat := 0
  portSlot : Nat := 0
  /-- The header of a join hold and the cycles left (R58). -/
  hold : Option (DWord × Nat) := none
  srFault : DWord := 0#64
  waits : List FtWait := []
  threads : List Thread := []
  run : Option Run := none
  /-- Selection was tried in this cycle (R55). -/
  tried : Bool := false
  /-- A word was issued in this cycle (R56). -/
  issued : Bool := false
  /-- The lines that stand in its image in memory and not in its share or the slice SRAM (R70, R114): image lines by number, slice line k as
  192 + k, each with its words as last exchanged with the image. -/
  away : AList (List Word) := []
  /-- The lines fetched from the image, with the words fetched: one that has not been written since needs no write-back (R72). -/
  fetched : AList (List Word) := []
  /-- The lines that hold state of the crew, and of any line that has changed, written since they were fetched (R72). -/
  wrote : List Nat := []
  /-- Evictable lines still in the victim's share (R72), numbered in the same way. -/
  evictable : List Nat := []
  /-- Its slice lines in the partition's slice SRAM, and the cycle of the last access to one (R114). -/
  sliceIn : List Nat := []
  sliceUsed : Nat := 0
  /-- The line whose write to the image, of what arrived for it there, or for room in the slice SRAM, is held on a translation fault
  (R328). -/
  awayHeld : Option Nat := none
  /-- The write-back of its next line is held on a translation fault (R328). -/
  lineHeld : Bool := false
  image : DWord := 0#64
  /-- The tasks it runs: one for each pull that has been served since its last `qpull` (R312). -/
  tasks : List Task := []
deriving DecidableEq, Repr

/-! ### Tensors and engine jobs -/

/-- A defined tensor identifier: descriptor words, amax ring, head and scale exponent (R99, R182). -/
structure Tensor where
  words : List Word
  ring : List (Option Word) := List.replicate 16 none
  head : Nat := 0
  sexp : Int := 0
  /-- Which binding it is, so that a record into a later binding is dropped (R198). -/
  uid : Nat := 0
  /-- Ring advances so far. -/
  advances : Nat := 0
deriving DecidableEq, Repr

/-- What an engine job does. -/
inductive JobKind
  /-- `mma`, or `mmsp` with its metadata: the block of R191, A and B. -/
  | mma (block : List Word) (a b meta_ : Option Tensor) (latch : List (List Word))
  /-- `mzero` of a tile (R197). -/
  | mzero (tile : Nat)
  /-- `mld` of a block (R197). -/
  | mld (block : List Word) (t : Tensor)
  /-- `mst` of a block (R198). -/
  | mst (block : List Word) (t : Tensor)
  /-- `madd`: tile, integer, index and value of each lane in order (R199). -/
  | madd (tile : Nat) (int : Bool) (terms : List (Word × Word))
  /-- `mpred`: predicate and mask (R200). -/
  | mpred (which : Nat) (mask : DWord)
  /-- `cpy`: spaces (true global), addresses and count (R218). -/
  | cpy (ssp dsp : Bool) (src dst count : Nat)
  /-- `cpyt` of two identifiers (R219). -/
  | cpyt (stx dtx : Tensor) (off0 off1 : Nat) (nosat : Bool)
  /-- `cpym` (R222): source, landing offset, count, mask, accepted receivers with their squad and capability. -/
  | cpym (ssp : Bool) (src loff count mask lstg : Nat) (receivers : List (Nat × Nat × Nat)) (drop : Nat)
  /-- `cins` (R251): block, tensors, table, sweep record, and whether only first records are kept. -/
  | cins (block : List Word) (p o c : Tensor) (table sweep : Nat) (first : Bool)
deriving DecidableEq, Repr

/-- A byte that a job is to write, with the bits of it that it writes. -/
structure MCell where
  addr : Nat
  mask : Byte
  val : Byte
deriving DecidableEq, Repr

/-- An engine job of a core, in issue order (R140, R186, R213). -/
structure Job where
  id : Nat
  core : Nat
  /-- The core on which its word issued: its earlier and later jobs are ordered with it wherever its squad stands (R140, R196). -/
  home : Nat := 0
  squad : Nat
  crew : Nat
  lanes : List Nat
  flag : Option Nat
  /-- The uniform register of its status word; `none` discards it. -/
  sd : Option Nat
  pc : DWord
  stage : BitVec 4
  time : DWord
  /-- The count-table entry of its capability (R229). -/
  cap : Nat
  kind : JobKind
  matrix : Bool
  started : Bool := false
  /-- Held on a translation fault at this address; recorded when `walked` (R188). -/
  fault : Option (DWord × Bool) := none
  walked : Bool := false
  /-- Chunks, elements or words done before a held access (R188, R224). -/
  done : Nat := 0
  /-- Errors met so far (R187). -/
  errs : List Nat := []
  /-- Ended by the fault service (R188). -/
  ended : Bool := false
  /-- The mask bits of a multicast's receivers that have landed or were dropped since issue (R222). -/
  landed : List Nat := []
  /-- A copy has read its source: the bytes still to be written, those of them that are poisoned, and the greatest magnitude. -/
  readDone : Bool := false
  cells : List MCell := []
  bad : List Nat := []
  amax : Option Word := none
  /-- Physical addresses of the bytes written clean so far (R130, R224). -/
  written : List Nat := []
  /-- The receivers in which a multicast has begun to land: mask bit, squad, and the bytes that it is still to get (R222, R223). -/
  unlanded : List (Nat × Nat × List MCell) := []
  /-- The record coordinates that a sweep build has read, three words a record, and the records of which one was poisoned (R224, R247). -/
  words : List Word := []
  badRecords : List Nat := []
deriving DecidableEq, Repr

/-- The A latch of the engine (R193). -/
structure Latch where
  fmt : Nat
  chunks : List (List Word)
deriving DecidableEq, Repr

/-- A crew waiting in `btn.take` (R190). -/
structure BatonWait where
  squad : Nat
  crew : Nat
  lanes : List Nat
  sd : Option Nat
  flag : Option Nat
  order : Nat
deriving DecidableEq, Repr

/-- The matrix engine with what its holder owns (R184). -/
structure Engine where
  holder : Option Nat := none
  baton : Nat := 0
  acc : Store 32 := []
  accPoison : List Nat := []
  preds : List DWord := List.replicate 8 0xFFFFFFFFFFFFFFFF#64
  latch : Option Latch := none
  /-- Each `btn.pass` with release under way: its crew, lanes, register and flag (R190). -/
  release : List BatonWait := []
deriving DecidableEq, Repr

/-! ### Expand sessions -/

/-- A registered owner of a session (R169). -/
structure XOwner where
  code : Nat
  start : Word
  length : Nat
  base : Nat := 0
  /-- Next index to apply and partial result (R171). -/
  next : Nat := 0
  part : Word := 0#32
  written : Bool := false
deriving DecidableEq, Repr

/-- A session of the expand unit (R167-R175). -/
structure Session where
  squad : Nat
  sealed : Bool := false
  owners : List XOwner := []
  /-- Owner codes of the participants by rank. -/
  ranks : List Nat := []
  total : Nat := 0
  /-- Closed flat indices that are not yet applied. -/
  closed : List Nat := []
  /-- Held terms by flat index (R172). -/
  terms : List (Nat × Word) := []
  /-- The reduction: operation and destination (R171). -/
  red : Option (Nat × LOp) := none
  lost : Nat := 0
deriving DecidableEq, Repr

/-! ### Logical time -/

/-- A count-table entry (R229). -/
structure CtEntry where
  launch : Nat
  stage : BitVec 4
  time : DWord
  count : Int
  merged : Bool := false
deriving DecidableEq, Repr

/-- A change of a core's table on its way to the aggregators (R234). -/
structure Report where
  launch : Nat
  stage : BitVec 4
  time : DWord
  delta : Int
deriving DecidableEq, Repr

/-- A frontier on its way from the chip aggregator to a core (R234); `none` is the top. -/
structure Announce where
  launch : Nat
  stage : BitVec 4
  front : Option DWord
deriving DecidableEq, Repr

/-- A capability a squad holds at a (stage, time) of its threads (R230). -/
structure SquadCap where
  stage : BitVec 4
  time : DWord
  entry : Nat
deriving DecidableEq, Repr

/-- A slot of the program-capability record (R239): for each capability that it counts the table entry that counts it, the last taken first
(log 71). -/
structure ProgCap where
  stage : BitVec 4
  time : DWord
  entries : List Nat
deriving DecidableEq, Repr

/-- A drop waiting for writes to be applied in all four views (R230, R231, R239). -/
structure Drop where
  id : Nat
  core : Nat
  entry : Nat
  /-- Operations and remote writes that must be applied first: of this squad, and of the pair squads of a launch that has ended. -/
  squad : Nat
  before : Nat
  writes : Nat
  also : List Nat := []
  /-- The time word whose flag count stays until this drop is made (R237). -/
  op : Option Nat := none
  /-- The capability is counted in the chip aggregator's image record, at this place (R235). -/
  image : Option Report := none
deriving DecidableEq, Repr

/-- A capability passing between tables (R235): incremented in the receiver, not yet dropped by the giver. Table number 576 is the
image record of the chip aggregator. -/
structure Handoff where
  id : Nat
  giver : Nat
  entry : Nat
  receiver : Nat
  launch : Nat
  stage : BitVec 4
  time : DWord
deriving DecidableEq, Repr

/-- Increments of a launch in a core's table, made for holders whose own capability another table counts, that the aggregator has not acknowledged
yet: so many of the core's reports are still to arrive (R235). -/
structure Unacked where
  id : Nat
  core : Nat
  launch : Nat
  left : Nat
deriving DecidableEq, Repr

/-! ### Cell tables and pair launches -/

/-- The state of a sweep (R245). -/
inductive SweepState
  /-- No sweep. -/
  | free
  /-- Building. -/
  | building
  /-- Complete. -/
  | complete
deriving DecidableEq, Repr

/-- A sweep record (R245). -/
structure Sweep where
  st : SweepState := .free
  time : DWord := 0#64
  stage : BitVec 4 := 0#4
  periodic : Bool := false
  h : Word := 0#32
  nx : Nat := 0
  ny : Nat := 0
  nz : Nat := 0
  obase : DWord := 0#64
  cbase : DWord := 0#64
  ccount : Nat := 0
  cells : Nat := 0
  users : Nat := 0
deriving DecidableEq, Repr

/-- A cell entry (R245). -/
structure Cell where
  ix : Int
  iy : Int
  iz : Int
  sweep : Nat
  start : Nat
  count : Nat
deriving DecidableEq, Repr

/-- A cell table (R244). -/
structure CellTable where
  bound : Option Nat := none
  sweeps : List Sweep := List.replicate 8 {}
  entries : List Cell := []
deriving DecidableEq, Repr

/-- Where a pair stands between acceptance and commit (R263-R266). -/
inductive PairStage
  /-- Accepted, not yet in a pair crew. -/
  | accepted
  /-- Its thread runs or is parked. -/
  | running
  /-- Returned with its components (R263). -/
  | returned (f : List Word)
  /-- Killed otherwise than by the fault service. -/
  | killed
  /-- Killed by the fault service (R292). -/
  | ended
  /-- Retired with the +f half waiting for an acknowledgement. -/
  | waiting
  /-- Committed, aborted or discarded. -/
  | done
deriving DecidableEq, Repr

/-- An accepted pair (R258, R261). -/
structure Pair where
  i : Nat
  j : Nat
  n : Nat
  dx : Word
  dy : Word
  dz : Word
  r2 : Word
  wrap : Bool
  icatch : Bool
  jcatch : Bool
  /-- The owner core of j. -/
  jcore : Nat
  st : PairStage := .accepted
deriving DecidableEq, Repr

/-- A pair launch on one participating core: its pairs in retirement order (R257). -/
structure PairCore where
  core : Nat
  /-- The launch has reached the core's Isthmus (R267). -/
  arrived : Bool := false
  /-- Nothing is left to enumerate: every candidate has been tested, or no further pair is created (R269). -/
  enumerated : Bool := false
  /-- How far the enumeration has come: records of its own done, and candidates of the next one tested (R257). -/
  unit : Nat := 0
  src : Nat := 0
  /-- The core's clock as the first pair of the pair crew to start next was packed (R260, R327). -/
  packedAt : DWord := 0#64
  pairs : List Pair := []
  /-- The enumeration is held on a translation fault (R188), recorded when `walked`. -/
  fault : Option (DWord × Bool) := none
  walked : Bool := false
  /-- Retirement is held on a translation fault of an accumulator (R264). -/
  rfault : Option (DWord × Bool) := none
  rwalked : Bool := false
deriving DecidableEq, Repr

/-- A pair launch (R254-R269). -/
structure PairLaunch where
  launch : Nat
  squad : Nat
  crew : Nat
  lanes : List Nat
  flag : Option Nat
  sd : Option Nat
  core : Nat
  pc : DWord
  block : List Word
  p : Tensor
  q : Tensor
  exl : Tensor
  exo : Tensor
  accq : Tensor
  accp : Tensor
  table : Nat
  sweep : Option Nat
  stage : BitVec 4
  time : DWord
  cap : Nat
  cores : List PairCore
  skip : Nat
  errs : List Nat := []
  /-- No further pair is created (R269). -/
  stop : Bool := false
  /-- Some pair was killed, or its halves refused (R266). -/
  aborted : Bool := false
  /-- The pair squads that have run its pairs: its capability's drop waits for their writes (R141). -/
  squads : List Nat := []
deriving DecidableEq, Repr

/-- A half on its way between owner cores (R264). -/
structure Half where
  id : Nat
  pairLaunch : Nat
  core : Nat
  place : Nat
  jcore : Nat
  j : Nat
  f : List Word
  /-- The reserved addresses of row i on A (R264). -/
  rows : List (Option Nat) := []
  /-- `none` on the way to B; then B's answer: applied, or refused with this error. -/
  answer : Option (Option Nat) := none
  /-- The place of its answer among those sent (R314). -/
  answeredAt : Nat := 0
  /-- It has reached B, where it is the next to be applied (R265). -/
  arrived : Bool := false
  /-- Held on a translation fault (R266). -/
  fault : Option (DWord × Bool) := none
  walked : Bool := false
deriving DecidableEq, Repr

/-! ### Ports, messages and steals in flight -/

/-- A pushed entry that has not landed (R156). -/
structure PortFlight where
  id : Nat
  crew : Nat
  lane : Nat
  port : Port
  word : Word
  /-- The sender, which gets the credit back. -/
  fromCrew : Nat
  fromLane : Nat
deriving DecidableEq, Repr

/-- A credit on its way back to a sender (R156). -/
structure CreditFlight where
  id : Nat
  crew : Nat
  lane : Nat
  port : Port
  count : Nat
deriving DecidableEq, Repr

/-- An active message (R313). -/
structure Message where
  id : Nat
  launch : Nat
  target : Nat
  handler : Nat
  payload : List Word
  sender : Word
  stage : BitVec 4
  time : DWord
  /-- The sending core's table entry of its capability. -/
  core : Nat
  cap : Nat
  /-- In the receiver's queue. -/
  queued : Bool := false
  /-- The squad of the handler crew that runs it. -/
  running : Option Nat := none
deriving DecidableEq, Repr

/-- The phases of a steal (R291). -/
inductive StealPhase
  /-- The request is under way. -/
  | requested
  /-- The victim has replied with a copy. -/
  | replied
  /-- The thief's acknowledgement was accepted, and the confirmation is under way. -/
  | confirmed
  /-- The acknowledgement was answered as stale. -/
  | stale
deriving DecidableEq, Repr

/-- A steal (R291). -/
structure Steal where
  id : Nat
  crew : Nat
  victim : Nat
  entry : Option TaskEntry
  phase : StealPhase := .requested
  /-- Cycles since the reply. -/
  age : Nat := 0
  reclaimed : Bool := false
  /-- The queue mask of the pull that it serves. -/
  mask : Nat := 0
  /-- The thief has been stopped, reset or gated since, and has discarded its copy. -/
  discarded : Bool := false
deriving DecidableEq, Repr

/-! ### Squads and launches -/

/-- Where a squad stands (R289). -/
inductive SquadState
  /-- Not yet placed. -/
  | unplaced
  /-- Resident on its core. -/
  | resident
  /-- Being stopped. -/
  | stopping
  /-- Held as an image. -/
  | held
  /-- Retired. -/
  | retired
deriving DecidableEq, Repr, Inhabited

/-- One squad, its squad state and what its image holds (R288). -/
structure Squad where
  launch : Nat := 0
  kind : CrewKind := .ordinary
  /-- `sr.squad` (R303). -/
  index : Nat := 0
  cluster : Nat := 0
  core : Nat := 0
  st : SquadState := .unplaced
  pinned : Bool := false
  /-- Landing home (R221). -/
  home : Nat := 0
  frame : Nat := 0
  image : DWord := 0#64
  /-- The trap vector, which its launch's packet gives (R282, R288). -/
  trapVec : DWord := 0#64
  crews : List Nat := []
  /-- Scratch: bytes, unit numbers, contents, poisoned words (R116-R119, R123). -/
  allot : Nat := 0
  units : List Nat := []
  scratch : Memory := []
  scratchPoison : List Nat := []
  tx : AList Tensor := []
  /-- Crews that have arrived at the barrier (R61). -/
  arrived : List Nat := []
  caps : List SquadCap := []
  progCaps : List ProgCap := []
  tasks : List TaskEntry := []
  /-- The engine and the session saved with the image (R168, R184). -/
  savedEngine : Option Engine := none
  savedSession : Option Session := none
  /-- Waiting `btn.take`s saved with the image (R190, R289). -/
  savedTakes : List BatonWait := []
  /-- Its slots, units and identifier entries have gone back to the core (R289). -/
  out : Bool := false
  /-- The 4 KiB pieces of its image that are still to be written: 85 of squad state, then its scratch units (R119, R288). -/
  pieces : List Nat := []
  /-- Which free bytes its squad state was written as (R288: the contents are not published). -/
  stamp : Nat := 0
  /-- The address at which a write of its image is held on a translation fault (R328). -/
  saveHeld : Option Nat := none
  /-- Placement order, for R307. -/
  placedAt : Nat := 0
deriving DecidableEq, Repr, Inhabited

/-- A launch packet (R299). -/
structure Packet where
  crews : Nat := 1
  producer : Nat := 0
  regs : Nat := 0
  pairSlots : Nat := 0
  hslots : Nat := 0
  prio : Nat := 0
  persist : Bool := false
  sys : Bool := false
  sqpc : Nat := 1
  cpb : Nat := 1
  bps : Nat := 1
  spans : Nat := 1
  scratch : Nat := 0
  space : Nat := 0
  stStage : BitVec 4 := 0#4
  entry : DWord := 0#64
  stTime : DWord := 0#64
  trapVec : DWord := 0#64
  sumTab : DWord := 0#64
  txTab : DWord := 0#64
  txMask : DWord := 0#64
  hTab : DWord := 0#64
  simg : DWord := 0#64
  flist : DWord := 0#64
  imgBase : DWord := 0#64
  args : DWord := 0#64
  simgLen : Nat := 0
  flCap : Nat := 0
  nHand : Nat := 0
  nImg : Nat := 0
  stMask : BitVec 16 := 0#16
  nArgs : Nat := 0
  compl : DWord := 0#64
deriving DecidableEq, Repr

/-- A handler-table entry (R300). -/
structure Handler where
  pc : DWord
  msg : Bool
  task : Bool
  sunits : Nat
  hregs : Nat
deriving DecidableEq, Repr

/-- How far a write of a fault list has come (R284, R328). -/
inductive ListPhase
  /-- The entry itself is to be written. -/
  | entry
  /-- The entry is written: COUNT is to follow it. -/
  | count
  /-- The entry was not written: OVER is to be raised. -/
  | over_
  /-- No entry: LOST of a stage is to be written (R291). -/
  | lost (stage : Nat)
deriving DecidableEq, Repr

/-- An entry on its way to the fault list, or LOST of its header (R284). -/
structure ListEntry where
  id : Nat
  launch : Nat
  /-- The core on which its thread stood: its cluster's fault buffer takes a fault of the write (R328), and it gets the permit back. -/
  core : Nat
  record : FaultRec
  time : DWord
  /-- The lane whose permit returns when the entry is accepted (R281). -/
  permit : Option (Nat × Nat)
  phase : ListPhase := .entry
  writeHeld : Bool := false
  writeEnded : Bool := false
deriving DecidableEq, Repr

/-- A launch from its acceptance to its end (R299-R304). -/
structure Launch where
  handle : BitVec 16 := 0#16
  part : Nat := 0
  pkt : Packet := {}
  /-- Path summaries by 16 * from + to, as the entry words of R228. -/
  sums : Store 32 := []
  /-- The path summaries as the packet gave them: the frontiers of its start come from them (R234). -/
  startSums : Store 32 := []
  handlers : List Handler := []
  /-- Scratch image, initial identifiers and arguments read at acceptance (R301). -/
  simgBytes : List Byte := []
  txWords : List (Nat × List Word) := []
  argWords : List Word := []
  /-- Accepted but held by the driver (R319). -/
  awaitStart : Bool := false
  /-- Bindings: stack's clusters and cohort clusters by cohort index (R305). -/
  bound : Bool := false
  cohorts : List Nat := []
  frames : List Nat := []
  /-- Ranges of unplaced squads by core (R306). -/
  ranges : AList (List Nat) := []
  /-- Squads of each cohort that are not handed to a core yet (R306). -/
  unhanded : AList (List Nat) := []
  /-- The starting capability is held (R230). -/
  startCap : Bool := true
  /-- Counts at the chip aggregator, image records among them (R234, R235). -/
  counts : List Report := []
  fcount : Nat := 0
  fover : Nat := 0
  overflows : Nat := 0
  lost : Store 32 := []
  /-- END of R304 once the launch is ending. -/
  ending : Option Nat := none
  ended : Bool := false
  accepted : Nat := 0
  complHeld : Bool := false
  complEnded : Bool := false
deriving DecidableEq, Repr

/-- A packet handed to the chip distributor and not yet read (R301, R308, R309). -/
structure Submission where
  id : Nat
  part : Nat
  /-- The queue it came from. -/
  queue : Option Nat
  /-- The space of a device submission's packet address; a host queue's is physical. -/
  space : Option Nat
  addr : DWord
  /-- The submitting launch has SYS (R309). -/
  sys : Bool
  /-- The `lnch` operation that waits for the status. -/
  op : Option Nat
deriving DecidableEq, Repr

/-! ### Cores and clusters -/

/-- The state of a context slot (R52). -/
inductive SlotState
  /-- Free. -/
  | free
  /-- Resident: its crew. -/
  | resident (crew : Nat)
  /-- Evicting: the victim. -/
  | evicting (victim : Nat)
  /-- Retiring: its retired crew. -/
  | retiring (crew : Nat)
deriving DecidableEq, Repr

/-- A translation in a TLB (R274, R275). -/
structure TlbEntry where
  space : Nat
  /-- First address and size of the page. -/
  va : Nat
  size : Nat
  pa : Nat
  w : Bool
  x : Bool
deriving DecidableEq, Repr

/-- Slots that a launch keeps on a core for pair crews and handlers (R51, R306). -/
structure Reserve where
  launch : Nat
  pair : List Nat
  handler : List Nat
deriving DecidableEq, Repr

/-- One core. -/
structure Core where
  slots : List SlotState := List.replicate 16 .free
  reserves : List Reserve := []
  /-- The waiting squad for which a distributor frees the core (R307). -/
  claim : Option Nat := none
  /-- `last[pipe]` by 2 * partition + pipe (R56). -/
  last : List Nat := List.replicate 8 15
  /-- Cycles for which a pipe is still held (R80, R101). -/
  busy : List Nat := List.replicate 8 0
  /-- Pipes served in this cycle. -/
  served : List Nat := []
  clock : DWord := 0#64
  tlb : List TlbEntry := []
  permits : Nat := 4
  engine : Engine := {}
  takes : List BatonWait := []
  session : Option Session := none
  isthmus : List Nat := []
  table : AList CtEntry := []
  merges : Nat := 0
  /-- Announced frontiers by 16 * launch + stage; `none` is the top (R234). -/
  fronts : AList (Option DWord) := []
  /-- Announcements under way to it, oldest first (R314). -/
  announces : List Announce := []
  reports : List Report := []
  /-- Accepted messages, oldest first (R313). -/
  messages : List Nat := []
  /-- The rotation of the sampler (R325). -/
  sampleSlot : Nat := 0
  /-- The crews that issued in this cycle with their run's lanes and PC, for the sampler (R325). -/
  issuedPc : List (Nat × List Nat × DWord) := []
deriving DecidableEq, Repr

/-- A fault-buffer entry (R277). -/
structure FaultEntry where
  w : Bool
  x : Bool
  e : Bool
  count : Nat
  space : Nat
  core : Nat
  slot : Nat
  lane : Nat
  addr : DWord
  pc : DWord
deriving DecidableEq, Repr

/-- One cluster (R6). -/
structure Cluster where
  faults : List (Option FaultEntry) := List.replicate 8 none
  dropped : Bool := false
  gen : BitVec 8 := 0#8
  tables : List CellTable := [{}, {}, {}, {}]
  tlb : List TlbEntry := []
deriving DecidableEq, Repr

/-! ### Partitions and the module -/

/-- A submission queue (R318). -/
structure Queue where
  base : DWord := 0#64
  log : BitVec 5 := 0#5
  head : Word := 0#32
  tail : Word := 0#32
  err : Bool := false
deriving DecidableEq, Repr

/-- A profiling ring (R324). -/
structure Ring where
  base : DWord := 0#64
  period : BitVec 8 := 0#8
  log : BitVec 5 := 0#5
  wptr : Word := 0#32
  rptr : Word := 0#32
deriving DecidableEq, Repr

/-- A partition's registers and modes (R317-R319, R323, R324). -/
structure Partition where
  hwFault : Bool := false
  hwPreempt : Bool := false
  hwSched : Bool := false
  sptab : DWord := 0#64
  queues : List Queue := List.replicate 8 {}
  counters : List DWord := List.replicate 10 0#64
  /-- The high words that reads of low words latched, by requester and then by counter (R323). -/
  latches : AList (AList Word) := []
  /-- What the last read of a counter returned. -/
  readValue : Word := 0#32
  samples : Ring := {}
  events : Ring := {}
  /-- The host links to which its queues, interrupts and fault-service window are bound (R316). -/
  queueLink : Nat := 0
  irqLink : Nat := 0
  windowLink : Nat := 0
  /-- The queue served next (R308). -/
  rr : Nat := 0
  nextHandle : BitVec 16 := 1#16
  /-- The state word of the last host ctxs access (R295). -/
  ctxsValue : Word := 0#32
deriving DecidableEq, Repr

/-- A write that a remote view has not applied (R129, R133). -/
structure RemoteWrite where
  id : Nat
  /-- The view that has not applied it. -/
  dst : Nat
  src : Nat
  /-- Its place in the home order. -/
  order : Nat
  clock : List Nat
  cells : List Host.Cell
  /-- The squad whose thread or job wrote it, and the number of that operation or job: for drops. -/
  squad : Nat
  op : Nat
  /-- The threads, as crew and lane, that wrote it or have read it: for fences (R137). -/
  threads : List (Nat × Nat)
deriving DecidableEq, Repr

/-- Global memory with its four views (R129-R134). DESIGN CHOICE (log 67): spec/ gives no physical map, and every physical address has memory. -/
structure GMem where
  home : Memory := []
  views : List Memory := [[], [], [], []]
  clocks : List (List Nat) := List.replicate 4 [0, 0, 0, 0]
  pend : List RemoteWrite := []
  /-- Numbers of the poisoned 128-byte lines, rising (R130). -/
  poison : List Nat := []
  seq : Nat := 0
deriving DecidableEq, Repr

/-- An attestation report (R321). -/
structure Attestation where
  nonce : List Byte
  digest : BitVec 256
  rom : Word
  layout : Split
  spares : List Nat
  /-- The index of the one-time key that signs it. -/
  key : Nat
deriving DecidableEq, Repr

/-- A trained link: width and rate in GT/s (R316). -/
structure Link where
  width : Nat := 0
  rate : Nat := 0
deriving DecidableEq, Repr

/-- A walk under way for an engine job, a half or a lane whose fault is not recorded yet is found in their records;
this names it (R274, R276). -/
inductive Walker
  /-- A lane of a crew. -/
  | lane (crew lane : Nat)
  /-- An engine job. -/
  | job (id : Nat)
  /-- A pair half. -/
  | half (id : Nat)
  /-- The enumeration of a pair launch on a core, or its retirement there. -/
  | pair (launch core : Nat) (retire : Bool)
  /-- A device write (R328): of a fault-list entry. -/
  | list (id : Nat)
  /-- A device write of a fault record. -/
  | record (crew lane : Nat)
  /-- A device write of a completion record. -/
  | compl (launch : Nat)
  /-- A device write of a victim's line. -/
  | line (crew : Nat)
  /-- A device write of what arrived for a crew in its image. -/
  | image (crew : Nat)
  /-- A device write of a squad image. -/
  | save (squad : Nat)
deriving DecidableEq, Repr

/-- The whole machine. -/
structure State where
  /-- Events that come next, oldest first: which agent moves is data (log 2). -/
  agenda : List Event
  /-- The crew whose run issues its next word. -/
  cur : Option Nat
  /-- Counter of the free values (log 2). -/
  fresh : Nat
  /-- Numbers given to operations, jobs, crews and what is in flight. -/
  nextId : Nat
  now : Nat
  mem : GMem
  crews : AList Crew
  squads : AList Squad
  launches : AList Launch
  cores : AList Core
  /-- `sr.clock` of the cores of each island that are not listed (R63, R327). -/
  islandClocks : List DWord
  clusters : AList Cluster
  parts : AList Partition
  ops : List Op
  jobs : List Job
  pairLaunches : AList PairLaunch
  halves : List Half
  flights : List PortFlight
  credits : List CreditFlight
  messages : List Message
  steals : List Steal
  drops : List Drop
  handoffs : List Handoff
  unacked : List Unacked
  walks : AList Walker
  listEntries : List ListEntry
  submissions : List Submission
  split : Split
  bootfail : Bool
  /-- The firmware image, its signature and its version (R316, R320). -/
  fwImage : List Byte
  fwSignature : List Byte
  fwVersion : Word
  fwDigest : BitVec 256
  /-- The vendor's public key, fused into the boot ROM (R320). -/
  romKey : XmssPublic
  /-- The secret key of the module's identity, which gives its public key (`State.devicePublic`), and the vendor's certificate of that (R321). -/
  deviceSecret : XmssSecret
  deviceCert : List Byte
  romVersion : Word
  attIndex : Nat
  /-- Requests for which the counter has advanced, and which are not signed yet. -/
  attPending : List Attestation
  /-- Reports as they were returned: a signature follows from the report and its key (`State.signature`). -/
  attReports : List Attestation
  attExhausted : Bool
  powerCap : Nat
  throttled : List Nat
  spares : List Nat
  offline : List Nat
  gated : List Nat
  links : List Link
  /-- Interrupts to drivers: the partition and the link it is bound to (R279, R316). -/
  irqs : List (Nat × Nat)
  powered : Bool
  /-- What the last AtomicOp of the host returned (R139). -/
  hostValue : DWord
  /-- The launches that end with END 4, since a write of an image of theirs was not made (R328). -/
  imageEnds : List Nat
deriving DecidableEq, Repr

/-- The machine right after a module reset. Values that spec/ does not give are named in log 3 and log 5. -/
def State.reset : State :=
  { agenda := [], cur := none, fresh := 0, nextId := 1, now := 0, mem := {}, crews := [], squads := [], launches := [],
    cores := [], islandClocks := [0#64, 0#64, 0#64, 0#64], clusters := [], parts := [], ops := [], jobs := [], pairLaunches := [], halves := [], flights := [],
    credits := [], messages := [], steals := [], drops := [], handoffs := [], unacked := [], walks := [], listEntries := [],
    submissions := [], split := .one, bootfail := false, fwImage := [], fwSignature := [], fwVersion := 0#32, fwDigest := 0#256,
    romKey := Config.vendorKey, deviceSecret := Config.identity, deviceCert := Config.certificate, romVersion := 0#32, attIndex := 0,
    attPending := [], attReports := [], attExhausted := false, powerCap := 3000, throttled := [], spares := [0, 0, 0], offline := [],
    gated := [], links := [{}, {}, {}, {}, {}, {}], irqs := [], powered := true, hostValue := 0#64, imageEnds := [] }

/-- Why the model stops. -/
inductive Fault
  /-- An instruction word is executed while no run is issuing. Raised by every meaning of an instruction word when
  `State.cur` names no crew with a run in progress; no step of the machine does this. Safe: the part has no such
  step, and the model goes on in every state in which the part does. -/
  | noRun
deriving DecidableEq, Repr

/-- Why the model has no meaning for an instruction. -/
inductive Refusal
  /-- The instruction has no meaning in this model yet; raised by an arm of `exec` alone. Safe: nothing is claimed. -/
  | notModelled (mnemonic : String)
deriving DecidableEq, Repr

end Sys2Proof.Machine
end

