-- ==== Sys2Proof/Machine/Store.lean ====
section
/-! DEFINITION. Reading and writing the plain data that State is made of: sparse values by number in canonical form,
memories, and records by number. -/

namespace Sys2Proof.Machine

/-! ### Sparse values with a default -/

/-- The value at `k`: the default `d` where no entry names `k`. -/
def sparseGet {β : Type} (d : β) : List (Nat × β) → Nat → β
  | [], _ => d
  | (a, x) :: t, k => if a = k then x else sparseGet d t k

/-- Leaves out what is listed at `k`. -/
def sparseDel {β : Type} : List (Nat × β) → Nat → List (Nat × β)
  | [], _ => []
  | (a, x) :: t, k => if a = k then sparseDel t k else (a, x) :: sparseDel t k

/-- Lists the value `v` at `k`, keys rising. -/
def sparseIns {β : Type} : List (Nat × β) → Nat → β → List (Nat × β)
  | [], k, v => [(k, v)]
  | (a, x) :: t, k, v =>
    if k < a then (k, v) :: (a, x) :: t
    else if k = a then (k, v) :: t
    else (a, x) :: sparseIns t k v

/-- Makes the value at `k` be `v`; an entry that would hold the default is left out. -/
def sparsePut {β : Type} [DecidableEq β] (d : β) (l : List (Nat × β)) (k : Nat) (v : β) : List (Nat × β) :=
  if v = d then sparseDel l k else sparseIns l k v

/-- Canonical form: keys above `lo` strictly rising, and no entry holds the default. -/
def sparseWfFrom {β : Type} [DecidableEq β] (d : β) : Nat → List (Nat × β) → Bool
  | _, [] => true
  | lo, (a, x) :: t => decide (lo ≤ a) && decide (x ≠ d) && sparseWfFrom d (a + 1) t

/-- The value of number `k`, 0 where none is listed. -/
def Store.get {w : Nat} (m : Store w) (k : Nat) : BitVec w := sparseGet 0#w m k

/-- Sets the value of number `k`. -/
def Store.put {w : Nat} (m : Store w) (k : Nat) (v : BitVec w) : Store w := sparsePut 0#w m k v

/-- Canonical form of a store. -/
def Store.wf {w : Nat} (m : Store w) : Bool := sparseWfFrom 0#w 0 m

/-! ### Memories -/

/-- The byte at an address. -/
def Memory.get (m : Memory) (a : Nat) : Byte := sparseGet Memory.unlisted m a

/-- Writes the byte at an address. -/
def Memory.put (m : Memory) (a : Nat) (v : Byte) : Memory := sparsePut Memory.unlisted m a v

/-- The memory holds no entry out of order, twice, or equal to what an unlisted address reads as. -/
def Memory.wf (m : Memory) : Bool := sparseWfFrom Memory.unlisted 0 m

/-- `n` bytes from an address up. -/
def Memory.read (m : Memory) (a : Nat) : Nat → List Byte
  | 0 => []
  | n + 1 => m.get a :: Memory.read m (a + 1) n

/-- Writes bytes from an address up. -/
def Memory.write (m : Memory) (a : Nat) : List Byte → Memory
  | [] => m
  | b :: bs => Memory.write (m.put a b) (a + 1) bs

/-- Writes single cells. -/
def Memory.writeCells (m : Memory) : List Host.Cell → Memory
  | [] => m
  | (a, b) :: cs => Memory.writeCells (m.put a b) cs

/-- The cells of bytes from an address up. -/
def cellsAt (a : Nat) : List Byte → List Host.Cell
  | [] => []
  | b :: bs => (a, b) :: cellsAt (a + 1) bs

/-- The number whose bytes, lowest first, are these (R2). -/
def natOfBytes : List Byte → Nat
  | [] => 0
  | b :: bs => b.toNat + 256 * natOfBytes bs

/-- The low `n` bytes of a number, lowest first (R2). -/
def bytesOfNat : Nat → Nat → List Byte
  | 0, _ => []
  | n + 1, x => BitVec.ofNat 8 x :: bytesOfNat n (x / 256)

/-- Bytes of words, lowest first. -/
def bytesOfWords : List Word → List Byte
  | [] => []
  | w :: ws => bytesOfNat 4 w.toNat ++ bytesOfWords ws

/-- `n` 32-bit words from an address up. -/
def Memory.words (m : Memory) (a : Nat) : Nat → List Word
  | 0 => []
  | n + 1 => BitVec.ofNat 32 (natOfBytes (m.read a 4)) :: Memory.words m (a + 4) n

/-! ### Records by number -/

/-- The record of number `k`. -/
def AList.find {α : Type} : AList α → Nat → Option α
  | [], _ => none
  | (a, x) :: t, k => if a = k then some x else AList.find t k

/-- Sets the record of number `k`, keeping keys in rising order. -/
def AList.set {α : Type} : AList α → Nat → α → AList α
  | [], k, v => [(k, v)]
  | (a, x) :: t, k, v =>
    if k < a then (k, v) :: (a, x) :: t
    else if k = a then (k, v) :: t
    else (a, x) :: AList.set t k v

/-- Removes the record of number `k`. -/
def AList.del {α : Type} (l : AList α) (k : Nat) : AList α := l.filter (fun e => e.1 != k)

/-- The numbers listed. -/
def AList.keys {α : Type} (l : AList α) : List Nat := l.map Prod.fst

/-- The records listed. -/
def AList.vals {α : Type} (l : AList α) : List α := l.map Prod.snd

/-! ### Lists -/

/-- Adds a number to a set kept as a list without repeats. -/
def insertNew (x : Nat) (l : List Nat) : List Nat := if l.contains x then l else l ++ [x]

/-- Adds a number to a set kept in rising order. -/
def insertSorted (x : Nat) : List Nat → List Nat
  | [] => [x]
  | y :: ys => if x < y then x :: y :: ys else if x = y then y :: ys else y :: insertSorted x ys

/-- Replaces, in place, every element for which `p` holds. -/
def mapIf {α : Type} (p : α → Bool) (f : α → α) (l : List α) : List α := l.map (fun x => if p x then f x else x)

/-- The bits of a word as a set of numbers below `n`, rising. -/
def bitsBelow (n : Nat) (x : Nat) : List Nat := (List.range n).filter (fun i => x.testBit i)

/-- The number whose set bits are these. -/
def maskOf : List Nat → Nat
  | [] => 0
  | b :: bs => (2 ^ b) ||| maskOf bs

/-- Bits [hi:lo] of a word, as a number. -/
def bitsOf (x : Nat) (lo n : Nat) : Nat := x / 2 ^ lo % 2 ^ n

end Sys2Proof.Machine
end

