-- ==== Sys2Proof/Machine/Base.lean ====
section
/-! DEFINITION. Finding and changing one unit of the machine: a core, a cluster, a launch, a squad, a crew, a thread,
a run; and the run that issues a word. -/

namespace Sys2Proof.Machine

/-! ### Units by number -/

/-- A crew by number. -/
def State.crew (s : State) (c : Nat) : Crew := (s.crews.find c).getD {}

/-- Replaces a crew. -/
def State.setCrew (s : State) (c : Nat) (cr : Crew) : State := { s with crews := s.crews.set c cr }

/-- Changes a crew. -/
def State.modCrew (s : State) (c : Nat) (f : Crew → Crew) : State := s.setCrew c (f (s.crew c))

/-- A lane's thread. -/
def Crew.thread (cr : Crew) (l : Nat) : Thread := cr.threads.getD l {}

/-- Replaces a lane's thread. -/
def Crew.setThread (cr : Crew) (l : Nat) (t : Thread) : Crew := { cr with threads := cr.threads.set l t }

/-- Changes a lane's thread. -/
def Crew.modThread (cr : Crew) (l : Nat) (f : Thread → Thread) : Crew := cr.setThread l (f (cr.thread l))

/-- A lane's thread of a crew by number. -/
def State.thread (s : State) (c l : Nat) : Thread := (s.crew c).thread l

/-- Changes one thread. -/
def State.modThread (s : State) (c l : Nat) (f : Thread → Thread) : State := s.modCrew c (fun cr => cr.modThread l f)

/-- Changes the threads of some lanes, in the order listed. -/
def State.modThreads (s : State) (c : Nat) (lanes : List Nat) (f : Nat → Thread → Thread) : State :=
  lanes.foldl (fun s l => s.modThread c l (f l)) s

/-- A squad by number. -/
def State.squad (s : State) (q : Nat) : Squad := (s.squads.find q).getD {}

/-- Changes a squad. -/
def State.modSquad (s : State) (q : Nat) (f : Squad → Squad) : State :=
  { s with squads := s.squads.set q (f (s.squad q)) }

/-- A launch by number. -/
def State.launch (s : State) (k : Nat) : Launch := (s.launches.find k).getD {}

/-- Changes a launch. -/
def State.modLaunch (s : State) (k : Nat) (f : Launch → Launch) : State :=
  { s with launches := s.launches.set k (f (s.launch k)) }

/-- A core by number: island * 144 + cluster * 12 + exposed core (R6, R7). -/
def State.core (s : State) (k : Nat) : Core := (s.cores.find k).getD { clock := s.islandClocks.getD (k / 144) 0#64 }

/-- Changes a core. -/
def State.modCore (s : State) (k : Nat) (f : Core → Core) : State := { s with cores := s.cores.set k (f (s.core k)) }

/-- A cluster by number: island * 12 + cluster. -/
def State.cluster (s : State) (k : Nat) : Cluster := (s.clusters.find k).getD {}

/-- Changes a cluster. -/
def State.modCluster (s : State) (k : Nat) (f : Cluster → Cluster) : State :=
  { s with clusters := s.clusters.set k (f (s.cluster k)) }

/-- A partition by number. -/
def State.part (s : State) (k : Nat) : Partition := (s.parts.find k).getD {}

/-- Changes a partition. -/
def State.modPart (s : State) (k : Nat) (f : Partition → Partition) : State :=
  { s with parts := s.parts.set k (f (s.part k)) }

/-- Takes the next number for an operation, a job or a thing in flight. -/
def State.takeId (s : State) : Nat × State := (s.nextId, { s with nextId := s.nextId + 1 })

/-! ### Where things are -/

/-- The island of a core. -/
def islandOfCore (k : Nat) : Nat := k / 144

/-- The cluster of a core, of 48. -/
def clusterOfCore (k : Nat) : Nat := k / 12

/-- The cores of a cluster. -/
def coresIn (cluster : Nat) : List Nat := (List.range 12).map (12 * cluster + ·)

/-- The partition of an island's core under the split in force (R317). With eight partitions each
island holds two: its first band's clusters (0-3) and those of its other two bands. -/
def State.partOfCore (s : State) (k : Nat) : Nat :=
  match s.split with
  | .one => 0
  | .two => islandOfCore k / 2
  | .four => islandOfCore k
  | .eight => islandOfCore k * 2 + (if clusterOfCore k % 12 < 4 then 0 else 1)

/-- The squad of a crew. -/
def State.squadOf (s : State) (c : Nat) : Squad := s.squad (s.crew c).squad

/-- The launch number of a crew. -/
def State.launchIdOf (s : State) (c : Nat) : Nat := (s.squadOf c).launch

/-- The launch of a crew. -/
def State.launchOf (s : State) (c : Nat) : Launch := s.launch (s.launchIdOf c)

/-- The core on which a crew is, or was last, placed. -/
def State.coreOf (s : State) (c : Nat) : Nat := (s.squadOf c).core

/-- The island on which a crew is placed. -/
def State.islandOf (s : State) (c : Nat) : Nat := islandOfCore (s.coreOf c)

/-- The address space of a crew (R274). -/
def State.spaceOf (s : State) (c : Nat) : Nat := (s.launchOf c).pkt.space

/-- The register count of a crew's launch (R67). -/
def State.regsOf (s : State) (c : Nat) : Nat := (s.launchOf c).pkt.regs

/-- The slot order of R51. -/
def slotOrder : List Nat := [0, 4, 8, 12, 1, 5, 9, 13, 2, 6, 10, 14, 3, 7, 11, 15]

/-- A crew that R42 allows to issue system instructions: in a fault-service slot, or of a SYS launch. -/
def State.systemAllowed (s : State) (c : Nat) : Bool :=
  decide ((s.squadOf c).kind = .service) || (s.launchOf c).pkt.sys

/-! ### The fabric (R314) -/

/-- The packets of the request class that are under way, each with its number and the clusters of its stops: port pushes, messages and
remote halves. -/
def State.requests (s : State) : List (Nat × Nat × Nat) :=
  s.flights.map (fun f => (f.id, clusterOfCore (s.coreOf f.fromCrew), clusterOfCore (s.coreOf f.crew)))
    ++ (s.messages.filter (fun m => !m.queued && m.running.isNone)).map (fun m => (m.id, clusterOfCore m.core, clusterOfCore m.target))
    ++ (s.halves.filter (fun h => h.answer.isNone && !h.arrived)).map (fun h => (h.id, clusterOfCore h.core, clusterOfCore h.jcore))

/-- A packet of the request class arrives after those that were sent before it from its stop to the same other stop (R314). -/
def State.mayArrive (s : State) (id src dst : Nat) : Bool :=
  src == dst || s.requests.all (fun r => !(decide (r.1 < id) && r.2.1 == src && r.2.2 == dst))

/-! ### Registers of a thread and of a crew -/

/-- Reads a lane operand as a 32-bit word (R29). A port's word is popped by the word's own effect and does not come
from here. -/
def Thread.readW (t : Thread) (lane : Nat) : LOp → Word
  | .v r => t.v.get r.val
  | .o r => t.o.get r.val
  | .q0 => t.q0
  | .q1 => t.q1
  | .p r => Word.ofBool (t.p.getLsbD r.val)
  | .pt => 1#32
  | .lid => BitVec.ofNat 32 lane
  | .port _ => 0#32
  | .zero => 0#32

/-- The operand `k` registers above `x`: the odd register of a pair, the registers of a quad. -/
def lopPlus (x : LOp) (k : Nat) : LOp :=
  match x with
  | .v r => if h : r.val + k < 104 then .v ⟨r.val + k, h⟩ else .zero
  | .o r => if h : r.val + k < 8 then .o ⟨r.val + k, h⟩ else .zero
  | _ => .zero

/-- Reads a pair (R31). -/
def Thread.readD (t : Thread) (lane : Nat) (x : LOp) : DWord :=
  Word.pair (t.readW lane x) (t.readW lane (lopPlus x 1))

/-- Lines of its image that a thread writes, whatever it writes there (R72). -/
def Thread.mark (t : Thread) (lines : List Nat) : Thread := { t with wrote := lines.foldl (fun w n => insertNew n w) t.wrote }

/-- Writes a 32-bit word to a lane destination (R29). Codes that are no destination are refused before. -/
def Thread.writeW (t : Thread) (x : LOp) (w : Word) : Thread :=
  match x with
  | .v r => { t with v := t.v.put r.val w, wrote := insertNew r.val t.wrote }
  | .o r => { t with o := t.o.put r.val w, wrote := insertNew (104 + r.val) t.wrote }
  | .p r => { t with p := if w = 0#32 then t.p &&& ~~~(1#6 <<< r.val) else t.p ||| (1#6 <<< r.val), wrote := insertNew 114 t.wrote }
  | _ => t

/-- Writes words to a destination and the registers above it. -/
def Thread.writeWs (t : Thread) (x : LOp) : List Word → Thread
  | [] => t
  | w :: ws => Thread.writeWs (t.writeW x w) (lopPlus x 1) ws

/-- Writes `q0` and `q1`. -/
def Thread.putQ (t : Thread) (a b : Word) : Thread := { t with q0 := a, q1 := b, wrote := insertNew 113 (insertNew 112 t.wrote) }

/-- Moves `q0` into `q1` and a result into `q0` (R30). -/
def Thread.moveQ (t : Thread) (w : Word) : Thread := t.putQ w t.q0

/-- Reads a uniform operand as a 32-bit word (R28, R82). -/
def Crew.readU (cr : Crew) : UOp → Word
  | .s r => cr.s.get r.val
  | .k r => Word.ofBool (cr.k.getLsbD r.val)
  | .kt => 1#32
  | .zero => 0#32
  | .reserved _ => 0#32
  | .const c => BitVec.ofNat 32 c.val
  | .lit w => w

/-- Reads a uniform pair (R82): a constant is zero-extended, a literal sign-extended. -/
def Crew.readUD (cr : Crew) : UOp → DWord
  | .s r => Word.pair (cr.s.get r.val) (cr.s.get (r.val + 1))
  | .const c => BitVec.ofNat 64 c.val
  | .lit w => w.signExtend 64
  | _ => 0#64

/-- Writes a uniform register by number: its line of 32 words is written (R72, R287). -/
def Crew.putS (cr : Crew) (r : Nat) (w : Word) : Crew := { cr with s := cr.s.put r w, wrote := insertNew (132 + r / 32) cr.wrote }

/-- Writes a uniform destination (R28, R29). -/
def Crew.writeU (cr : Crew) (x : UOp) (w : Word) : Crew :=
  match x with
  | .s r => cr.putS r.val w
  | .k r => { cr with k := if w = 0#32 then cr.k &&& ~~~(1#7 <<< r.val) else cr.k ||| (1#7 <<< r.val), wrote := insertNew 137 cr.wrote }
  | _ => cr

/-- Writes words to uniform registers from number `r` up. -/
def Crew.writeUs (cr : Crew) (r : Nat) : List Word → Crew
  | [] => cr
  | w :: ws => Crew.writeUs (cr.putS r w) (r + 1) ws

/-! ### The run that issues -/

/-- The run whose next word is issued, with its crew. -/
structure Issuer where
  /-- Number of the crew. -/
  c : Nat
  cr : Crew
  run : Run
deriving DecidableEq, Repr

/-- The run that issues: the run in progress of the crew that the arbiter chose (R56). -/
def State.issuer (s : State) : Option Issuer :=
  match s.cur with
  | none => none
  | some c =>
    match (s.crew c).run with
    | none => none
    | some r => some { c := c, cr := s.crew c, run := r }

/-- The threads of the run, ascending. -/
def Issuer.lanes (x : Issuer) : List Nat := x.run.lanes

/-- The lowest lane of the run. -/
def Issuer.lowest (x : Issuer) : Nat := x.run.lanes.headD 0

/-- The address of a word of a clause: the header stands before word 0. -/
def Run.wordAddr (r : Run) (idx : Nat) : DWord := r.hdr + BitVec.ofNat 64 (4 * (idx + 1))

/-- The address of the word that issues. -/
def Issuer.pc (x : Issuer) : DWord := x.run.wordAddr x.run.idx

/-- The address of the next header. -/
def Issuer.nextHdr (x : Issuer) : DWord := x.run.wordAddr x.run.words.length

/-- A field of the clause header (R15). -/
def Run.field (r : Run) (lo n : Nat) : Nat := bitsOf ((r.hword.getD 0#32).toNat) lo n

/-- The flag that SETA names, if any (R15). -/
def Issuer.seta (x : Issuer) : Option Nat := if x.run.field 12 4 < 12 then some (x.run.field 12 4) else none

/-- The flag that SETB names, if any (R15). -/
def Issuer.setb (x : Issuer) : Option Nat := if x.run.field 8 4 < 12 then some (x.run.field 8 4) else none

/-- The Y bit of the clause (R15). -/
def Issuer.yields (x : Issuer) : Bool := x.run.field 7 1 = 1

/-- A word of `n` words is the last instruction of its clause (R18). -/
def Issuer.isLast (x : Issuer) (n : Nat) : Bool := x.run.idx + n = x.run.words.length

/-! ### Leaving and ending a run -/

/-- Takes threads out of a crew's run. The run ends when its last thread leaves it (R55). -/
def Crew.leaveRun (cr : Crew) (lanes : List Nat) : Crew :=
  match cr.run with
  | none => cr
  | some r =>
    let rest := r.lanes.filter (fun l => !lanes.contains l)
    { cr with run := if rest.isEmpty then none else some { r with lanes := rest } }

/-- The word of `n` words has issued: every thread still in the run stands at the word after it, and the run ends when
that was the clause's last word (R14, R55). -/
def Crew.advance (cr : Crew) (n : Nat) : Crew :=
  match cr.run with
  | none => cr
  | some r =>
    let idx := r.idx + n
    let last := decide (r.words.length ≤ idx)
    let pc := r.wordAddr idx
    let cr := r.lanes.foldl (fun cr l => cr.modThread l (fun t =>
      { t with pc := pc, mid := !last, arrival := .fall, starve := 0, watchdog := 0 })) cr
    { cr with run := if last then none else some { r with idx := idx } }

/-- The word after this one, for every thread of the run still in it. -/
def State.advance (s : State) (c n : Nat) : State := s.modCrew c (fun cr => cr.advance n)

/-- A control transfer: the threads listed stand at the header at `target`, and leave the run. -/
def Crew.transfer (cr : Crew) (lanes : List Nat) (target : DWord) (how : Arrival) : Crew :=
  let cr := lanes.foldl (fun cr l => cr.modThread l (fun t =>
    { t with pc := target, mid := false, arrival := how, starve := 0, watchdog := 0 })) cr
  cr.leaveRun lanes

/-- The threads listed leave the run stalled at the word that issues (R19). -/
def State.stall (s : State) (c : Nat) (lanes : List Nat) (why : Stall) : State :=
  s.modCrew c (fun cr =>
    (lanes.foldl (fun cr l => cr.modThread l (fun t => { t with stall := some why, starve := 0 })) cr).leaveRun lanes)

/-- Holds the pipe of the issuing word for seven cycles more (R80, R101). -/
def State.holdPipe (s : State) (c : Nat) (uniform : Bool) : State :=
  let p := 2 * ((s.crew c).slot / 4) + (if uniform then 1 else 0)
  s.modCore (s.coreOf c) (fun k => { k with busy := k.busy.set p 8 })

/-! ### Flag counts (R16) -/

/-- Adds one outstanding operation to a flag. -/
def Thread.flagAdd (t : Thread) (f : Nat) : Thread := { t.mark [115 + f / 8] with flags := t.flags.put f (t.flags.get f + 1#4) }

/-- Removes one outstanding operation from a flag. -/
def Thread.flagSub (t : Thread) (f : Nat) : Thread := { t with flags := t.flags.put f (t.flags.get f - 1#4) }

/-- Adds one to a flag, if any, of the threads listed. -/
def State.flagAdd (s : State) (c : Nat) (lanes : List Nat) (f : Option Nat) : State :=
  match f with
  | none => s
  | some f => s.modThreads c lanes (fun _ t => t.flagAdd f)

/-- Removes one from a flag, if any, of the threads listed. -/
def State.flagSub (s : State) (c : Nat) (lanes : List Nat) (f : Option Nat) : State :=
  match f with
  | none => s
  | some f => s.modThreads c lanes (fun _ t => t.flagSub f)

/-- Some listed thread's flag counts 15 operations. -/
def State.flagFull (s : State) (c : Nat) (lanes : List Nat) (f : Option Nat) : Bool :=
  match f with
  | none => false
  | some f => lanes.any (fun l => (s.thread c l).flags.get f == 15#4)

end Sys2Proof.Machine
end

