-- ==== Sys2Proof/Machine/Mem.lean ====
section
/-! DEFINITION. Global memory: the four island views, the home order and causal delivery (R129-R134), poisoned lines
(R130), and translation (R127, R274, R275). -/

namespace Sys2Proof.Machine

/-! ### Views -/

/-- The view of an island. -/
def GMem.view (g : GMem) (i : Nat) : Memory := g.views.getD i []

/-- The vector clock of an island (R133). -/
def GMem.clock (g : GMem) (i : Nat) : List Nat := g.clocks.getD i [0, 0, 0, 0]

/-- Every count of one clock is at most that of the other. -/
def clockLe (a b : List Nat) : Bool := (List.range 4).all (fun k => decide (a.getD k 0 ≤ b.getD k 0))

/-- A clock with the count of one island raised by one. -/
def clockTick (c : List Nat) (i : Nat) : List Nat := c.set i (c.getD i 0 + 1)

/-- Takes out of the writes still on their way to a view the bytes that a later-ordered write has now written there:
such a write is skipped when it arrives (R129). -/
def skipOverwritten (dst : Nat) (addrs : List Nat) (pend : List RemoteWrite) : List RemoteWrite :=
  mapIf (fun w => w.dst == dst) (fun w => { w with cells := w.cells.filter (fun x => !addrs.contains x.1) }) pend

/-- Applies bytes to one view. -/
def GMem.applyView (g : GMem) (i : Nat) (cells : List Host.Cell) : GMem :=
  { g with views := g.views.set i ((g.view i).writeCells cells)
           pend := skipOverwritten i (cells.map Prod.fst) g.pend }

/-- A write from an island: it takes the next place in the home order, is applied in its own island's view, and is on
its way to the three other views (R129, R133). `threads` are those whose write it is; a job's is no thread's (R146). -/
def GMem.write (g : GMem) (i : Nat) (cells : List Host.Cell) (squad op : Nat) (threads : List (Nat × Nat)) : GMem :=
  let clock := clockTick (g.clock i) i
  let g1 := { g.applyView i cells with
    home := g.home.writeCells cells, seq := g.seq + 1, clocks := g.clocks.set i clock }
  { g1 with pend := g1.pend ++ ((List.range 4).filter (· != i)).map (fun d =>
      { id := 4 * g.seq + d, dst := d, src := i, order := g.seq, clock := clock, cells := cells, squad := squad, op := op
        threads := threads }) }

/-- The causal past of an island's view has been applied in every other view, so a write of it can become visible to
all of them at one moment (R133, R136). -/
def GMem.canWriteAll (g : GMem) (i : Nat) : Bool := (List.range 4).all (fun j => clockLe (g.clock i) (g.clock j))

/-- A write from an island that all four views apply at one moment (R136 at device or system scope). -/
def GMem.writeAll (g : GMem) (i : Nat) (cells : List Host.Cell) : GMem :=
  let n := (g.clock i).getD i 0 + 1
  let g1 := (List.range 4).foldl (fun g j => g.applyView j cells) g
  { g1 with home := g.home.writeCells cells, seq := g.seq + 1
            clocks := g.clocks.map (fun c => c.set i n) }

/-- A write at system scope by the host or by the part itself: all four views apply it at one moment, and no island's
clock counts it (R142). -/
def GMem.writeSys (g : GMem) (cells : List Host.Cell) : GMem :=
  let g1 := (List.range 4).foldl (fun g j => g.applyView j cells) g
  { g1 with home := g.home.writeCells cells, seq := g.seq + 1 }

/-- A view may apply a write once it has applied every write that the write's clock counts (R133). -/
def GMem.applicable (g : GMem) (w : RemoteWrite) : Bool :=
  let c := g.clock w.dst
  (List.range 4).all (fun k =>
    if k = w.src then decide (c.getD k 0 + 1 = w.clock.getD k 0) else decide (w.clock.getD k 0 ≤ c.getD k 0))

/-- Takes out of the writes on their way to a view the bytes that a write just applied there has written after them in the home order. -/
def skipEarlier (w : RemoteWrite) (pend : List RemoteWrite) : List RemoteWrite :=
  mapIf (fun x => x.dst == w.dst && decide (x.order < w.order))
    (fun x => { x with cells := x.cells.filter (fun y => !(w.cells.map Prod.fst).contains y.1) }) pend

/-- A write reaches another island's view; what it overtakes there is skipped (R129). -/
def GMem.applyRemote (g : GMem) (w : RemoteWrite) : GMem :=
  let c := g.clock w.dst
  { g with views := g.views.set w.dst ((g.view w.dst).writeCells w.cells)
           clocks := g.clocks.set w.dst (c.set w.src (w.clock.getD w.src 0))
           pend := skipEarlier w (g.pend.filter (fun x => x.id != w.id)) }

/-- Some write on its way to a view covers one of `n` bytes from an address. -/
def GMem.pendingTo (g : GMem) (i a n : Nat) : Bool :=
  g.pend.any (fun w => w.dst == i && w.cells.any (fun x => decide (a ≤ x.1 ∧ x.1 < a + n)))

/-- A write that is on its way to some view has been applied in another. -/
def GMem.appliedIn (g : GMem) (i : Nat) (w : RemoteWrite) : Bool := w.src == i || !g.pend.any (fun x => x.dst == i && x.order == w.order)

/-- The write whose byte a view shows at an address, where it is still on its way to view `j`: of those that the view has applied, the last in
the home order, in which they stand in the list. -/
def GMem.shown (g : GMem) (i j a : Nat) : Option RemoteWrite :=
  (g.pend.filter (fun w => w.dst == j && w.cells.any (fun x => x.1 == a) && g.appliedIn i w)).getLast?

/-- Threads read bytes in a view: the writes that they so read, of those still on their way, note them (R137). -/
def GMem.noteRead (g : GMem) (i : Nat) (addrs : List Nat) (threads : List (Nat × Nat)) : GMem :=
  let ids := addrs.flatMap (fun a => (List.range 4).filterMap (fun j => (g.shown i j a).map RemoteWrite.id))
  let note (w : RemoteWrite) : RemoteWrite := { w with threads := w.threads ++ threads.filter (fun t => !w.threads.contains t) }
  { g with pend := mapIf (fun w => ids.contains w.id) note g.pend }

/-- Every write of a squad placed before a place in the home order, or issued by an operation numbered below `before`, is applied in
all four views (R141). -/
def GMem.appliedBefore (g : GMem) (squad order before : Nat) : Bool :=
  g.pend.all (fun w => !(w.squad == squad && decide (w.order < order ∨ w.op < before)))

/-- A line, or part of one, of `n` bytes from an address is poisoned (R130). -/
def GMem.poisoned (g : GMem) (a n : Nat) : Bool := g.poison.any (fun l => decide (l * 128 < a + n ∧ a < l * 128 + 128))

/-- The first poisoned byte address of a range. -/
def GMem.firstPoison (g : GMem) (a n : Nat) : Nat :=
  match g.poison.find? (fun l => decide (l * 128 < a + n ∧ a < l * 128 + 128)) with
  | some l => max a (l * 128)
  | none => a

/-- One copy job or host write that covers whole lines makes them clean (R130). -/
def GMem.cleanCovered (g : GMem) (a n : Nat) : GMem :=
  { g with poison := g.poison.filter (fun l => !decide (a ≤ l * 128 ∧ l * 128 + 128 ≤ a + n)) }

/-- A line becomes poisoned. -/
def GMem.addPoison (g : GMem) (line : Nat) : GMem := { g with poison := insertSorted line g.poison }

/-! ### Translation -/

/-- Bits [63:57] of an address all equal bit 56 (R127). -/
def canonical (va : Nat) : Bool := va % 2 ^ 64 / 2 ^ 56 = 0 ∨ va % 2 ^ 64 / 2 ^ 56 = 255

/-- A level of the page table: the place and size of its index, and whether a leaf may or must stand there (R275). -/
structure Level where
  shift : Nat
  bits : Nat
  mayLeaf : Bool
  mustLeaf : Bool
deriving DecidableEq, Repr

/-- The five levels, L4 first (R275). -/
def levels : List Level :=
  [⟨48, 9, false, false⟩, ⟨39, 9, false, false⟩, ⟨30, 9, true, false⟩, ⟨21, 9, true, false⟩, ⟨16, 5, true, true⟩]

/-- The walk of a table from a level on: the translation of the page, or nothing where the address is not mapped
(R275). -/
def walkFrom (m : Memory) (space va : Nat) : List Level → Nat → Option TlbEntry
  | [], _ => none
  | lv :: rest, table =>
    let e := natOfBytes (m.read (table + 8 * bitsOf va lv.shift lv.bits) 8)
    let base := bitsOf e 12 44 * 4096
    if bitsOf e 0 1 = 0 ∨ bitsOf e 56 8 ≠ 0 ∨ bitsOf e 4 8 ≠ 0 then none
    else if bitsOf e 1 1 = 1 then
      if lv.mayLeaf = false ∨ base % 2 ^ lv.shift ≠ 0 then none
      else some { space := space, va := va / 2 ^ lv.shift * 2 ^ lv.shift, size := 2 ^ lv.shift, pa := base,
                  w := bitsOf e 2 1 = 1, x := bitsOf e 3 1 = 1 }
    else if lv.mustLeaf then none
    else walkFrom m space va rest base

/-- The page-table walk of a space, read at system scope (R274); the root is entry SPACE of the space table (R317).
DESIGN CHOICE (log 62): of a poisoned line it reads the bytes as they stand (R130). -/
def State.pageTable (s : State) (part space va : Nat) : Option TlbEntry :=
  let root := natOfBytes (s.mem.home.read ((s.part part).sptab.toNat + 8 * space) 8)
  walkFrom s.mem.home space (va % 2 ^ 57) levels root

/-- A translation covers an address of a space. -/
def TlbEntry.covers (e : TlbEntry) (space va : Nat) : Bool :=
  decide (e.space = space ∧ e.va ≤ va % 2 ^ 57 ∧ va % 2 ^ 57 < e.va + e.size)

/-- The physical address of an address that a translation covers. -/
def TlbEntry.phys (e : TlbEntry) (va : Nat) : Nat := e.pa + (va % 2 ^ 57 - e.va)

/-- Translates an address for a core: its L1 TLB, the cluster's L2 TLB, then the page walker, filling both (R274). The
replacement order is not given; log 7. -/
def State.translate (s : State) (core space va : Nat) : Option TlbEntry × State :=
  match (s.core core).tlb.find? (fun e => e.covers space va) with
  | some e => (some e, s)
  | none =>
    let fillL1 (e : TlbEntry) (s : State) : State :=
      s.modCore core (fun k => { k with tlb := (e :: k.tlb).take 64 })
    match (s.cluster (clusterOfCore core)).tlb.find? (fun e => e.covers space va) with
    | some e => (some e, fillL1 e s)
    | none =>
      match s.pageTable (s.partOfCore core) space va with
      | none => (none, s)
      | some e =>
        (some e, fillL1 e (s.modCluster (clusterOfCore core) (fun k => { k with tlb := (e :: k.tlb).take 4096 })))

/-- What translation finds for an access. -/
inductive Xlate
  /-- The physical address. -/
  | ok (pa : Nat)
  /-- No mapping: PAGE_FAULT (R276). -/
  | unmapped
  /-- A store without W, a fetch without X, or an address that is not canonical: PROTECTION (R127, R275). -/
  | denied
deriving DecidableEq, Repr

/-- The checks of one access of an agent on a core (R127, R143, R275). DESIGN CHOICE (log 67): any physical address that a page gives is one of
memory. -/
def State.access (s : State) (core space va : Nat) (write fetch : Bool) : Xlate × State :=
  if canonical va = false then (.denied, s)
  else
    match s.translate core space va with
    | (none, s) => (.unmapped, s)
    | (some e, s) => if (write && !e.w) || (fetch && !e.x) then (.denied, s) else (.ok (e.phys va), s)

/-! ### The part's own writes -/

/-- The machine with another global memory. -/
def State.setMem (s : State) (g : GMem) : State := { s with mem := g }

/-- A write at system scope of the part itself or the host, at a physical address (R142, R284, R324). -/
def State.writeSys (s : State) (pa : Nat) (bs : List Byte) : State := s.setMem (s.mem.writeSys (cellsAt pa bs))

/-- Raises a counter of a partition (R323). -/
def State.bump (s : State) (part k n : Nat) : State :=
  s.modPart part (fun p => { p with counters := p.counters.set k (p.counters.getD k 0#64 + BitVec.ofNat 64 n) })

/-- Writes a record to a ring, or drops it when the ring is full: `drop` is the counter that rises (R324). -/
def State.ringWrite (s : State) (part : Nat) (sample : Bool) (words : List Word) : State :=
  let p := s.part part
  let r := if sample then p.samples else p.events
  if r.log = 0#5 then s
  else if (r.wptr - r.rptr).toNat = 2 ^ r.log.toNat then s.bump part (if sample then 2 else 3) 1
  else
    let s := s.writeSys (r.base.toNat + 16 * (r.wptr.toNat % 2 ^ r.log.toNat)) (bytesOfWords words)
    let r := { r with wptr := r.wptr + 1#32 }
    let s := s.modPart part (fun p => if sample then { p with samples := r } else { p with events := r })
    if sample then s.bump part 1 1 else s

/-- The partition timestamp (R325, R327): counts since the partition's set-up. -/
def State.stamp (s : State) (part : Nat) : Nat := ((s.part part).counters.getD 0 0#64).toNat

/-- Writes an event record (R325). `core` is the core of the source, or of the cluster or island it serves. DESIGN CHOICE
(log 80): DIE of the chip distributor, which is on no island, is 0. -/
def State.event (s : State) (part src type core slot launch : Nat) (data : Nat) : State :=
  let die := if src = 2 then 0 else islandOfCore core
  let cl := if src = 2 ∨ src = 3 then 0 else clusterOfCore core % 12
  let co := if src ≥ 2 then 0 else core % 12
  let w0 := src * 2 ^ 28 + type * 2 ^ 24 + die * 2 ^ 22 + cl * 2 ^ 18 + co * 2 ^ 14 + slot * 2 ^ 10
  let w1 := (s.launch launch).handle.toNat * 2 ^ 16 + data % 2 ^ 16
  let st := s.stamp part
  s.ringWrite part false [BitVec.ofNat 32 w0, BitVec.ofNat 32 w1, BitVec.ofNat 32 st, BitVec.ofNat 32 (st / 2 ^ 32)]

end Sys2Proof.Machine
end

