-- ==== Sys2Proof/Machine/Session.lean ====
section
/-! DEFINITION. What the expand unit does by itself: dealing, closing iterations, and applying terms in order (R167-R175). -/

namespace Sys2Proof.Machine

/-! ### Writes of one register (R17), and peeks (R164) -/

/-- Words of a register operand for an access of `w` bytes. -/
def wordsOfWidth (w : Nat) : Nat := if w = 16 then 4 else if w = 8 then 2 else 1

/-- Two ranges share a byte. -/
def overlap (a n b m : Nat) : Bool := decide (a < b + m ∧ b < a + n)

/-- Two destinations of `n` and `m` bytes share a register (R17). -/
def Dest.clash (n m : Nat) (a b : Dest) : Bool :=
  match a, b with
  | .lane (.v r), .lane (.v r') => overlap r.val (wordsOfWidth n) r'.val (wordsOfWidth m)
  | .lane (.o r), .lane (.o r') => overlap r.val (wordsOfWidth n) r'.val (wordsOfWidth m)
  | .lane x, .lane y => x == y && x != .zero
  | _, _ => false

/-- Two operations of one crew have a thread in common. -/
def Op.sameThread (e op : Op) : Bool := e.crew == op.crew && e.lanes.any op.lanes.contains

/-- The peeks outstanding of a thread. -/
def Thread.peeks (t : Thread) : List Peek := t.ports.flatMap PortState.peeks

/-- An earlier write of a thread to the register of a peek is outstanding: an operation's or another peek's (R17). -/
def State.peekWaits (s : State) (c l : Nat) (k : Peek) : Bool :=
  s.ops.any (fun op => op.crew == c && op.lanes.contains l && decide (op.id < k.id) && op.dest.clash op.width 4 (.lane k.d))
    || (s.thread c l).peeks.any (fun e => decide (e.id < k.id) && Dest.clash 4 4 (.lane e.d) (.lane k.d))

/-- A thread of the operation has an earlier peek outstanding that writes one of its registers (R17). -/
def State.peekBefore (s : State) (op : Op) : Bool :=
  op.lanes.any (fun l => (s.thread op.crew l).peeks.any (fun k => decide (k.id < op.id) && Dest.clash 4 op.width (.lane k.d) op.dest))

/-- A thread of the operation has an earlier operation or peek outstanding that writes one of its registers, and is to land first (R17). -/
def State.writeWaits (s : State) (op : Op) : Bool :=
  s.ops.any (fun e => decide (e.id < op.id) && e.sameThread op && e.dest.clash e.width op.width op.dest) || s.peekBefore op

/-- Completes the peeks of a thread that have read their head and wait for no earlier write of their register; one after another, as
one may be what the next waits for (R17, R164). -/
def State.settlePeeks (s : State) (c l : Nat) : Nat → State
  | 0 => s
  | n + 1 =>
    match (s.thread c l).peeks.find? (fun k => k.value.isSome && !s.peekWaits c l k) with
    | none => s
    | some k =>
      let s := s.modThread c l (fun t =>
        let t := { t with ports := t.ports.map (fun p => { p with peeks := p.peeks.filter (fun e => e.id != k.id) }) }
        if t.st = .exited then t else t.writeW k.d (k.value.getD 0#32))
      State.settlePeeks (s.flagSub c [l] k.flag) c l n

/-- Completes the peeks of some threads of a crew that may now write. -/
def State.settleLanes (s : State) (c : Nat) (lanes : List Nat) : State :=
  lanes.foldl (fun s l => s.settlePeeks c l (s.thread c l).peeks.length) s

/-! ### Sessions -/

/-- The session of a squad: in the core's unit, or in the squad's image (R168). -/
def State.sessionOf (s : State) (q : Nat) : Option Session :=
  match (s.core (s.squad q).core).session with
  | some x => if x.squad = q then some x else (s.squad q).savedSession
  | none => (s.squad q).savedSession

/-- Replaces the session of a squad where it stands. -/
def State.setSession (s : State) (q : Nat) (x : Session) : State :=
  if (s.squad q).savedSession.isSome then s.modSquad q (fun r => { r with savedSession := some x })
  else s.modCore (s.squad q).core (fun k => { k with session := some x })

/-- The owner code of a thread: (crew << 5) | lane (R169). -/
def ownerCode (crewIndex lane : Nat) : Nat := 32 * crewIndex + lane

/-- The identity of a reduction by function code (R171). -/
def redIdentity (op : Nat) : Word := if op = 2 then 0x7FFFFFFF#32 else if op = 3 then 0x80000000#32 else 0#32

/-- One step of a reduction (R171). -/
def redStep (op : Nat) (p x : Word) : Word :=
  if op = 0 then p + x
  else if op = 1 then f32AddQuiet p x
  else if op = 2 then (if x.slt p then x else p)
  else (if p.slt x then x else p)

/-- The value held for a flat index. -/
def termOf (f : Nat) : List (Nat × Word) → Option Word
  | [] => none
  | (a, x) :: t => if a = f then some x else termOf f t

/-- Applies one owner's closed indices in ascending order (R171): the owner, and the indices applied. -/
def XOwner.run (o : XOwner) (op : Nat) (closed : List Nat) (terms : List (Nat × Word)) : Nat → XOwner × List Nat
  | 0 => (o, [])
  | n + 1 =>
    if o.next < o.base + o.length ∧ closed.contains o.next then
      let p := match termOf o.next terms with
        | some x => redStep op o.part x
        | none => o.part
      let r := XOwner.run { o with next := o.next + 1, part := p } op closed terms n
      (r.1, o.next :: r.2)
    else (o, [])

/-- Every index of an owner is applied. -/
def XOwner.complete (o : XOwner) : Bool := decide (o.base + o.length ≤ o.next)

/-- The operation in force. -/
def Session.op (x : Session) : Nat := (x.red.getD (0, .zero)).1

/-- Applies what can be applied for every owner. -/
def Session.apply (x : Session) : Session :=
  let rs := x.owners.map (fun o => o.run x.op x.closed x.terms (x.closed.length + 1))
  let done := (rs.map Prod.snd).flatten
  { x with owners := rs.map Prod.fst
           closed := x.closed.filter (fun f => !done.contains f)
           terms := x.terms.filter (fun t => !done.contains t.1) }

/-- An index whose turn has come and gone: nothing of it is still to be applied. -/
def Session.applied (x : Session) (f : Nat) : Bool := x.owners.any (fun o => decide (o.base ≤ f ∧ f < o.next))

/-- The last flat index of an owner's range. -/
def XOwner.last (o : XOwner) : Nat := o.base + o.length - 1

/-- The count of a reduction's term. -/
def OpKind.isRed : OpKind → Bool
  | .xred _ => true
  | _ => false

/-- The index of a squad's outstanding `xred`. -/
def State.redIndex (s : State) (q : Nat) (op : Op) : Option Nat :=
  match op.kind with
  | .xred f => if (s.crew op.crew).squad = q then some f else none
  | _ => none

/-- The indices whose terms complete a register that their own thread has an earlier write outstanding to: the reduction's waits (R17). -/
def State.redsHeld (s : State) (q : Nat) : List Nat := (s.ops.filter s.writeWaits).filterMap (s.redIndex q)

/-- The owners to be written now: complete, not empty, not written, with a reduction fixed, and not held by an earlier write (R17, R171). -/
def Session.due (x : Session) (held : List Nat) : List XOwner :=
  if x.red.isNone then [] else x.owners.filter (fun o => o.complete && decide (0 < o.length) && !o.written && !held.contains o.last)

/-- Applies terms, writes completed owners, and removes the flag counts of the terms applied (R171, R173). A register that waits for an
earlier write of its thread is written, and its count removed, after that (R17). -/
def State.settleSession (s : State) (q : Nat) : State :=
  match s.sessionOf q with
  | none => s
  | some x =>
    let r := x.apply
    let held := s.redsHeld q
    let due := r.due held
    let dest := (r.red.getD (0, .zero)).2
    let r' := { r with owners := mapIf (fun o => o.complete && r.red.isSome && !held.contains o.last) (fun o => { o with written := true }) r.owners }
    let crews := (s.squad q).crews
    let s := s.setSession q r'
    let s := due.foldl (fun s o =>
      let c := crews.getD (o.code / 32) 0
      s.modThread c (o.code % 32) (fun t => if t.st = .exited then t else t.writeW dest o.part)) s
    let isDone (op : Op) : Bool := ((s.redIndex q op).map (fun f => r.applied f && !held.contains f)).getD false
    let fin := s.ops.filter isDone
    let s := { s with ops := s.ops.filter (fun op => !isDone op) }
    fin.foldl (fun s op => (s.flagSub op.crew op.lanes op.flag).settleLanes op.crew op.lanes) s

/-- The reductions whose registers waited for earlier writes are completed, where those have landed (R17, R173). -/
def State.settleReds (s : State) : State :=
  (s.ops.filter (fun op => op.kind.isRed && op.dest != .none)).foldl (fun s op => s.settleSession (s.crew op.crew).squad) s

/-- Closes a flat index, with a term or with none (R170). -/
def State.closeIndex (s : State) (q f : Nat) (term : Option Word) : State :=
  match s.sessionOf q with
  | none => s
  | some x =>
    let terms := match term with
      | some w => x.terms ++ [(f, w)]
      | none => x.terms
    (s.setSession q { x with closed := x.closed ++ [f], terms := terms }).settleSession q

/-- The seal: bases, participants and ranks (R169). -/
def sealOwners : List XOwner → Nat → List XOwner
  | [], _ => []
  | o :: os, b => { o with base := b, next := b } :: sealOwners os (b + o.length)

/-- Puts a registration in ascending owner code. -/
def insertOwner (o : XOwner) : List XOwner → List XOwner
  | [] => [o]
  | x :: xs => if o.code < x.code then o :: x :: xs else x :: insertOwner o xs

/-- A participant's thread has exited. -/
def State.ownerExited (s : State) (q code : Nat) : Bool :=
  decide ((s.thread ((s.squad q).crews.getD (code / 32) 0) (code % 32)).st = .exited)

/-- The sum of the registered lengths. -/
def Session.lengths (x : Session) : Nat := (x.owners.map XOwner.length).sum

/-- Seals a loading session (R169). -/
def State.sealSession (s : State) (q : Nat) : State :=
  match s.sessionOf q with
  | none => s
  | some x =>
    if x.sealed then s
    else
      s.setSession q { x with
        sealed := true
        owners := sealOwners x.owners 0
        ranks := (x.owners.map XOwner.code).filter (fun k => !s.ownerExited q k)
        total := x.lengths }

/-- The owner of a flat index (R169). -/
def Session.ownerOf (x : Session) (f : Nat) : Option XOwner :=
  x.owners.find? (fun o => decide (o.base ≤ f ∧ f < o.base + o.length))

/-- The rank of a participant. -/
def Session.rank (x : Session) (code : Nat) : Option Nat := x.ranks.findIdx? (· == code)

/-- The indices still to be dealt to a rank from a cursor on. -/
def dealtFrom (n w rank cursor : Nat) : List Nat :=
  (List.range ((n + w - 1) / (max w 1) + 1)).filterMap (fun i =>
    let f := (cursor + i) * w + rank
    if f < n ∧ 0 < w then some f else none)

/-- A participant exits or is killed: its open iteration and every index still to be dealt to it are closed with no term, and
counted in LOST (R175). -/
def State.expandExit (s : State) (c l : Nat) : State :=
  let cr := s.crew c
  let t := s.thread c l
  match s.sessionOf cr.squad with
  | none => s
  | some x =>
    match x.rank (ownerCode cr.index l) with
    | none => s
    | some r =>
      if x.sealed then
        let idx := t.xopen.toList ++ dealtFrom x.total x.ranks.length r t.xcur
        let s := s.modThread c l (fun t => { t with xopen := none, xcur := t.xcur + idx.length })
        (s.setSession cr.squad { x with closed := x.closed ++ idx, lost := min 255 (x.lost + idx.length) }).settleSession
          cr.squad
      else s

end Sys2Proof.Machine
end

