-- ==== Sys2Proof/Machine/Exit.lean ====
section
/-! DEFINITION. What follows when a thread exits: its expand work, its pair, its crew's retirement, the baton and the barrier
(R54, R61, R175, R190, R263, R285). -/

namespace Sys2Proof.Machine

/-! ### Drops of capabilities -/

/-- Notes that an entry of a core's table is dropped once the writes of a squad's operations numbered below `before`, and every
write of the squad placed so far, have been applied in all four views (R141, R230). -/
def State.addDropAt (s : State) (core entry squad before : Nat) : State :=
  { s with nextId := s.nextId + 1
           drops := s.drops ++ [{ id := s.nextId, core := core, entry := entry, squad := squad, before := before
                                  writes := s.mem.seq }] }

/-- What a launch has counted in a core's table so far is to be acknowledged before drops that are noted from now on leave another table
(R235). -/
def State.awaitAck (s : State) (launch core : Nat) : State :=
  { s with nextId := s.nextId + 1
           unacked := s.unacked ++ [{ id := s.nextId, core := core, launch := launch, left := (s.core core).reports.length }] }

/-- The drop of a capability of a squad's threads: it waits for every write that they have issued so far. -/
def State.addDrop (s : State) (core entry squad : Nat) : State := s.addDropAt core entry squad s.nextId

/-- The same drop, made by a time word whose flag count stays until it is done (R237). -/
def State.addDropFor (s : State) (core entry squad : Nat) (op : Option Nat) : State :=
  let id := s.nextId
  let s := s.addDrop core entry squad
  { s with drops := mapIf (fun d => d.id == id) (fun d => { d with op := op }) s.drops }

/-- The drop of a squad's capability that the image record counts (R235): it waits for the same writes. -/
def State.addDropImage (s : State) (r : Report) (squad : Nat) : State :=
  let id := s.nextId
  let s := s.addDrop 576 0 squad
  { s with drops := mapIf (fun d => d.id == id) (fun d => { d with image := some r }) s.drops }

/-- The drop of a pair launch's capability: it waits for every write that the threads of its pairs have issued (R141). -/
def State.addDropPairs (s : State) (core entry : Nat) (squads : List Nat) : State :=
  let id := s.nextId
  let s := s.addDrop core entry 0
  { s with drops := mapIf (fun d => d.id == id) (fun d => { d with also := squads }) s.drops }

/-- Drops a capability of a squad: from its core's table, or from the image record while the squad is held (R230, R235). -/
def State.dropCap (s : State) (q entry : Nat) (stage : BitVec 4) (time : DWord) : State :=
  let r := s.squad q
  if r.out then s.addDropImage ⟨r.launch, stage, time, -1⟩ q else s.addDrop r.core entry q

/-- STAGE of a task-queue entry (R310). -/
def TaskEntry.stage (t : TaskEntry) : BitVec 4 := BitVec.ofNat 4 (bitsOf (t.words.getD 0 0#32).toNat 8 8)

/-- TIME of a task-queue entry (R310). -/
def TaskEntry.time (t : TaskEntry) : DWord := Word.pair (t.words.getD 1 0#32) (t.words.getD 2 0#32)

/-! ### Squad capabilities (R230) -/

/-- A squad has a holder at a (stage, time): a thread that has not exited or ended its task there, or a task that runs, whose entry's
capability lasts until its end (R310). -/
def State.holds (s : State) (q : Nat) (stage : BitVec 4) (time : DWord) : Bool :=
  (s.squad q).crews.any (fun c =>
    (s.crew c).threads.any (fun t => decide (t.st ≠ .exited ∧ t.stage = stage ∧ t.time = time) && !t.freed)
      || (s.crew c).tasks.any (fun k => k.entry.stage == stage && k.entry.time == time))

/-- Drops the squad capabilities that `ltset`, `ltinc` or a task has left without a holder, once the squad's writes are applied; the
flag count of the time word `op` stays until then (R230, R237). -/
def State.leaveTimes (s : State) (q : Nat) (left : List (BitVec 4 × DWord)) (op : Option Nat) : State :=
  let r := s.squad q
  let gone (k : SquadCap) : Bool := left.any (fun x => x.1 == k.stage && x.2 == k.time) && !s.holds q k.stage k.time
  let s := s.modSquad q (fun r => { r with caps := r.caps.filter (fun k => !gone k) })
  (r.caps.filter gone).foldl (fun s k =>
    if r.out then s.addDropImage ⟨r.launch, k.stage, k.time, -1⟩ q else s.addDropFor r.core k.entry q op) s

/-- The stage and time of a task. -/
def Task.place (t : Task) : BitVec 4 × DWord := (t.entry.stage, t.entry.time)

/-- Takes the first element that equals one out of a list. -/
def removeOne {α : Type} [DecidableEq α] (t : α) : List α → List α
  | [] => []
  | x :: xs => if x = t then xs else x :: removeOne t xs

/-- Ends tasks of a crew: the capability that each has held since its push goes, unless the squad has other holders at its time whose
capability it has become (R230, R310, R312). -/
def State.endTasks (s : State) (c : Nat) (done : List Task) : State :=
  let q := (s.crew c).squad
  let s := s.modCrew c (fun cr => { cr with tasks := done.foldl (fun ts t => removeOne t ts) cr.tasks })
  let s := (done.filter Task.own).foldl (fun s t => s.dropCap q t.entry.cap t.entry.stage t.entry.time) s
  s.leaveTimes q ((done.filter (fun t => !t.own)).map Task.place).eraseDups none

/-! ### The baton (R190) -/

/-- Matrix jobs of a squad that are queued or executing. -/
def State.matrixJobsOf (s : State) (q : Nat) : Nat := (s.jobs.filter (fun j => j.matrix && j.squad == q)).length

/-- The baton word as a crew of a squad reads it. -/
def State.batonWord (s : State) (q crewIndex : Nat) : Word :=
  let e := (s.core (s.squad q).core).engine
  if e.holder = some q then
    BitVec.ofNat 32 (2 ^ 31 + (if e.baton = crewIndex then 2 ^ 30 else 0) + e.baton * 2 ^ 24
      + min 8 (s.matrixJobsOf q) * 2 ^ 20)
  else if (s.squad q).savedEngine.isSome then 0x80000000#32
  else 0#32

/-- The first index, of those offered, whose crew has not retired. -/
def firstLive (s : State) (crews : List Nat) : List Nat → Option Nat
  | [] => none
  | i :: is => if (s.crew (crews.getD i 0)).retired then firstLive s crews is else some i

/-- The next crew after one in ascending crew index, wrapping, skipping retired crews; itself where no other is left. -/
def State.nextBaton (s : State) (q i : Nat) : Nat :=
  let crews := (s.squad q).crews
  let n := crews.length
  (firstLive s crews ((List.range n).map (fun k => (i + 1 + k) % (max n 1)))).getD i

/-- Ends the baton wait of one waiting run: its threads run again, and its status is written. -/
def State.grantWait (s : State) (w : BatonWait) : State :=
  let word := s.batonWord w.squad (s.crew w.crew).index
  let s := s.modThreads w.crew w.lanes (fun _ t => if t.st = .batonWait then { t with st := .running } else t)
  let s := s.flagSub w.crew w.lanes w.flag
  match w.sd with
  | some r => s.modCrew w.crew (fun cr => cr.writeUs r [word])
  | none => s

/-- Grants every waiting `btn.take` of the crew that now holds the baton. -/
def State.grantBaton (s : State) (core : Nat) : State :=
  let e := (s.core core).engine
  let mine (w : BatonWait) : Bool := e.holder == some w.squad && (s.crew w.crew).index == e.baton
  let ws := (s.core core).takes.filter mine
  let s := s.modCore core (fun k => { k with takes := k.takes.filter (fun w => !mine w) })
  ws.foldl State.grantWait s

/-- The baton goes to the next crew. -/
def State.passBaton (s : State) (q : Nat) : State :=
  let core := (s.squad q).core
  (s.modCore core (fun k => { k with engine := { k.engine with baton := s.nextBaton q k.engine.baton } })).grantBaton core

/-! ### The barrier (R61) -/

/-- Every thread of a crew is at the barrier or exited, and the crew has not retired. -/
def Crew.atBarrier (cr : Crew) : Bool :=
  !cr.retired && cr.threads.all (fun t => decide (t.st = .atBarrier ∨ t.st = .exited))

/-- Counts arrivals, and releases the barrier when every crew of the squad that has not retired has arrived. -/
def State.settleBarrier (s : State) (q : Nat) : State :=
  let crews := (s.squad q).crews.filter (fun c => !(s.crew c).retired)
  let arrived := crews.filter (fun c => (s.crew c).atBarrier)
  if arrived.length = crews.length ∧ crews ≠ [] then
    let free (t : Thread) : Thread := if t.st = .atBarrier then { t with st := .running } else t
    let s := crews.foldl (fun s c => s.modCrew c (fun cr => { cr with threads := cr.threads.map free })) s
    s.modSquad q (fun r => { r with arrived := [] })
  else s.modSquad q (fun r => { r with arrived := arrived })

/-! ### Exit -/

/-- Marks a pair of a pair launch. -/
def State.markPair (s : State) (p : PairRef) (st : PairStage) : State :=
  match s.pairLaunches.find p.launch with
  | none => s
  | some pl =>
    let cores := mapIf (fun k => k.core == p.core)
      (fun k => { k with pairs := k.pairs.modify p.place (fun x => { x with st := st }) }) pl.cores
    { s with pairLaunches := s.pairLaunches.set p.launch { pl with cores := cores } }

/-- The pair's own stage. -/
def State.pairStage (s : State) (p : PairRef) : PairStage :=
  match s.pairLaunches.find p.launch with
  | none => .done
  | some pl =>
    match pl.cores.find? (fun k => k.core == p.core) with
    | none => .done
    | some k => ((k.pairs[p.place]?).map Pair.st).getD .done

/-- The baton of a squad passes from a crew that retires, if it holds it: in the engine of its core, or in the engine that its image holds
(R190). -/
def State.leaveBaton (s : State) (q index : Nat) : State :=
  let e := (s.core (s.squad q).core).engine
  let pass (e : Engine) : Engine := if e.baton = index then { e with baton := s.nextBaton q index } else e
  let s := s.modSquad q (fun r => { r with savedEngine := r.savedEngine.map pass })
  if e.holder = some q ∧ e.baton = index then s.passBaton q else s

/-- All threads of a crew have exited: the crew retires, its slot is retiring, it passes a baton that it holds, and its task
ends (R52, R190, R312). -/
def State.retireCrew (s : State) (c : Nat) : State :=
  let cr := s.crew c
  let q := cr.squad
  let core := (s.squad q).core
  let s := s.modCrew c (fun cr => { cr with retired := true, run := none, hold := none })
  let s := if cr.resident then s.modCore core (fun k => { k with slots := k.slots.set cr.slot (.retiring c) }) else s
  (s.leaveBaton q cr.index).endTasks c (cr.tasks.filter (fun t => !t.failed))

/-- A thread waits for the baton no longer: its `btn.take` does not, once no thread of its run does (R190). -/
def State.leaveTakes (s : State) (c l : Nat) : State :=
  let mine (w : BatonWait) : Bool := w.crew == c && w.lanes.contains l
  let left (ws : List BatonWait) : List BatonWait :=
    (ws.filter (fun w => !(mine w && w.lanes == [l]))).map (fun w =>
      if mine w then { w with lanes := w.lanes.filter (· != l) } else w)
  (s.modCore (s.coreOf c) (fun k => { k with takes := left k.takes })).modSquad (s.crew c).squad (fun r =>
    { r with savedTakes := left r.savedTakes })

/-- A thread exits, or is killed (R54, R285). Its held access and its stall are gone; a pair thread's pair is returned empty,
or killed (R263, R266); a killed thread fails its crew's task (R290). -/
def State.exitThread (s : State) (c l : Nat) (killed : Bool) : State :=
  let t := s.thread c l
  if t.st = .exited then s
  else
    let s := s.expandExit c l
    let s := if t.st = .batonWait then s.leaveTakes c l else s
    -- A permit that a lane holds for a fault not yet recorded comes back (R281).
    let s : State := if (t.parked.map (fun p => decide (p.route = .walk))).getD false then
        s.modCore (s.coreOf c) (fun k => { k with permits := min 4 (k.permits + 1) })
      else s
    let s := s.modThread c l (fun t =>
      { t with st := .exited, stall := none, held := none, parked := none, deferred := [], xopen := none
               mid := false, yieldMark := false, starve := 0 })
    let s := s.modCrew c (fun cr => cr.leaveRun [l])
    let s : State := match t.pair with
      | none => s
      | some p =>
        if s.pairStage p = .running then s.markPair p (if killed then .killed else .returned []) else s
    let s : State := if killed then
        s.modCrew c (fun cr => { cr with tasks := cr.tasks.map (fun k => { k with failed := true }) })
      else s
    let cr := s.crew c
    let s := if cr.threads.all (fun t => decide (t.st = .exited)) && !cr.retired then s.retireCrew c else s
    s.settleBarrier cr.squad

end Sys2Proof.Machine
end

