-- ==== Sys2Proof/Machine/Ops.lean ====
section
/-! DEFINITION. The named operations that every meaning shares: fault records and the fault list (R283, R284), the fault
buffer (R276), TAKING AN EXCEPTION (parking, permits and delivery, R280-R282), killing (R285), the return from a handler
(R286), replay (R278), and starting an operation that a flag counts (R16). -/

namespace Sys2Proof.Machine

/-! ### Causes and records -/

/-- The code of a cause (R280). -/
def Cause.code : Cause → Nat
  | .trap => 0x01
  | .break => 0x02
  | .uniformCheck => 0x03
  | .illegalOp => 0x04
  | .illegalOperand => 0x05
  | .misaligned => 0x06
  | .protection => 0x07
  | .streamRights => 0x08
  | .baton => 0x09
  | .tensorId => 0x0A
  | .portDisconnected => 0x0B
  | .pageFault => 0x10
  | .poison => 0x11
  | .portStall => 0x12
  | .timeOrder => 0x13
  | .pairAbort => 0x14
  | .doubleTrap => 0x15

/-- The record of a cause goes to the fault list before delivery: by the cause's row, or because an engine job's completion
delivers it (R280). -/
def Cause.listed (k : Cause) (eng : Bool) : Bool :=
  eng || (match k with
    | .poison => true
    | .portStall => true
    | .timeOrder => true
    | .pairAbort => true
    | _ => false)

/-- A cause needs a trap permit (R280). -/
def Cause.needsPermit (k : Cause) (eng : Bool) : Bool := k == .pageFault || k.listed eng

/-- The fault record of a lane (R283). -/
def State.faultRec (s : State) (c l : Nat) (cause : Cause) (addr : DWord) (defer eng kill : Bool) : FaultRec :=
  let cr := s.crew c
  let t := s.thread c l
  { cause := BitVec.ofNat 6 cause.code, stage := t.stage, exp := t.xopen.isSome, pair := t.pair.isSome, eng := eng, kill := kill
    owner := if t.xopen.isSome then t.xown.setWidth 9 else 0#9
    exec := BitVec.ofNat 9 (32 * cr.index + l)
    inner := if t.xopen.isSome then t.xinn else 0#32
    defer := defer, pc := t.pc
    addr := match t.pair with
      | some p => Word.pair p.i p.j
      | none => addr }

/-- The 32 bytes of a fault record (R283). -/
def FaultRec.bytes (r : FaultRec) : List Byte :=
  let w0 := r.cause.toNat * 2 ^ 26 + r.stage.toNat * 2 ^ 22 + (if r.exp then 2 ^ 21 else 0) + (if r.pair then 2 ^ 20 else 0)
    + (if r.eng then 2 ^ 19 else 0) + (if r.kill then 2 ^ 18 else 0) + r.owner.toNat * 2 ^ 9 + r.exec.toNat
  bytesOfNat 4 w0 ++ bytesOfNat 4 r.inner.toNat ++ bytesOfNat 4 (if r.defer then 1 else 0) ++ bytesOfNat 4 0
    ++ bytesOfNat 8 r.pc.toNat ++ bytesOfNat 8 r.addr.toNat

/-- An entry is on its way to a launch's fault list (R284). `permit` is the lane whose permit its acceptance returns. -/
def State.addList (s : State) (launch core : Nat) (r : FaultRec) (time : DWord) (permit : Option (Nat × Nat)) : State :=
  { s with nextId := s.nextId + 1
           listEntries := s.listEntries ++ [{ id := s.nextId, launch := launch, core := core, record := r, time := time
                                              permit := permit }] }

/-- A walk is under way whose outcome is not recorded yet (R274). -/
def State.addWalk (s : State) (w : Walker) : State :=
  { s with nextId := s.nextId + 1, walks := s.walks.set s.nextId w }

/-! ### The fault buffer (R276, R277, R279) -/

/-- Valid entries of a fault buffer. -/
def Cluster.validFaults (k : Cluster) : Nat := (k.faults.filter Option.isSome).length

/-- Two faults coalesce: one space and one 64 KiB region. -/
def FaultEntry.coalesces (e f : FaultEntry) : Bool := e.space == f.space && e.addr.toNat / 65536 == f.addr.toNat / 65536

/-- The partition's interrupt to the driver, over the link it is bound to (R279, R316): in host-assisted mode as `rises` says; in hardware
mode for a fault that the service kernel passes on to the host. -/
def State.faultIrq (s : State) (part : Nat) (rises pass : Bool) : State :=
  let p := s.part part
  if (if p.hwFault then pass else rises) then { s with irqs := s.irqs ++ [(part, p.irqLink)] } else s

/-- Records a fault: coalesced into a valid entry, entered in a free one, or dropped (R276). -/
def State.recordFault (s : State) (f : FaultEntry) : State :=
  let cl := clusterOfCore f.core
  let part := s.partOfCore f.core
  let fs := (s.cluster cl).faults
  let join (e : FaultEntry) : FaultEntry :=
    { e with count := min (e.count + 1) 0xFFF, w := e.w || f.w, x := e.x || f.x, e := e.e || f.e }
  match fs.findIdx? (fun e => (e.map (fun e => e.coalesces f)).getD false) with
  | some i => s.modCluster cl (fun k => { k with faults := k.faults.modify i (fun e => e.map join) })
  | none =>
    match fs.findIdx? Option.isNone with
    | some i =>
      let first := (s.cluster cl).validFaults = 0
      let s := s.modCluster cl (fun k => { k with faults := k.faults.set i (some { f with count := 1 }) })
      let s := s.bump part 6 1
      s.faultIrq part first (!Config.poolServes s.fresh f.addr.toNat)
    | none =>
      let s := (s.modCluster cl (fun k => { k with dropped := true })).bump part 7 1
      s.faultIrq part true false

/-- The fault of a thread's held access. -/
def State.laneFault (s : State) (c l : Nat) : FaultEntry :=
  let t := s.thread c l
  let h := t.held.getD { op := none, fetch := true, write := false, addr := t.pc, after := t.pc, mid := t.mid }
  { w := h.write, x := h.fetch, e := false, count := 1, space := s.spaceOf c, core := s.coreOf c, slot := (s.crew c).slot
    lane := l, addr := h.addr, pc := t.pc }

/-! ### Taking an exception: parking (R280, R281) -/

/-- A core's permit comes back (R281). -/
def State.returnPermit (s : State) (core : Nat) : State :=
  s.modCore core (fun k => { k with permits := min 4 (k.permits + 1) })

/-- A lane that finds no permit leaves its run at the trapping word and backs off, each further failure doubling the
back-off up to 4,096 cycles (R281). -/
def State.backOff (s : State) (c l : Nat) : State :=
  let s := s.modThread c l (fun t =>
    { t with stall := some .permit, backoff := t.backoffLen, backoffLen := min 4096 (2 * t.backoffLen), starve := 0 })
  s.modCrew c (fun cr => cr.leaveRun [l])

/-- TAKES AN EXCEPTION for one lane: the lane leaves its run with its PC at the trapping word, takes a permit where the cause
needs one (or backs off), and is parked on the cause's route (R19, R280, R281). `held` is an access held for replay. -/
def State.parkLane (s : State) (c l : Nat) (cause : Cause) (addr : DWord) (defer eng : Bool) (held : Option Held) : State :=
  let core := s.coreOf c
  let needs := cause.needsPermit eng
  if needs && decide ((s.core core).permits = 0) then s.backOff c l
  else
    let s := if needs then s.modCore core (fun k => { k with permits := k.permits - 1 }) else s
    let route := if cause = .pageFault then Route.walk else if cause.listed eng then .list else .deliver
    let rcd := s.faultRec c l cause addr defer eng false
    let p : Parked := { cause := cause, addr := addr, defer := defer, eng := eng, route := route, at_ := s.now }
    let s := s.modThread c l (fun t =>
      { t with st := .parked, stall := none, parked := some p, held := held, starve := 0, watchdog := 0, joined := false
               backoffLen := if needs then 64 else t.backoffLen })
    let s := s.modCrew c (fun cr => cr.leaveRun [l])
    if cause = .pageFault then s.addWalk (.lane c l)
    else if cause.listed eng then
      s.addList (s.launchIdOf c) core rcd (s.thread c l).time (some (c, l))
    else s

/-- Parks some lanes with one cause, in ascending order (R13 `park`). -/
def State.park (s : State) (c : Nat) (lanes : List Nat) (cause : Cause) (addr : DWord) : State :=
  lanes.foldl (fun s l => s.parkLane c l cause addr false false none) s

/-- Parks a lane with its oldest deferred cause, where it stands at a header and no run has taken it: it is parked there before WAIT is
tested (R130, R188). Without a permit it backs off, and the cause stays (R281). -/
def State.parkDeferred (s : State) (c l : Nat) : State :=
  let cr := s.crew c
  let t := s.thread c l
  let atHeader := (t.st == .running || t.st == .heldAtJoin) && t.stall.isNone && !t.mid
    && !((cr.run.map (fun r => r.lanes.contains l)).getD false)
  match t.deferred with
  | p :: rest =>
    if cr.resident && atHeader then
      let s' := s.parkLane c l p.cause p.addr true p.eng none
      if (s'.thread c l).st = .parked then s'.modThread c l (fun t => { t with deferred := rest }) else s'
    else s
  | [] => s

/-- A cause found as data landed or as an engine job ended: delivered at the next header that the thread reaches, or at the one where it
waits (R130, R188). -/
def State.deferCause (s : State) (c l : Nat) (p : Parked) : State :=
  if (s.thread c l).st = .exited then s
  else (s.modThread c l (fun t => { t with deferred := t.deferred ++ [p] })).parkDeferred c l

/-- Stops the issue for every thread of the run and parks them (R13 `raise`). -/
def State.raise (s : State) (x : Issuer) (cause : Cause) (addr : DWord) : State := s.park x.c x.lanes cause addr

/-! ### Killing (R285) -/

/-- Kills a thread: its record goes to the fault list with KILL set, and it exits. A pair thread's has cause PAIR_ABORT (R266).
DESIGN CHOICE (log 78): it is the record of the crew's tasks as well, so that of several killed threads the last counts (R290). -/
def State.killThread (s : State) (c l : Nat) (r : FaultRec) : State :=
  let cause := if (s.thread c l).pair.isSome then BitVec.ofNat 6 Cause.pairAbort.code else r.cause
  let r := { r with kill := true, cause := cause }
  let s := s.addList (s.launchIdOf c) (s.coreOf c) r (s.thread c l).time none
  let s := s.modCrew c (fun cr => { cr with tasks := cr.tasks.map (fun k => { k with record := r, time := (s.thread c l).time }) })
  s.exitThread c l true

/-! ### Device writes (R328) -/

/-- A write of the part at system scope in a launch's space, for a core (R328): done, held, or without permission. -/
inductive DevWrite
  /-- The write is made. -/
  | done (s : State)
  /-- Its page is not mapped. -/
  | held (s : State)
  /-- Its page may not be written. -/
  | denied (s : State)

/-- The machine after a write that is given up where it cannot be made. -/
def DevWrite.state : DevWrite → State
  | .done s => s
  | .held s => s
  | .denied s => s

/-- Tries a device write. -/
def State.devWrite (s : State) (core space : Nat) (va : Nat) (bs : List Byte) : DevWrite :=
  match s.access core space va true false with
  | (.ok pa, s) => .done (s.writeSys pa bs)
  | (.unmapped, s) => .held s
  | (.denied, s) => .denied s

/-! ### Taking an exception: delivery (R282) -/

/-- The address of a lane's fault record in its crew's image (R287). -/
def Crew.recordAddr (cr : Crew) (l : Nat) : DWord := cr.image + BitVec.ofNat 64 (128 * 144 + 32 * l)

/-- The line of a lane's fault record: a delivery writes it whole, so what was stored over the records of the other lanes in it is lost
(R283, R287). -/
def Crew.recordLine (cr : Crew) (l : Nat) : List Byte := (List.range 4).flatMap (fun i => (cr.thread (4 * (l / 4) + i)).frec.bytes)

/-- The lanes that park with the same cause at the same PC in the same cycle as a lane (R12, R282). -/
def Crew.subCrew (cr : Crew) (l : Nat) : List Nat :=
  let t := cr.thread l
  match t.parked with
  | none => []
  | some p => (List.range 32).filter (fun m =>
      let u := cr.thread m
      match u.parked with
      | none => false
      | some r => r.cause == p.cause && r.at_ == p.at_ && u.pc == t.pc)

/-- Every lane of a sub-crew waits for delivery. -/
def Crew.deliverable (cr : Crew) (lanes : List Nat) : Bool :=
  lanes.all (fun l => ((cr.thread l).parked.map (fun p => decide (p.route = .deliver))).getD false) && !lanes.isEmpty

/-- Delivers one lane's trap: its record is written to its image, `q0`, `q1` and the clause header are saved, and it enters the
trap vector; without a vector, or inside a handler, it is killed (R282). `ok` says that the record's write can be made. -/
def State.deliverLane (s : State) (c l : Nat) (ok : Bool) : State :=
  let t := s.thread c l
  match t.parked with
  | none => s
  | some p =>
    let vector := (s.squadOf c).trapVec
    let r := s.faultRec c l p.cause p.addr p.defer p.eng false
    if !ok then s.killThread c l r
    else
      let core := s.coreOf c
      let s := s.modThread c l (fun t =>
        { t.mark [140, 141] with qsave0 := t.q0, qsave1 := t.q1, trapHdr := if t.mid then t.clhdr else t.pc, frec := r })
      let s := (s.devWrite core (s.spaceOf c) ((s.crew c).recordAddr (4 * (l / 4))).toNat ((s.crew c).recordLine l)).state
      if t.inHandler then
        s.killThread c l { r with cause := BitVec.ofNat 6 Cause.doubleTrap.code, addr := if t.pair.isSome then r.addr else 0#64 }
      else if vector = 0#64 then s.killThread c l r
      else s.modThread c l (fun t =>
        { t with inHandler := true, pc := vector, mid := false, arrival := .vector, st := .running, parked := none })

/-- TAKES AN EXCEPTION to its end: the delivery of the sub-crew of a lane to the squad's trap vector (R282). A record whose page
is not mapped is held (R328). -/
def State.deliver (s : State) (c l : Nat) : State :=
  let lanes := (s.crew c).subCrew l
  if !(s.crew c).deliverable lanes then s
  else
    let core := s.coreOf c
    let look (l : Nat) : Xlate :=
      if (((s.thread c l).parked.map Parked.writeEnded).getD false) then .denied
      else (s.access core (s.spaceOf c) ((s.crew c).recordAddr l).toNat true false).1
    let waiting := lanes.filter (fun l => look l == .unmapped)
    if waiting.isEmpty then
      let oks := lanes.map (fun l => (l, look l != .denied))
      let s := s.modCrew c (fun cr => { cr with srFault := cr.recordAddr (lanes.headD 0), wrote := insertNew 137 cr.wrote })
      oks.foldl (fun s x => s.deliverLane c x.1 x.2) s
    else
      waiting.foldl (fun s l =>
        if (((s.thread c l).parked.map Parked.writeHeld).getD false) then s
        else
          let s := s.modThread c l (fun t => { t with parked := t.parked.map (fun p => { p with writeHeld := true }) })
          s.addWalk (.record c l)) s

/-! ### Clause fetch (R14, R274) -/

/-- Reads one code word for a core through translation. DESIGN CHOICE (log 62): of a poisoned line it reads the bytes as they stand (R130). -/
def State.fetchWord (s : State) (core space : Nat) (va : Nat) : Except (Xlate × Nat) Word × State :=
  match s.access core space va false true with
  | (.ok pa, s) => (.ok (BitVec.ofNat 32 (natOfBytes ((s.mem.view (islandOfCore core)).read pa 4))), s)
  | (x, s) => (.error (x, va), s)

/-- Reads code words from an address on. -/
def State.fetchWords (s : State) (core space : Nat) : Nat → Nat → Except (Xlate × Nat) (List Word) × State
  | _, 0 => (.ok [], s)
  | va, n + 1 =>
    match s.fetchWord core space va with
    | (.error e, s) => (.error e, s)
    | (.ok w, s) =>
      match State.fetchWords s core space (va + 4) n with
      | (.error e, s) => (.error e, s)
      | (.ok ws, s) => (.ok (w :: ws), s)

/-- Reads a clause: its header and its LEN + 1 words (R14). -/
def State.fetchClause (s : State) (core space : Nat) (hdr : DWord) : Except (Xlate × Nat) (Word × List Word) × State :=
  match s.fetchWord core space hdr.toNat with
  | (.error e, s) => (.error e, s)
  | (.ok h, s) =>
    match s.fetchWords core space (hdr.toNat + 4) (bitsOf h.toNat 28 4 + 1) with
    | (.error e, s) => (.error e, s)
    | (.ok ws, s) => (.ok (h, ws), s)

/-- A lane word's b is an operand code: the opcodes, with the function code in a, whose entries say so (R20, R33). -/
def laneOperandB (op a : Nat) : Bool :=
  (decide (op ≤ 0x5C) && op != 0x4F) || [0x75, 0x76, 0x77, 0x79, 0x7B, 0x7D].contains op
    || (op == 0x74 && decide (a < 7 ∧ a ≠ 1)) || (op == 0x78 && a == 0)

/-- A uniform opcode is assigned (R40). -/
def uniAssigned (op : Nat) : Bool :=
  [(0x00, 0x2D), (0x30, 0x38), (0x40, 0x4E), (0x50, 0x54), (0x58, 0x5E), (0x60, 0x63), (0x70, 0x79)].any
    (fun r => decide (r.1 ≤ op ∧ op ≤ r.2))

/-- The words that a word and the literals it calls for take, whatever its other fields hold (R20, R22, R28); an unassigned one calls for
none (R41). -/
def rawSize (w : Word) : Nat :=
  let n := w.toNat
  let op := bitsOf n 24 7
  if w.msb then 1 + (if uniAssigned op then Bool.bitNat (bitsOf n 8 8 == 255) + Bool.bitNat (bitsOf n 0 8 == 255) else 0)
  else if 0x60 ≤ op ∧ op < 0x70 then 1 + Bool.bitNat (decide (op ≤ 0x6B) && bitsOf n 0 6 == 32)
  else 1 + Bool.bitNat (laneOperandB op (bitsOf n 9 7) && bitsOf n 0 9 == 511)

/-- The number of words that the instruction at word `i` of a clause takes, its literals included; those of a word that decodes to no
instruction, too, as far as the clause holds them (R286). -/
def wordsAt (ws : List Word) (i : Nat) : Nat :=
  match decodeWords (ws.drop i) with
  | .ok (_, n) => n
  | .error _ => min (((ws[i]?).map rawSize).getD 1) (max 1 (ws.length - i))

/-! ### Return from a handler (R286) -/

/-- Where one lane resumes after `sret`: the target, and whether that is a word inside the clause that trapped. -/
def sretTarget (t : Thread) (skip : Bool) (ws : List Word) : DWord × Bool :=
  let r := t.frec
  let end_ := t.trapHdr + BitVec.ofNat 64 (4 * (ws.length + 1))
  let i := ((r.pc - t.trapHdr).toNat / 4) - 1
  let after := r.pc + BitVec.ofNat 64 (4 * wordsAt ws i)
  let p :=
    if r.defer then r.pc
    else if skip || r.cause == BitVec.ofNat 6 Cause.trap.code || r.cause == BitVec.ofNat 6 Cause.break.code then
      (if r.pc = t.trapHdr then end_ else after)
    else r.pc
  (p, !r.defer && decide (t.trapHdr.toNat < p.toNat ∧ p.toNat < end_.toNat))

/-- `sret` for one lane: inside the clause that trapped it resumes with its saved `q0` and `q1`, else it enters a header as at
fall-through. -/
def Thread.sret (t : Thread) (skip : Bool) (ws : List Word) : Thread :=
  let p := sretTarget t skip ws
  let t := if p.2 then t.putQ t.qsave0 t.qsave1 else t
  { t with pc := p.1, mid := p.2, clhdr := if p.2 then t.trapHdr else t.clhdr, arrival := .fall, inHandler := false, starve := 0 }

/-- What the clause reads of `sret` find, lane by lane in ascending order: the lanes with their clauses, or the first page fault,
and the lanes whose clause may not be fetched. -/
def State.sretFetch (s : State) (c : Nat) : List Nat → List (Nat × List Word) × Option Nat × List Nat × State
  | [] => ([], none, [], s)
  | l :: ls =>
    match s.fetchClause (s.coreOf c) (s.spaceOf c) (s.thread c l).trapHdr with
    | (.ok (_, ws), s) =>
      let r := State.sretFetch s c ls
      ((l, ws) :: r.1, r.2.1, r.2.2.1, r.2.2.2)
    | (.error (.unmapped, va), s) => ([], some va, [], s)
    | (.error _, s) =>
      let r := State.sretFetch s c ls
      (r.1, r.2.1, l :: r.2.2.1, r.2.2.2)

/-- RETURNS FROM A HANDLER: `sret` for the run (R286). -/
def State.sret (s : State) (x : Issuer) (skip : Bool) : State :=
  if x.lanes.any (fun l => !(s.thread x.c l).inHandler) then s.raise x .illegalOp 0#64
  else
    match s.sretFetch x.c x.lanes with
    | (_, some va, _, s) =>
      x.lanes.foldl (fun s l => s.parkLane x.c l .pageFault (BitVec.ofNat 64 va) false false
        (some { op := none, fetch := true, write := false, addr := BitVec.ofNat 64 va, after := x.pc, mid := true })) s
    | (ok, none, bad, s) =>
      let s := s.park x.c bad .protection 0#64
      let s := ok.foldl (fun s p => s.modThread x.c p.1 (fun t => t.sret skip p.2)) s
      s.modCrew x.c (fun cr => cr.leaveRun (ok.map Prod.fst))

/-! ### Operations that a flag counts (R16) -/

/-- A running task has had an effect that must not be repeated (R290). -/
def State.noteEffect (s : State) (c : Nat) : State :=
  s.modCrew c (fun cr => { cr with tasks := cr.tasks.map (fun t => { t with effects := true }) })

/-- An operation sets the effects bit of the task that issues it (R290). -/
def OpKind.effect (k : OpKind) : Bool :=
  match k with
  | .atomic _ _ => true
  | .ats _ => true
  | .amsg _ => true
  | _ => false

/-- Starts an operation: it gets the next number, and its flag count is added for each of its threads. -/
def State.startOp (s : State) (op : Op) : State :=
  let s := if op.kind.effect then s.noteEffect op.crew else s
  let s := s.flagAdd op.crew op.lanes op.flag
  { s with ops := s.ops ++ [{ op with id := s.nextId }], nextId := s.nextId + 1 }

/-! ### The end of an operation -/

/-- Ends an operation: it is no longer outstanding, its flag counts are removed, and a peek that waited for its register may write. -/
def State.endOp (s : State) (op : Op) : State :=
  let s := { s with ops := s.ops.filter (fun o => o.id != op.id) }
  (s.flagSub op.crew op.lanes op.flag).settleLanes op.crew op.lanes

/-- The outstanding operation of a number. -/
def State.opAt (s : State) (id : Nat) : Option Op := s.ops.find? (fun o => o.id == id)

/-! ### Replay (R278) -/

/-- Runs on after a held access has translated: the lane is running at the word after it. After a clause fetch it stands where it did, and
enters its header as it came to it (R15). -/
def Thread.resume (t : Thread) (h : Held) : Thread :=
  { t with st := .running, parked := none, held := none, pc := h.after, mid := h.mid, stall := none
           arrival := if h.fetch then t.arrival else .fall }

/-- The lanes that hold one access together: the lane's own, or with U = 1 or `sldg` the lanes of its run that parked with it (R34, R83). -/
def State.heldGroup (s : State) (c l : Nat) (h : Held) : List Nat :=
  match h.op with
  | none => [l]
  | some op =>
    if op.lanes.length ≤ 1 then [l]
    else op.lanes.filter (fun m => (s.thread c m).held == some h && ((s.thread c m).parked.map Parked.cause) == some .pageFault)

/-- The permits of lanes whose fault is not recorded yet come back (R281). -/
def State.returnPermits (s : State) (c : Nat) (lanes : List Nat) : State :=
  let n := lanes.filter (fun m => ((s.thread c m).parked.map Parked.route) == some .walk)
  n.foldl (fun s _ => s.returnPermit (s.coreOf c)) s

/-- A lane's held access is tried again: it issues, once for the lanes that hold it together, is recorded afresh, or is refused for want
of permission (R278). -/
def State.retryHeld (s : State) (c l : Nat) : State :=
  let t := s.thread c l
  match t.held, t.parked with
  | some h, some p =>
    if p.cause ≠ .pageFault then s
    else
      let group := s.heldGroup c l h
      match s.access (s.coreOf c) (s.spaceOf c) h.addr.toNat h.write h.fetch with
      | (.ok pa, s) =>
        let s := (s.returnPermits c group).modThreads c group (fun _ t => t.resume h)
        let s := { s with walks := s.walks.filter (fun (w : Nat × Walker) => !group.any (fun m => w.2 == .lane c m)) }
        match h.op with
        | some op => s.startOp { op with pa := pa, lanes := group }
        | none => s
      | (.unmapped, s) =>
        let s := s.recordFault (s.laneFault c l)
        let s := s.returnPermits c [l]
        s.modThread c l (fun t => { t with parked := t.parked.map (fun p => { p with route := .held }) })
      | (.denied, s) => (s.returnPermits c group).park c group .protection h.addr
  | _, _ => s

end Sys2Proof.Machine
end

