-- ==== Sys2Proof/Machine/Image.lean ====
section
/-! DEFINITION. A crew's context image and slice image (R287, R114): the layout of their lines, reading a line back from memory, the
write-back and the fetch of a line (R70-R72), the slice SRAM (R114), and what arrives for a crew while its lines stand in its image (R289).
A crew's record shows every line; of a line that is away the bytes in memory are the truth, and each cycle takes over into the record what
software changed there and writes there what the record has gained. -/

namespace Sys2Proof.Machine

/-- The port position of a thread (R152, R166). -/
def Crew.portPosition (cr : Crew) (l : Nat) : Word :=
  BitVec.ofNat 32 (cr.portIsland * 2 ^ 17 + cr.portCluster * 2 ^ 13 + cr.portCore * 2 ^ 9 + cr.portSlot * 2 ^ 5 + l)

/-! ### The lines of a context image (R287) -/

/-- The state code of R287. -/
def TState.code : TState → Nat
  | .running => 0
  | .napping => 1
  | .atBarrier => 2
  | .batonWait => 3
  | .heldAtJoin => 4
  | .parked => 5
  | .exited => 6

/-- The header of the clause in which a thread stopped: the one saved at delivery while it is in the handler (R282), else its own. -/
def Thread.stopHdr (t : Thread) : DWord := if t.inHandler then t.trapHdr else if t.mid then t.clhdr else t.pc

/-- TSTATE. -/
def Thread.stateWord (t : Thread) : Word :=
  let bit (b : Bool) (k : Nat) : Nat := if b then 2 ^ k else 0
  BitVec.ofNat 32 (t.st.code + bit t.yieldMark 3 + bit t.inHandler 4 + bit t.held.isSome 5 + ((t.parked.map (fun p => p.cause.code)).getD 0) * 2 ^ 8)

/-- WAITCNT: remaining nap cycles, permit back-off or port watchdog. -/
def Thread.waitWord (t : Thread) : Word :=
  BitVec.ofNat 32 (if t.st = .napping then t.nap else if t.stall = some .permit then t.backoff else t.watchdog)

/-- Four flag counts, or eight, as nibbles. -/
def Thread.flagWord (t : Thread) (lo n : Nat) : Word :=
  BitVec.ofNat 32 (((List.range n).map (fun k => (t.flags.get (lo + k)).toNat * 16 ^ k)).sum)

/-- One value a port, in fields of a width. -/
def Thread.portWord (t : Thread) (width : Nat) (f : PortState → Nat) : Nat :=
  ((List.range 5).map (fun x => f (t.ports.getD x {}) * 2 ^ (width * x))).sum

/-- PPEEK: peeks pending, and their flags, 15 for none. -/
def Thread.peekWord (t : Thread) : Word :=
  let flag (p : PortState) : Nat := match p.peeks with
    | [] => 0
    | k :: _ => k.flag.getD 15
  BitVec.ofNat 32 (t.portWord 1 (fun p => if p.peeks.isEmpty then 0 else 1) + 32 * t.portWord 4 flag)

/-- A word for each lane. -/
def Crew.laneWords (cr : Crew) (f : Thread → Word) : List Word := (List.range 32).map (fun l => f (cr.thread l))

/-- Eight bytes for each of the lanes from one on. -/
def Crew.laneDWords (cr : Crew) (lo : Nat) (f : Thread → DWord) : List Word :=
  (List.range 16).flatMap (fun l => [(f (cr.thread (lo + l))).lo, (f (cr.thread (lo + l))).hi])

/-- CTRL. -/
def Crew.ctrlWords (cr : Crew) (squadImage : DWord) : List Word :=
  [cr.k.setWidth 32, cr.mode, Word.ofBool cr.crewRing, BitVec.ofNat 32 ((cr.hold.map Prod.snd).getD 0), cr.srFault.lo, cr.srFault.hi,
    squadImage.lo, squadImage.hi,
    cr.portPosition 0] ++ List.replicate 23 0#32

/-- A descriptor of an outstanding `ftwait`. -/
def FtWait.words (w : FtWait) : List Word :=
  [w.time.lo, w.time.hi, BitVec.ofNat 32 (maskOf w.lanes), BitVec.ofNat 32 (w.stage + w.flag * 16 + 256)]

/-- Eight descriptors of WAITS from one on. -/
def Crew.waitWords (cr : Crew) (lo : Nat) : List Word :=
  (List.range 8).flatMap (fun i => ((cr.waits[lo + i]?).map FtWait.words).getD (List.replicate 4 0#32))

/-- The eight words of a fault record. -/
def FaultRec.words (r : FaultRec) : List Word :=
  (List.range 8).map (fun i => BitVec.ofNat 32 (natOfBytes ((r.bytes.drop (4 * i)).take 4)))

/-- Line `n` of a crew's image, and of its slice image from 192 on (R114, R287). -/
def Crew.lineWords (cr : Crew) (squadImage : DWord) (n : Nat) : List Word :=
  if n < 104 then cr.laneWords (fun t => t.v.get n)
  else if n < 112 then cr.laneWords (fun t => t.o.get (n - 104))
  else if n < 132 then
    match n with
    | 112 => cr.laneWords Thread.q0
    | 113 => cr.laneWords Thread.q1
    | 114 => cr.laneWords (fun t => t.p.setWidth 32)
    | 115 => cr.laneWords (fun t => t.flagWord 0 8)
    | 116 => cr.laneWords (fun t => t.flagWord 8 4)
    | 117 => cr.laneDWords 0 Thread.pc
    | 118 => cr.laneDWords 16 Thread.pc
    | 119 => cr.laneWords Thread.stateWord
    | 120 => cr.laneWords Thread.waitWord
    | 121 => cr.laneDWords 0 Thread.time
    | 122 => cr.laneDWords 16 Thread.time
    | 123 => cr.laneWords (fun t => BitVec.ofNat 32 (t.stage.toNat + 16 * t.fflags.toNat))
    | 124 => cr.laneWords (fun t => BitVec.ofNat 32 t.xcur)
    | 125 => cr.laneWords (fun t => (t.xopen.map (BitVec.ofNat 32)).getD 0xFFFFFFFF#32)
    | 126 => cr.laneWords Thread.xown
    | 127 => cr.laneWords Thread.xinn
    | 128 => cr.laneWords Thread.heldWord
    | 129 => cr.laneWords (fun t => BitVec.ofNat 32 (t.portWord 4 (fun p => p.queue.length)))
    | 130 => cr.laneWords (fun t => BitVec.ofNat 32 (t.portWord 4 PortState.credit))
    | _ => cr.laneWords Thread.peekWord
  else if n < 137 then (List.range 32).map (fun i => cr.s.get (32 * (n - 132) + i))
  else if n = 137 then cr.ctrlWords squadImage
  else if n < 140 then cr.waitWords (8 * (n - 138))
  else if n = 140 then cr.laneWords Thread.qsave0
  else if n = 141 then cr.laneWords Thread.qsave1
  else if n < 144 then cr.laneDWords (16 * (n - 142)) Thread.stopHdr
  else if n < 152 then (List.range 4).flatMap (fun l => (cr.thread (4 * (n - 144) + l)).frec.words)
  else if n < 192 then
    cr.laneWords (fun t => ((t.ports.getD ((n - 152) / 8) {}).queue).getD ((n - 152) % 8) 0#32)
  else cr.laneWords (fun t => BitVec.ofNat 32 (natOfBytes (t.slice.read (4 * (n - 192)) 4)))

/-- The register and status lines of a victim that are written back (R72): those of registers that exist, and every other line of the image
but the fault records, which deliveries alone write (R287). -/
def linesToWrite (regs : Nat) : List Nat :=
  List.range (min regs 104) ++ (List.range 40).map (104 + ·) ++ (List.range 40).map (152 + ·)

/-- The lines of fault records. -/
def recordLines : List Nat := (List.range 8).map (144 + ·)

/-- The lines that are away (R70). -/
def Crew.absent (cr : Crew) : List Nat := cr.away.keys

/-! ### Reading a line back -/

/-- The state of a code of R287; 7 names none. -/
def TState.ofCode (n : Nat) : Option TState :=
  [TState.running, .napping, .atBarrier, .batonWait, .heldAtJoin, .parked, .exited].find? (fun t => t.code == n)

/-- The cause of a code of R280. -/
def Cause.ofCode (n : Nat) : Option Cause :=
  [Cause.trap, .break, .uniformCheck, .illegalOp, .illegalOperand, .misaligned, .protection, .streamRights, .baton, .tensorId,
    .portDisconnected, .pageFault, .poison, .portStall, .timeOrder, .pairAbort, .doubleTrap].find? (fun k => k.code == n)

/-- TSTATE read back. -/
def Thread.putState (t : Thread) (w : Word) : Thread :=
  let n := w.toNat
  let st := (TState.ofCode (bitsOf n 0 3)).getD t.st
  let p : Parked := t.parked.getD { cause := .trap }
  { t with st := st, yieldMark := bitsOf n 3 1 = 1, inHandler := bitsOf n 4 1 = 1, held := if bitsOf n 5 1 = 1 then t.held else none
           parked := if st = .parked then some { p with cause := (Cause.ofCode (bitsOf n 8 6)).getD p.cause } else none }

/-- WAITCNT read back. -/
def Thread.putWait (t : Thread) (w : Word) : Thread :=
  if t.st = .napping then { t with nap := w.toNat }
  else if t.stall = some .permit then { t with backoff := w.toNat }
  else { t with watchdog := w.toNat }

/-- Flag counts read back. -/
def Thread.putFlags (t : Thread) (lo n : Nat) (w : Word) : Thread :=
  { t with flags := (List.range n).foldl (fun f k => f.put (lo + k) (BitVec.ofNat 4 (bitsOf w.toNat (4 * k) 4))) t.flags }

/-- A field of each port read back. -/
def Thread.putPorts (t : Thread) (f : Nat → PortState → PortState) : Thread :=
  { t with ports := t.ports.zipIdx.map (fun p => f p.2 p.1) }

/-- PCNT read back: queues end, or go on with the words that stand in their lines. -/
def PortState.resize (p : PortState) (n : Nat) (entry : Nat → Word) : PortState :=
  let k := p.queue.length
  { p with queue := p.queue.take n ++ (List.range (n - k)).map (fun i => entry (k + i))
           senders := p.senders.take n ++ List.replicate (n - k) (0, 0) }

/-- PPEEK read back: a peek that is no longer pending is given up, and a new one writes no register. -/
def PortState.putPeek (p : PortState) (pending : Bool) (flag : Nat) : PortState :=
  { p with peeks := if !pending then [] else
      let f := if flag < 12 then some flag else none
      match p.peeks with
      | [] => [{ flag := f, d := .zero }]
      | k :: ks => { k with flag := f } :: ks }

/-- PCS and CLHDR read back: where a thread stands, in the clause of a header. -/
def Thread.putPlace (t : Thread) (pc hdr : DWord) : Thread :=
  if t.inHandler then { t with pc := pc, trapHdr := hdr }
  else { t with pc := pc, mid := decide (pc ≠ hdr), clhdr := if pc ≠ hdr then hdr else t.clhdr }

/-- Half of an eight-byte field replaced: 0 the low word. -/
def putHalf (x : DWord) (half : Nat) (w : Word) : DWord := if half = 0 then Word.pair w x.hi else Word.pair x.lo w

/-- A lane's word of line `n` read back; `entry x e` is the word that stands for entry e of port x. -/
def Thread.putWord (t : Thread) (n : Nat) (w : Word) (entry : Nat → Nat → Word) : Thread :=
  if n < 104 then { t with v := t.v.put n w }
  else if n < 112 then { t with o := t.o.put (n - 104) w }
  else if n < 152 then
    match n with
    | 112 => { t with q0 := w }
    | 113 => { t with q1 := w }
    | 114 => { t with p := w.setWidth 6 }
    | 115 => t.putFlags 0 8 w
    | 116 => t.putFlags 8 4 w
    | 119 => t.putState w
    | 120 => t.putWait w
    | 123 => { t with stage := BitVec.ofNat 4 (bitsOf w.toNat 0 4), fflags := BitVec.ofNat 5 (bitsOf w.toNat 4 5) }
    | 124 => { t with xcur := w.toNat }
    | 125 => { t with xopen := if w = 0xFFFFFFFF#32 then none else some w.toNat }
    | 126 => { t with xown := w }
    | 127 => { t with xinn := w }
    | 128 => { t with heldWord := w }
    | 129 => t.putPorts (fun x p => p.resize (min 8 (bitsOf w.toNat (4 * x) 4)) (entry x))
    | 130 => t.putPorts (fun x p => { p with credit := bitsOf w.toNat (4 * x) 4 })
    | 131 => t.putPorts (fun x p => p.putPeek (bitsOf w.toNat x 1 = 1) (bitsOf w.toNat (5 + 4 * x) 4))
    | 140 => { t with qsave0 := w }
    | 141 => { t with qsave1 := w }
    | _ => t
  else if n < 192 then
    t.putPorts (fun x p => if x = (n - 152) / 8 ∧ (n - 152) % 8 < p.queue.length then { p with queue := p.queue.set ((n - 152) % 8) w } else p)
  else { t with slice := t.slice.write (4 * (n - 192)) (bytesOfNat 4 w.toNat) }

/-- A word of CTRL read back. -/
def Crew.putCtrl (cr : Crew) (i : Nat) (w : Word) : Crew :=
  match i with
  | 0 => { cr with k := w.setWidth 7 }
  | 1 => { cr with mode := w }
  | 2 => { cr with crewRing := w.getLsbD 0 }
  | 3 => { cr with hold := cr.hold.map (fun h => (h.1, w.toNat)) }
  | 4 => { cr with srFault := putHalf cr.srFault 0 w }
  | 5 => { cr with srFault := putHalf cr.srFault 1 w }
  | 8 => { cr with portIsland := bitsOf w.toNat 17 2, portCluster := bitsOf w.toNat 13 4, portCore := bitsOf w.toNat 9 4
                   portSlot := bitsOf w.toNat 5 4 }
  | _ => cr

/-- A descriptor of WAITS read back, where it is valid. -/
def FtWait.ofWords (ws : List Word) : Option FtWait :=
  let x := (ws.getD 3 0#32).toNat
  if bitsOf x 8 1 = 0 then none
  else some { stage := bitsOf x 0 4, time := Word.pair (ws.getD 0 0#32) (ws.getD 1 0#32), flag := bitsOf x 4 4
              lanes := bitsBelow 32 (ws.getD 2 0#32).toNat }

/-- The descriptors of a line of WAITS. -/
def waitsOfLine (ws : List Word) : List FtWait := (List.range 8).filterMap (fun i => FtWait.ofWords ((ws.drop (4 * i)).take 4))

/-- Word `i` of line `n` read back. -/
def Crew.putWord (cr : Crew) (n i : Nat) (w : Word) (entry : Nat → Nat → Nat → Word) : Crew :=
  if n = 117 ∨ n = 118 then cr.modThread (16 * (n - 117) + i / 2) (fun t => t.putPlace (putHalf t.pc (i % 2) w) t.stopHdr)
  else if n = 121 ∨ n = 122 then cr.modThread (16 * (n - 121) + i / 2) (fun t => { t with time := putHalf t.time (i % 2) w })
  else if n = 142 ∨ n = 143 then cr.modThread (16 * (n - 142) + i / 2) (fun t => t.putPlace t.pc (putHalf t.stopHdr (i % 2) w))
  else if 132 ≤ n ∧ n < 137 then { cr with s := cr.s.put (32 * (n - 132) + i) w }
  else if n = 137 then cr.putCtrl i w
  else cr.modThread i (fun t => t.putWord n w (entry i))

/-- Takes over from a line the words that differ from those last exchanged with it. -/
def Crew.putLine (cr : Crew) (n : Nat) (old new : List Word) (entry : Nat → Nat → Nat → Word) : Crew :=
  if old = new then cr
  else if n = 138 then { cr with waits := waitsOfLine new ++ cr.waits.drop 8 }
  else if n = 139 then { cr with waits := cr.waits.take 8 ++ waitsOfLine new }
  else
    new.zipIdx.foldl (fun cr p => if old.getD p.2 0#32 = p.1 then cr else cr.putWord n p.2 p.1 entry) cr

/-! ### Lines in memory -/

/-- The address of a line of a crew's image, or of its slice image, which lies behind it (R302). -/
def Crew.lineAddr (cr : Crew) (n : Nat) : Nat := (cr.image + BitVec.ofNat 64 (128 * n)).toNat

/-- The words of a line as they stand in memory; nothing where the page is not mapped. -/
def State.memLine (s : State) (c n : Nat) : Option (List Word) :=
  let va := (s.crew c).lineAddr n
  if canonical va then (s.pageTable (s.partOfCore (s.coreOf c)) (s.spaceOf c) va).map (fun e => s.mem.home.words (e.phys va) 32) else none

/-- The words of a line as the crew's record has them. -/
def State.lineOf (s : State) (c n : Nat) : List Word := (s.crew c).lineWords (s.squadOf c).image n

/-- A launch is to end with END 4, since a write of an image is not made (R328). -/
def State.imageEnd (s : State) (launch : Nat) : State := { s with imageEnds := insertNew launch s.imageEnds }

/-- Writes the words of a line in which two lists differ, one by one, at system scope. -/
def State.writeWords (s : State) (c n : Nat) (old new : List Word) : DevWrite :=
  ((old.zip new).zipIdx.filter (fun p => p.1.1 != p.1.2)).foldl (fun d p =>
    match d with
    | .done s => s.devWrite (s.coreOf c) (s.spaceOf c) ((s.crew c).lineAddr n + 4 * p.2) (bytesOfWords [p.1.2])
    | d => d) (.done s)

/-- Holds a write of a crew's image until a replay-all finds its page mapped (R328). -/
def State.holdImage (s : State) (c n : Nat) : State := (s.modCrew c (fun cr => { cr with awayHeld := some n })).addWalk (.image c)

/-- Brings a line that is away and a crew's record together: what software changed in memory is taken over, and what has arrived for the crew
since is written (R289 step 2). -/
def State.syncLine (s : State) (c n : Nat) (old : List Word) : State :=
  let mem := (s.memLine c n).getD old
  let entry (i x e : Nat) : Word := ((s.memLine c (152 + 8 * x + e)).getD []).getD i 0#32
  let s := s.modCrew c (fun cr => { cr.putLine n old mem entry with away := cr.away.set n mem })
  let new := s.lineOf c n
  if new = mem ∨ (s.crew c).awayHeld.isSome = true then s
  else
    match s.writeWords c n mem new with
    | .done s => s.modCrew c (fun cr => { cr with away := cr.away.set n new })
    | .held s => s.holdImage c n
    | .denied s => s.imageEnd (s.launchIdOf c)

/-- A line of fault records: deliveries write them to memory as they record them (R282). -/
def isRecordLine (n : Nat) : Bool := decide (144 ≤ n ∧ n < 152)

/-- Brings every line of a crew that is away and its record together. -/
def State.syncCrew (s : State) (c : Nat) : State :=
  (s.crew c).away.foldl (fun s p => if isRecordLine p.1 then s else s.syncLine c p.1 p.2) s

/-- What one cycle does to images: for every crew that has lines in its own. -/
def State.syncImages (s : State) : State :=
  ((s.crews.filter (fun (p : Nat × Crew) => !p.2.away.isEmpty)).map Prod.fst).foldl State.syncCrew s

/-- A line counts as not written. -/
def Crew.unwritten (cr : Crew) (n : Nat) : Crew :=
  { cr with wrote := cr.wrote.filter (· != n), threads := cr.threads.map (fun t => { t with wrote := t.wrote.filter (· != n) }) }

/-- Fetches a line of a crew from its image (R70, R71), nothing while its page is not mapped: the fetch waits (log 20). -/
def State.fetchLine (s : State) (c n : Nat) : Option State :=
  match (s.crew c).away.find n with
  | none => some s
  | some old =>
    match s.access (s.coreOf c) (s.spaceOf c) ((s.crew c).lineAddr n) false false with
    | (.ok _, s) =>
      let s := if isRecordLine n then s else s.syncLine c n old
      let ws := s.lineOf c n
      some (s.modCrew c (fun cr => { cr.unwritten n with
        away := cr.away.del n, fetched := if cr.away.find n = some ws then cr.fetched.set n ws else cr.fetched }))
    | _ => none

/-- Notes the fetched lines of a crew that stand otherwise than they were fetched: they have been written (R72). -/
def Crew.noteWritten (cr : Crew) (squadImage : DWord) : Crew :=
  { cr with wrote := (cr.fetched.filter (fun p => cr.lineWords squadImage p.1 != p.2)).foldl (fun w p => insertNew p.1 w) cr.wrote }

/-- Notes, after a step, which fetched lines have been written: a line that has once changed counts, should it come to stand as it was (R72). -/
def State.noteWritten (s : State) : State :=
  { s with crews := s.crews.map (fun (p : Nat × Crew) =>
      if p.2.fetched.isEmpty then p else (p.1, p.2.noteWritten (s.squad p.2.squad).image)) }

/-- A line has been written since it was fetched, if it was (R72): a word of it has been written, or has changed (log 20). -/
def Crew.written (cr : Crew) (n : Nat) (words : List Word) : Bool :=
  cr.fetched.find n != some words || cr.wrote.contains n || cr.threads.any (fun t => t.wrote.contains n)

/-- Writes a line back to its image, if it was written since it was fetched, and gives it up (R72). -/
def State.evictLine (s : State) (c n : Nat) : DevWrite :=
  let new := s.lineOf c n
  let gone (s : State) : State := s.modCrew c (fun cr => { cr with
    away := cr.away.set n new, fetched := cr.fetched.del n, evictable := cr.evictable.filter (· != n)
    sliceIn := cr.sliceIn.filter (fun k => 192 + k != n) })
  if !(s.crew c).written n new then .done (gone s)
  else
    match s.devWrite (s.coreOf c) (s.spaceOf c) ((s.crew c).lineAddr n) (bytesOfWords new) with
    | .done s => .done (gone s)
    | d => d

/-! ### The slice SRAM (R114) -/

/-- The crews with lines in the slice SRAM of a slot's partition. -/
def State.sliceCrews (s : State) (core slot : Nat) : List (Nat × Crew) :=
  s.crews.filter (fun (p : Nat × Crew) => !p.2.sliceIn.isEmpty && p.2.slot / 4 == slot / 4 && s.coreOf p.1 == core)

/-- Of two crews, the one whose lines have gone longest without an access. -/
def olderSlice (a b : Nat × Crew) : Nat × Crew := if b.2.sliceUsed < a.2.sliceUsed then b else a

/-- Makes room for one line in the slice SRAM of a slot's partition, 512 lines: a line of the slot that has gone longest without an access is
written back; which of its lines, spec/ leaves open: the lowest (log 20). Whether there is room now. -/
def State.sliceRoom (s : State) (core slot : Nat) : Bool × State :=
  let here := s.sliceCrews core slot
  if (here.map (fun p => p.2.sliceIn.length)).sum < 512 then (true, s)
  else
    match here with
    | [] => (true, s)
    | p :: ps =>
      let v := ps.foldl olderSlice p
      let n := 192 + v.2.sliceIn.headD 0
      if v.2.awayHeld.isSome then (false, s)
      else
        match s.evictLine v.1 n with
        | .done s => (true, s)
        | .held s => (false, s.holdImage v.1 n)
        | .denied s => (false, s.imageEnd (s.launchIdOf v.1))

/-- Allots a slice line of a crew in the SRAM, where it is not there yet, and fetches it if it stands in the slice image. -/
def State.allotSlice (s : State) (c k : Nat) : Bool × State :=
  let cr := s.crew c
  if cr.sliceIn.contains k then (true, s)
  else
    match s.sliceRoom (s.coreOf c) cr.slot with
    | (false, s) => (false, s)
    | (true, s) =>
      match s.fetchLine c (192 + k) with
      | none => (false, s)
      | some s => (true, s.modCrew c (fun cr => { cr with sliceIn := insertSorted k cr.sliceIn }))

/-- An access to bytes of the slices of a resident crew: its lines are in the SRAM then, or the access waits. -/
def State.touchSlice (s : State) (c addr n : Nat) : Bool × State :=
  if !(s.crew c).resident || n == 0 then (true, s)
  else
    let ks := (List.range ((addr + n - 1) / 4 - addr / 4 + 1)).map (addr / 4 + ·)
    let r := ks.foldl (fun (x : Bool × State) k => if x.1 then x.2.allotSlice c k else x) (true, s)
    (r.1, r.2.modCrew c (fun cr => { cr with sliceUsed := s.now }))

end Sys2Proof.Machine
end

