-- ==== Sys2Proof/Machine/PortOps.lean ====
section
/-! DEFINITION. The neighbour ports: topology, connection, pushing and popping (R151-R160). -/

namespace Sys2Proof.Machine

/-- The port a push through a port lands in (R151). -/
def opposite : Port → Port
  | .east => .west
  | .west => .east
  | .north => .south
  | .south => .north
  | .die => .die

/-- A thread's port by name. -/
def Thread.port (t : Thread) (x : Port) : PortState := t.ports.getD x.num {}

/-- Changes a thread's port. -/
def Thread.modPort (t : Thread) (x : Port) (f : PortState → PortState) : Thread :=
  { t with ports := t.ports.set x.num (f (t.port x)) }

/-- The crews of a squad on the squad ring, ascending (R153). -/
def State.ringCrews (s : State) (q : Nat) : List Nat := (s.squad q).crews.filter (fun c => !(s.crew c).crewRing)

/-- The crew `d` places further on the squad ring. -/
def State.ringCrew (s : State) (q c d : Nat) : Nat :=
  let r := s.ringCrews q
  r.getD (((r.findIdx? (· == c)).getD 0 + d) % (max r.length 1)) c

/-- A crew of a launch that holds a port position and has not gone with its squad (R154). -/
def State.crewAt (s : State) (launch island cluster core slot : Nat) : Option Nat :=
  (s.crews.find? (fun p =>
    let cr := p.2
    let q := s.squad cr.squad
    q.launch == launch && q.st != .retired && q.st != .unplaced && cr.portIsland == island && cr.portCluster == cluster
      && cr.portCore == core && cr.portSlot == slot)).map Prod.fst

/-- The neighbour of a thread through a port, where the port is connected (R153, R154). -/
def State.neighbour (s : State) (c l : Nat) (x : Port) : Option (Nat × Nat) :=
  let cr := s.crew c
  let k := s.launchIdOf c
  match x with
  | .east =>
    if cr.crewRing then some (c, (l + 1) % 32)
    else if l < 31 then some (c, l + 1) else some (s.ringCrew cr.squad c 1, 0)
  | .west =>
    if cr.crewRing then some (c, (l + 31) % 32)
    else if 0 < l then some (c, l - 1)
    else some (s.ringCrew cr.squad c ((s.ringCrews cr.squad).length - 1), 31)
  | .north => (s.crewAt k cr.portIsland cr.portCluster ((cr.portCore + 1) % 12) cr.portSlot).map (·, l)
  | .south => (s.crewAt k cr.portIsland cr.portCluster ((cr.portCore + 11) % 12) cr.portSlot).map (·, l)
  | .die => (s.crewAt k (cr.portIsland ^^^ 1) cr.portCluster cr.portCore cr.portSlot).map (·, l)

/-- A port is connected (R154). -/
def State.connected (s : State) (c l : Nat) (x : Port) : Bool := (s.neighbour c l x).isSome

/-- The neighbour thread has exited. -/
def State.neighbourExited (s : State) (c l : Nat) (x : Port) : Bool :=
  match s.neighbour c l x with
  | none => false
  | some n => decide ((s.thread n.1 n.2).st = .exited)

/-- A pop of an empty queue cannot be served: the port is disconnected or its feeder has exited (R154). -/
def State.feederGone (s : State) (c l : Nat) (x : Port) : Bool := !s.connected c l x || s.neighbourExited c l x

/-- The lines of a crew's image that hold the queue of a port (R287). -/
def portLines (x : Port) : List Nat := (List.range 8).map (152 + 8 * x.num + ·)

/-- Changes the queue of a thread's port: its lines and the entry counts are written (R72, R287). -/
def Thread.modQueue (t : Thread) (x : Port) (f : PortState → PortState) : Thread := (t.modPort x f).mark (129 :: portLines x)

/-- Changes the credits of a thread's port. -/
def Thread.modCredit (t : Thread) (x : Port) (f : Nat → Nat) : Thread :=
  (t.modPort x (fun p => { p with credit := f p.credit })).mark [130]

/-- The peeks outstanding on a port that have read no entry yet read this one (R164). -/
def PortState.peeksRead (p : PortState) (w : Word) : PortState :=
  { p with peeks := p.peeks.map (fun k => if k.value.isSome then k else { k with value := some w }) }

/-- The peeks outstanding on a port read the head of its queue, and write it unless an earlier operation is still to write the register
(R17, R164). -/
def State.servePeeks (s : State) (c l : Nat) (x : Port) : State :=
  match ((s.thread c l).port x).queue with
  | [] => s
  | w :: _ => (s.modThread c l (fun t => t.modPort x (fun p => p.peeksRead w))).settleLanes c [l]

/-- An entry lands in a thread's queue, with the thread that pushed it; an exited thread's is discarded, and ends the peeks that wait for
it (R154, R156). -/
def State.landPort (s : State) (c l : Nat) (x : Port) (w : Word) (sender : Nat × Nat) : State :=
  if (s.thread c l).st = .exited then (s.modThread c l (fun t => t.modPort x (fun p => p.peeksRead w))).settleLanes c [l]
  else
    (s.modThread c l (fun t => t.modQueue x (fun p =>
      { p with queue := p.queue ++ [w], senders := p.senders ++ [sender] }))).servePeeks c l x

/-- A queue has a place for an entry: it holds eight (R151). An exited thread's takes what it discards. DESIGN CHOICE (log 66): where a former
sender's entries fill it, the next sender's wait in flight. -/
def State.queuePlace (s : State) (c l : Nat) (x : Port) : Bool :=
  decide ((s.thread c l).st = .exited) || decide (((s.thread c l).port x).queue.length < 8)

/-- An entry pushed within a crew lands at once: its queue has a place, and none is on its way there before it (R151, R156). -/
def State.landsAtOnce (s : State) (c l : Nat) (x : Port) : Bool :=
  s.queuePlace c l x && !s.flights.any (fun f => f.crew == c && f.lane == l && f.port == x)

/-- A thread pushes a word whose credit is already taken: at once within a crew, in flight otherwise (R156). DESIGN CHOICE (log 66): a load's word
whose port has become disconnected since the issue is dropped. -/
def State.sendPort (s : State) (c l : Nat) (x : Port) (w : Word) : State :=
  match s.neighbour c l x with
  | none => s
  | some n =>
    if n.1 = c ∧ s.landsAtOnce c n.2 (opposite x) then s.landPort c n.2 (opposite x) w (c, l)
    else
      let f : PortFlight := { id := s.nextId, crew := n.1, lane := n.2, port := opposite x, word := w, fromCrew := c, fromLane := l }
      { s with nextId := s.nextId + 1, flights := s.flights ++ [f] }

/-- A push takes its credit, unless the neighbour has exited and the entry is discarded (R154). -/
def State.takeCredit (s : State) (c l : Nat) (x : Port) : State :=
  if s.neighbourExited c l x then s
  else s.modThread c l (fun t => t.modCredit x (· - 1))

/-- Pushes a word: its credit, then its way to the neighbour (R155, R156). -/
def State.pushPort (s : State) (c l : Nat) (x : Port) (w : Word) : State :=
  if s.neighbourExited c l x then s else (s.takeCredit c l x).sendPort c l x w

/-- Credits return to a sender (R156). -/
def State.addCredit (s : State) (c l : Nat) (x : Port) (n : Nat) : State :=
  s.modThread c l (fun t => t.modCredit x (fun k => min 8 (k + n)))

/-- Gives a sender back the credit of an entry taken from a queue of a crew: at once within the crew, in flight otherwise (R156, R165). -/
def State.giveCredit (s : State) (c : Nat) (x : Port) (sender : Nat × Nat) : State :=
  if sender.1 = c then s.addCredit c sender.2 (opposite x) 1
  else
    let f : CreditFlight := { id := s.nextId, crew := sender.1, lane := sender.2, port := opposite x, count := 1 }
    { s with nextId := s.nextId + 1, credits := s.credits ++ [f] }

/-- Takes `n` entries from the head of a thread's queue, and their senders get their credits back. -/
def State.popPort (s : State) (c l : Nat) (x : Port) (n : Nat) : State :=
  let from_ := ((s.thread c l).port x).senders.take n
  let s := s.modThread c l (fun t => t.modQueue x (fun p => { p with queue := p.queue.drop n, senders := p.senders.drop n }))
  from_.foldl (fun s r => s.giveCredit c x r) s

/-! ### The test of one issue (R155) -/

/-- The ports in a list of operands, in order. -/
def portsIn : List LOp → List Port
  | [] => []
  | .port x :: t => x :: portsIn t
  | _ :: t => portsIn t

/-- What the test of R155 says of a lane. -/
inductive PortTest
  /-- It goes. -/
  | go
  /-- PORT_DISCONNECTED at a port. -/
  | gone (x : Port)
  /-- It stalls for entries. -/
  | empty
  /-- It stalls for a credit. -/
  | full
deriving DecidableEq, Repr

/-- The five ports. -/
def allPorts : List Port := [.east, .west, .north, .south, .die]

/-- How often a port appears among the sources. -/
def needOf (src : List Port) (x : Port) : Nat := (src.filter (· == x)).length

/-- The test of R155 for one lane: the ports popped, and the port pushed. DESIGN CHOICE (log 66): of two source ports that are short and gone,
the record names the lower-numbered. -/
def State.portTest (s : State) (c l : Nat) (src : List Port) (dst : Option Port) : PortTest :=
  let t := s.thread c l
  let short (x : Port) : Bool := decide ((t.port x).queue.length < needOf src x)
  match allPorts.find? (fun x => short x && s.feederGone c l x) with
  | some x => .gone x
  | none =>
    match dst with
    | none => if allPorts.any short then .empty else .go
    | some d =>
      if !s.connected c l d then .gone d
      else if allPorts.any short then .empty
      else if !s.neighbourExited c l d && decide ((t.port d).credit = 0) then .full
      else .go

/-- What a stalled lane waits for: entries by port number. -/
def needList (src : List Port) : List (Nat × Nat) :=
  (allPorts.filter (fun x => decide (0 < needOf src x))).map (fun x => (x.num, needOf src x))

/-- Sorts the lanes of an issue by the test of R155: parks or stalls those that cannot go, and answers those that do. -/
def State.portGate (s : State) (c : Nat) (src : List Port) (dst : Option Port) : List Nat → State × List Nat
  | [] => (s, [])
  | l :: ls =>
    match s.portTest c l src dst with
    | .go =>
      let r := State.portGate s c src dst ls
      (r.1, l :: r.2)
    | .gone x => State.portGate (s.parkLane c l .portDisconnected (BitVec.ofNat 64 x.num) false false none) c src dst ls
    | .empty => State.portGate (s.stall c [l] (.portEmpty (needList src) (dst.map Port.num))) c src dst ls
    | .full => State.portGate (s.stall c [l] (.portFull (needList src) (dst.map Port.num))) c src dst ls

end Sys2Proof.Machine
end

