-- ==== Sys2Proof/Machine/Flags.lean ====
section
/-! DEFINITION. The sticky floating-point flags of a thread (R96), and the clause-result registers that a synchronous lane
result moves (R30). -/

namespace Sys2Proof.Machine

/-- ORs flags into a thread's `sr.fflags` (R96). -/
def Thread.orFlags (t : Thread) (f : BitVec 5) : Thread := { t with fflags := t.fflags ||| f }

/-- A synchronous lane result: flags, `q0` and `q1`, and the destination. A pair gives `q0` its low word (R30, R96). -/
def Thread.result (t : Thread) (d : LOp) (ws : List Word) (f : BitVec 5) : Thread :=
  ((t.orFlags f).moveQ (ws.headD 0#32)).writeWs d ws

/-- A synchronous lane result whose destination is a port: flags and `q0`, `q1` only. -/
def Thread.resultNoDest (t : Thread) (ws : List Word) (f : BitVec 5) : Thread := (t.orFlags f).moveQ (ws.headD 0#32)

end Sys2Proof.Machine
end

