-- ==== Sys2Proof/Machine/Operands.lean ====
section
/-! DEFINITION. The operand forms: which operands a word may name (R29-R35, R67, R74, R82), how their values are read, and the
issue of one synchronous lane word (R34, R155) and of one uniform ALU word (R36, R81). -/

namespace Sys2Proof

/-- A b operand names no port. -/
def BOp.noPort : BOp → Bool
  | .lane (.port _) => false
  | _ => true

/-- A lane operand is no port. -/
def LOp.noPort : LOp → Bool
  | .port _ => false
  | _ => true

/-- The words that an instruction takes, from the literal of its b operand. -/
def BOp.size (b : BOp) : Nat := 1 + b.lits.length

/-- The port that a destination pushes. -/
def LOp.asPort : LOp → Option Port
  | .port x => some x
  | _ => none

/-- The uniform register number that a destination names. -/
def UOp.reg? : UOp → Option Nat
  | .s r => some r.val
  | _ => none

end Sys2Proof

namespace Sys2Proof.Machine

/-! ### Lane operands -/

/-- A lane source of `w` words: 1, a pair or a quad (R29, R31, R67, R111). A port needs U = 0 (R35). -/
def srcOk (regs w : Nat) (u : Bool) (x : LOp) : Bool :=
  match x with
  | .v r => decide (r.val % w = 0 ∧ r.val + w ≤ regs)
  | .o r => decide (r.val % w = 0)
  | .zero => decide (w < 4)
  | .port _ => decide (w = 1) && !u
  | _ => decide (w = 1)

/-- A lane destination of `w` words (R29, R74). -/
def dstOk (regs w : Nat) (u : Bool) (x : LOp) : Bool :=
  match x with
  | .v r => decide (r.val % w = 0 ∧ r.val + w ≤ regs)
  | .o r => decide (r.val % w = 0)
  | .p _ => decide (w = 1)
  | .port _ => decide (w = 1) && !u
  | .zero => decide (w < 4)
  | _ => false

/-- A b operand of `w` words (R20, R74, R111). -/
def bSrcOk (regs w : Nat) (u : Bool) (x : BOp) : Bool :=
  match x with
  | .lane y => srcOk regs w u y
  | .s r => decide (r.val % w = 0)
  | .imm _ => decide (w < 4)
  | .lit _ => decide (w < 4)

/-- The lines that an operand of `w` words names and that may be away: those of main-file registers (R70), and those of a port (R287). -/
def linesOf (w : Nat) (x : LOp) : List Nat :=
  match x with
  | .v r => (List.range w).map (r.val + ·)
  | .port x => portLines x
  | _ => []

/-- The lines that a b operand names. -/
def bLinesOf (w : Nat) (x : BOp) : List Nat :=
  match x with
  | .lane y => linesOf w y
  | _ => []

/-- The word at a place of a port's queue, which a pop takes. -/
def Thread.popWord (t : Thread) (x : Port) (k : Nat) : Word := (t.port x).queue.getD k 0#32

/-- Reads a lane operand of `w` words; `k` is the place in the queue of a port's word. Of a quad, the first pair. -/
def Thread.readOp (t : Thread) (lane w k : Nat) (x : LOp) : DWord :=
  match x with
  | .port y => (t.popWord y k).setWidth 64
  | _ => if w = 1 then (t.readW lane x).setWidth 64 else t.readD lane x

/-- Reads a b operand (R20, R21): constants are sign-extended where a pair is read, and exact FP32 where FP32 is read. -/
def Crew.readB (cr : Crew) (lane w k : Nat) (fp : Bool) (b : BOp) : DWord :=
  match b with
  | .lane x => (cr.thread lane).readOp lane w k x
  | .s r => if w = 1 then (cr.s.get r.val).setWidth 64 else Word.pair (cr.s.get r.val) (cr.s.get (r.val + 1))
  | .imm c =>
    let v := BitVec.ofInt 64 ((c.val : Int) - 32)
    if w = 1 then (if fp then constF32 (v.setWidth 32) else v.setWidth 32).setWidth 64 else v
  | .lit x => if w = 1 then x.setWidth 64 else x.signExtend 64

/-- Reads a b operand as one word. -/
def Crew.readBW (cr : Crew) (lane : Nat) (fp : Bool) (b : BOp) : Word := (cr.readB lane 1 0 fp b).setWidth 32

/-! ### The issue of one synchronous lane word -/

/-- The form of a synchronous lane word (R74): words of a (0: no a operand), of b and of d, whether d is read as a third source,
and whether it reads FP32. -/
structure LaneForm where
  aw : Nat
  bw : Nat
  dw : Nat
  z : Bool
  fp : Bool
deriving DecidableEq, Repr

/-- Binary: two 32-bit sources. -/
def binary : LaneForm := ⟨1, 1, 1, false, false⟩

/-- Unary: b alone. -/
def unary : LaneForm := ⟨0, 1, 1, false, false⟩

/-- Read-modify: d is also a source. -/
def readModify : LaneForm := ⟨1, 1, 1, true, false⟩

/-- The FP32 form of a form. -/
def LaneForm.float (f : LaneForm) : LaneForm := { f with fp := true }

/-- What a lane computes from its sources: the result words and the flags it sets. -/
abbrev LaneFn : Type := DWord → DWord → Word → List Word × BitVec 5

/-- A function of two words. -/
def fn2 (g : Word → Word → Word) : LaneFn := fun x y _ => ([g x.lo y.lo], 0#5)

/-- A function of one word. -/
def fn1 (g : Word → Word) : LaneFn := fun _ y _ => ([g y.lo], 0#5)

/-- A function of three words. -/
def fn3 (g : Word → Word → Word → Word) : LaneFn := fun x y z => ([g x.lo y.lo z], 0#5)

/-- A function with a pair result. -/
def fnPair (g : DWord → DWord → DWord) : LaneFn := fun x y _ => ([(g x y).lo, (g x y).hi], 0#5)

/-- A function of two words with flags. -/
def fnF2 (g : Word → Word → Word × BitVec 5) : LaneFn := fun x y _ => ([(g x.lo y.lo).1], (g x.lo y.lo).2)

/-- A function of one word with flags. -/
def fnF1 (g : Word → Word × BitVec 5) : LaneFn := fun _ y _ => ([(g y.lo).1], (g y.lo).2)

/-- A function of three words with flags. -/
def fnF3 (g : Word → Word → Word → Word × BitVec 5) : LaneFn := fun x y z => ([(g x.lo y.lo z).1], (g x.lo y.lo z).2)

/-- The operands of a lane word are those its form allows (R31, R35, R67, R74). -/
def laneLegal (f : LaneForm) (regs : Nat) (u : Bool) (d : LOp) (a : LOp) (b : BOp) : Bool :=
  (f.aw == 0 || srcOk regs f.aw u a) && bSrcOk regs f.bw u b && dstOk regs f.dw u d && (!f.z || d.noPort)

/-- The ports that a word pops, a before b. -/
def srcPorts (f : LaneForm) (a : LOp) (b : BOp) : List Port :=
  (if f.aw = 0 then [] else portsIn [a]) ++ (match b with
    | .lane x => portsIn [x]
    | _ => [])

/-- The sources of one lane: x, y and z. Of a quad in b, y is the first pair and x the second. -/
def Crew.laneSources (cr : Crew) (f : LaneForm) (d a : LOp) (b : BOp) (l : Nat) : DWord × DWord × Word :=
  let t := cr.thread l
  let again := match a, b with
    | .port x, .lane (.port y) => if x = y ∧ f.aw ≠ 0 then 1 else 0
    | _, _ => 0
  let x := if f.aw ≠ 0 then t.readOp l f.aw 0 a
    else if f.bw = 4 then
      (match b with
        | .lane y => t.readD l (lopPlus y 2)
        | .s r => Word.pair (cr.s.get (r.val + 2)) (cr.s.get (r.val + 3))
        | _ => 0#64)
    else 0#64
  (x, cr.readB l f.bw again f.fp b, if f.z then t.readW l d else 0#32)

/-- The lanes of a run read the same sources (R34). -/
def Crew.sameSources (cr : Crew) (f : LaneForm) (d a : LOp) (b : BOp) (lanes : List Nat) : Bool :=
  lanes.all (fun l => cr.laneSources f d a b l == cr.laneSources f d a b (lanes.headD 0))

/-- `sr.mode.UCHK` (R64). -/
def Crew.uchk (cr : Crew) : Bool := cr.mode.getLsbD 0

/-- Writes one lane's result, or pushes it (R155). -/
def State.laneWrite (s : State) (c : Nat) (d : LOp) (l : Nat) (r : List Word × BitVec 5) : State :=
  match d with
  | .port x => (s.modThread c l (fun t => t.resultNoDest r.1 r.2)).pushPort c l x (r.1.headD 0#32)
  | _ => s.modThread c l (fun t => t.result d r.1 r.2)

/-- Takes the operands of the lanes that go: every pop before any push (R155). -/
def State.takePops (s : State) (c : Nat) (src : List Port) (lanes : List Nat) : State :=
  lanes.foldl (fun s l =>
    (allPorts.filter (fun x => decide (0 < needOf src x))).foldl (fun s x => s.popPort c l x (needOf src x)) s) s

/-- The effect of a synchronous lane word on the lanes that go: every source is read first, then every pop, then every
write. -/
def State.laneEffect (s : State) (c : Nat) (f : LaneForm) (fn : LaneFn) (u : Bool) (d a : LOp) (b : BOp) (go : List Nat) :
    State :=
  let cr := s.crew c
  let value (l : Nat) : List Word × BitVec 5 :=
    let v := cr.laneSources f d a b (if u then go.headD 0 else l)
    fn v.1 v.2.1 v.2.2
  let rs := go.map (fun l => (l, value l))
  let s := s.takePops c (srcPorts f a b) go
  rs.foldl (fun s r => s.laneWrite c d r.1 r.2) s

/-- One issue of a synchronous lane word (R34, R70, R74, R155). `slow` words hold the lane pipe for 8 cycles (R80, R101).
`post` is a further effect of the lanes that go. -/
def laneIssueWith (post : List Nat → State → State) (f : LaneForm) (fn : LaneFn) (slow u : Bool) (d a : LOp) (b : BOp)
    (x : Issuer) (s : State) : State :=
  let lines := linesOf f.dw d ++ (if f.aw = 0 then [] else linesOf f.aw a) ++ bLinesOf f.bw b
  if !laneLegal f (s.regsOf x.c) u d a b then s.raise x .illegalOperand 0#64
  else if lines.any (fun n => x.cr.absent.contains n) then s.stall x.c x.lanes (.regMiss lines)
  else if u && x.cr.uchk && !x.cr.sameSources f d a b x.lanes then s.raise x .uniformCheck 0#64
  else
    let g := s.portGate x.c (srcPorts f a b) d.asPort x.lanes
    let s := (post g.2 (g.1.laneEffect x.c f fn u d a b g.2)).advance x.c b.size
    if slow && !g.2.isEmpty then s.holdPipe x.c false else s

/-- One issue of a synchronous lane word with no further effect. -/
def laneIssue (f : LaneForm) (fn : LaneFn) (slow u : Bool) (d a : LOp) (b : BOp) (x : Issuer) (s : State) : State :=
  laneIssueWith (fun _ s => s) f fn slow u d a b x s

/-- Runs a meaning for the run that issues. There is no such run in no step of the part: `Fault.noRun`. -/
def withRun (s : State) (k : Issuer → State → State) : Host.Outcome State Fault Refusal :=
  match s.issuer with
  | none => .fault .noRun
  | some x => .next (k x s)

/-- The meaning of a synchronous lane word with an a operand. -/
def laneExec (f : LaneForm) (fn : LaneFn) (slow u : Bool) (d a : LOp) (b : BOp) (s : State) :
    Host.Outcome State Fault Refusal :=
  withRun s (laneIssue f fn slow u d a b)

/-! ### Uniform operands -/

/-- A uniform source of one word or a pair (R28, R82). -/
def uSrcOk (w : Nat) (x : UOp) : Bool :=
  match x with
  | .s r => decide (r.val % w = 0)
  | .k _ => decide (w = 1)
  | .kt => decide (w = 1)
  | .reserved _ => false
  | _ => true

/-- A uniform destination of one word or a pair (R82). -/
def uDstOk (w : Nat) (x : UOp) : Bool :=
  match x with
  | .s r => decide (r.val % w = 0)
  | .k _ => decide (w = 1)
  | .zero => true
  | _ => false

/-- The words a uniform instruction takes: one literal for each of a and b that holds 255 (R28). -/
def uSize (a b : UOp) : Nat := 1 + a.lits.length + b.lits.length

/-- A register number that a later write has overtaken, as 160; a status destination that it has overtaken is dropped. -/
def overtaken (regs : List Nat) (r : Nat) : Nat := if regs.contains r then 160 else r

/-- A status destination that a later write has overtaken is dropped. -/
def lateSd (regs : List Nat) (sd : Option Nat) : Option Nat := sd.filter (fun r => !regs.contains r)

/-- An operation of which a later write has overtaken some uniform registers. -/
def Op.superseded (regs : List Nat) (op : Op) : Op :=
  match op.dest with
  | .uni rs => { op with dest := .uni (rs.map (overtaken regs)) }
  | _ => op

/-- A crew whose held accesses have been overtaken in some uniform registers. -/
def Crew.superseded (cr : Crew) (regs : List Nat) : Crew :=
  { cr with threads := cr.threads.map (fun t =>
      { t with held := t.held.map (fun h => { h with op := h.op.map (Op.superseded regs) }) }) }

/-- A later write to uniform registers makes the data of outstanding loads, and the status words of outstanding elected
instructions, to them be discarded: writes to a uniform register take effect in issue order (R36, R84). -/
def State.supersede (s : State) (c : Nat) (regs : List Nat) : State :=
  let fixWait (w : BatonWait) : BatonWait := if w.crew = c then { w with sd := lateSd regs w.sd } else w
  let s := s.modCrew c (fun cr => cr.superseded regs)
  let s := { s with
    ops := mapIf (fun op => op.crew == c) (Op.superseded regs) s.ops
    jobs := mapIf (fun j => j.crew == c) (fun j => { j with sd := lateSd regs j.sd }) s.jobs
    pairLaunches := s.pairLaunches.map (fun (p : Nat × PairLaunch) =>
      (p.1, if p.2.crew = c then { p.2 with sd := lateSd regs p.2.sd } else p.2)) }
  s.modCore (s.coreOf c) (fun k =>
    { k with takes := k.takes.map fixWait, engine := { k.engine with release := k.engine.release.map fixWait } })

/-- Writes words to a uniform destination as an instruction does: outstanding uniform loads to it are superseded (R84). -/
def State.writeUni (s : State) (c : Nat) (d : UOp) (ws : List Word) : State :=
  match d with
  | .s r =>
    (s.supersede c ((List.range ws.length).map (r.val + ·))).modCrew c (fun cr => cr.writeUs r.val ws)
  | _ => s.modCrew c (fun cr => cr.writeU d (ws.headD 0#32))

/-- The form of a uniform ALU word. -/
structure UniForm where
  aw : Nat
  bw : Nat
  dw : Nat
  z : Bool
deriving DecidableEq, Repr

/-- Reads a uniform source of one word or a pair. -/
def Crew.uSource (cr : Crew) (w : Nat) (x : UOp) : DWord :=
  if w = 1 then (cr.readU x).setWidth 64 else cr.readUD x

/-- The operands of a uniform ALU word are those its form allows (R82). -/
def uniLegal (f : UniForm) (d a b : UOp) : Bool :=
  (f.aw == 0 || uSrcOk f.aw a) && uSrcOk f.bw b && uDstOk f.dw d

/-- One issue of a uniform ALU word (R36, R81): once for the run. `slow` words hold the uniform pipe (R81). -/
def uniIssue (f : UniForm) (fn : LaneFn) (slow : Bool) (d a b : UOp) (x : Issuer) (s : State) : State :=
  if !uniLegal f d a b then s.raise x .illegalOperand 0#64
  else
    let r := fn (if f.aw = 0 then 0#64 else x.cr.uSource f.aw a) (x.cr.uSource f.bw b)
      (if f.z then x.cr.readU d else 0#32)
    let s := (s.writeUni x.c d r.1).advance x.c (uSize a b)
    if slow then s.holdPipe x.c true else s

/-- The meaning of a uniform ALU word. -/
def uniExec (f : UniForm) (fn : LaneFn) (slow : Bool) (d a b : UOp) (s : State) : Host.Outcome State Fault Refusal :=
  withRun s (uniIssue f fn slow d a b)

end Sys2Proof.Machine
end

