-- ==== Sys2Proof/Machine/Convert.lean ====
section
/-! DEFINITION. The conversion words, lane opcodes 0x50-0x57 (R109-R112). -/

namespace Sys2Proof.Machine

/-- A synchronous lane word whose control field must hold a value that it accepts (R44). -/
def laneExecIf (ok : Bool) (f : LaneForm) (fn : LaneFn) (u : Bool) (d : LOp) (b : BOp) (s : State) :
    Host.Outcome State Fault Refusal :=
  withRun s (fun x s => if !ok then s.raise x .illegalOperand 0#64 else laneIssue f fn false u d .zero b x s)

/-- A conversion result as a word. -/
def narrowWord (r : Nat × BitVec 5) : Word × BitVec 5 := (BitVec.ofNat 32 r.1, r.2)

/-- CVTF (R109). -/
def execCvtf (u : Bool) (d : LOp) (rm : BitVec 2) (nosat : Bool) (fmt : BitVec 4) (b : BOp) (s : State) :
    Host.Outcome State Fault Refusal :=
  let n := fmt.toNat
  laneExecIf (decide (1 ≤ n ∧ n ≤ 9) && !(nosat && decide (n ≤ 2))) unary.float
    (fnF1 (fun y => narrowWord (convert n (Rnd.ofCode rm) nosat (fval y)))) u d b s

/-- CVTF_W (R109). -/
def execCvtfW (u : Bool) (d : LOp) (fmt : BitVec 4) (b : BOp) (s : State) : Host.Outcome State Fault Refusal :=
  let n := fmt.toNat
  laneExecIf (decide (1 ≤ n ∧ n ≤ 9)) unary (fnF1 (fun y => widen n y.toNat)) u d b s

/-- CVTI (R110). -/
def execCvti (u : Bool) (d : LOp) (rm : BitVec 2) (uns : Bool) (b : BOp) (s : State) : Host.Outcome State Fault Refusal :=
  laneExec unary.float (fnF1 (f32ToInt (Rnd.ofCode rm) uns)) false u d .zero b s

/-- CVFI (R110). -/
def execCvfi (u : Bool) (d : LOp) (rm : BitVec 2) (uns : Bool) (b : BOp) (s : State) : Host.Outcome State Fault Refusal :=
  laneExec unary (fnF1 (intToF32 (Rnd.ofCode rm) uns)) false u d .zero b s

/-- Four codes packed, element k at k times the width; the flags of all (R111). -/
def pack4 (fmt : Nat) (rm : Rnd) (nosat : Bool) (ws : List Word) : Word × BitVec 5 :=
  let rs := ws.map (fun w => convert fmt rm nosat (fval w))
  (BitVec.ofNat 32 ((rs.zipIdx.map (fun r => r.1.1 * 2 ^ (fmtBits fmt * r.2))).sum),
    rs.foldl (fun f r => f ||| r.2) 0#5)

/-- Four codes unpacked (R111). -/
def unpack4 (fmt : Nat) (w : Word) : List Word × BitVec 5 :=
  let rs := (List.range 4).map (fun k => widen fmt (bitsOf w.toNat (fmtBits fmt * k) (fmtBits fmt)))
  (rs.map Prod.fst, rs.foldl (fun f r => f ||| r.2) 0#5)

/-- A format that `pk4`, `upk` and the tensor conversions take (R111, R112). -/
def narrowFmt (n : Nat) : Bool := decide (3 ≤ n ∧ n ≤ 8)

/-- PK4 (R111). -/
def execPk4 (u : Bool) (d : LOp) (rm : BitVec 2) (nosat : Bool) (fmt : BitVec 4) (b : BOp) (s : State) :
    Host.Outcome State Fault Refusal :=
  laneExecIf (narrowFmt fmt.toNat) { unary with bw := 4 }
    (fun x y _ =>
      let r := pack4 fmt.toNat (Rnd.ofCode rm) nosat [y.lo, y.hi, x.lo, x.hi]
      ([r.1], r.2)) u d b s

/-- A b operand that is a register: no port, constant or literal (R111). -/
def bIsReg (b : BOp) : Bool :=
  match b with
  | .lane (.port _) => false
  | .lane _ => true
  | .s _ => true
  | _ => false

/-- UPK (R111). -/
def execUpk (u : Bool) (d : LOp) (fmt : BitVec 4) (b : BOp) (s : State) : Host.Outcome State Fault Refusal :=
  laneExecIf (narrowFmt fmt.toNat && bIsReg b && d != .zero) { unary with dw := 4 } (fun _ y _ => unpack4 fmt.toNat y.lo)
    u d b s

/-! ### Quantising through a tensor identifier (R99, R100, R112) -/

/-- A squad's tensor identifier. -/
def State.tensor (s : State) (q n : Nat) : Option Tensor := (s.squad q).tx.find n

/-- The format code of an identifier (R182). -/
def Tensor.fmt (t : Tensor) : Nat := bitsOf (t.words.getD 0 0#32).toNat 0 4

/-- A value times a power of two. -/
def FVal.scale (x : FVal) (k : Int) : FVal :=
  match x with
  | .fin n m e => .fin n m (e + k)
  | y => y

/-- Records a magnitude, as FP32 bits without sign, into the head slot of an identifier's ring (R99). -/
def Tensor.record (t : Tensor) (mag : Word) : Tensor :=
  { t with ring := t.ring.modify t.head (fun o => match o with
      | none => some mag
      | some m => some (if m.ult mag then mag else m)) }

/-- The greatest magnitude among FP32 words, NaN excluded. -/
def maxMag (ws : List Word) : Option Word :=
  ws.foldl (fun o w =>
    if (fval w).isNan then o
    else
      let m := w &&& 0x7FFFFFFF#32
      match o with
      | none => some m
      | some k => some (if k.ult m then m else k)) none

/-- The identifier that `qnt` or `dqnt` names, where it is defined with a format that they take. -/
def State.quantTensor (s : State) (c n : Nat) : Option Tensor :=
  match s.tensor (s.crew c).squad n with
  | some t => if narrowFmt t.fmt then some t else none
  | none => none

/-- QNT (R112). -/
def execQnt (u : Bool) (d : LOp) (tx : Fin 64) (b : BOp) (s : State) : Host.Outcome State Fault Refusal :=
  withRun s (fun x s =>
    match s.quantTensor x.c tx.val with
    | none =>
      if laneLegal unary (s.regsOf x.c) u d .zero b then s.raise x .tensorId 0#64 else s.raise x .illegalOperand 0#64
    | some t =>
      let note (go : List Nat) (s : State) : State :=
        let ws := (if u then go.take 1 else go).map (fun l => (x.cr.laneSources unary.float d .zero b l).2.1.lo)
        match maxMag ws with
        | none => s
        | some m => s.modSquad x.cr.squad (fun q => { q with tx := q.tx.set tx.val (t.record m) })
      laneIssueWith note unary.float
        (fnF1 (fun y => narrowWord (convert t.fmt .rne false ((fval y).scale t.sexp)))) false u d .zero b x s)

/-- DQNT (R112). -/
def execDqnt (u : Bool) (d : LOp) (tx : Fin 64) (b : BOp) (s : State) : Host.Outcome State Fault Refusal :=
  withRun s (fun x s =>
    match s.quantTensor x.c tx.val with
    | none =>
      if laneLegal unary (s.regsOf x.c) u d .zero b then s.raise x .tensorId 0#64 else s.raise x .illegalOperand 0#64
    | some t =>
      laneIssue unary (fnF1 (fun y => word32 (fp32.roundV .rne ((decodeFmt t.fmt y.toNat).scale (-t.sexp))))) false u d .zero b
        x s)

end Sys2Proof.Machine
end

