-- ==== Sys2Proof/Machine/MemWords.lean ====
section
/-! DEFINITION. The memory words, lane opcodes 0x60-0x6F (R22-R26, R123, R124, R143-R147): their checks at issue, and the operations
they start. What an operation does when it is performed stands in MemEvents.lean. -/

namespace Sys2Proof.Machine

/-! ### Operands -/

/-- The byte offset of the offset field, in units of the access width (R22). -/
def offBytes (off : MOff) (w : Nat) : Int :=
  match off with
  | .units c => c.toInt * w
  | .lit x => x.toInt

/-- The words that a memory word with an offset takes. -/
def offSize (off : MOff) : Nat :=
  match off with
  | .units _ => 1
  | .lit _ => 2

/-- The destination of a load of `w` bytes (R22). -/
def loadDstOk (regs w : Nat) (u : Bool) (d : LOp) : Bool :=
  if w ≤ 4 then dstOk regs 1 u d && (d.noPort || w == 4) else d == .zero || (dstOk regs (wordsOfWidth w) u d && d.noPort)

/-- The data of a store of `w` bytes (R22). -/
def storeSrcOk (regs w : Nat) (u : Bool) (d : LOp) : Bool :=
  if w ≤ 4 then srcOk regs 1 u d && (d.noPort || w == 4) else d == .zero || srcOk regs (wordsOfWidth w) u d

/-- The base of a local access: a 32-bit register (R123). -/
def localBaseOk (regs : Nat) (a : LOp) : Bool :=
  match a with
  | .v r => decide (r.val < regs)
  | .o _ => true
  | .q0 => true
  | .q1 => true
  | .zero => true
  | _ => false

/-- The operand of an atomic: with return it is a destination too; an even register for W = 1 or a `.b32` compare-and-swap, a multiple of
four for a `.b64` one, which `zero` is not (R24). -/
def atomicOk (regs : Nat) (ret wide cas : Bool) (d : LOp) : Bool :=
  if wide && cas then d != .zero && srcOk regs 4 true d
  else if wide || cas then d != .zero && srcOk regs 2 true d
  else if ret then dstOk regs 1 true d else srcOk regs 1 true d

/-- The data words of a store or an atomic. -/
def Thread.dataWords (t : Thread) (lane : Nat) (d : LOp) : Nat → Nat → List Word
  | 0, _ => []
  | n + 1, k =>
    (match d with
      | .port x => t.popWord x 0
      | _ => t.readW lane (if k = 0 then d else lopPlus d k)) :: t.dataWords lane d n (k + 1)

/-- The base of an access, as a number: a pair of a global access, one word of a local one. -/
def Thread.base (t : Thread) (lane : Nat) (global : Bool) (a : LOp) : Nat :=
  if global then (t.readD lane a).toNat else (t.readW lane a).toNat

/-- An effective address, modulo 2^64 or 2^32 (R123, R143). -/
def effAddr (global : Bool) (base : Nat) (off : Int) : Nat :=
  ((base + off) % (2 ^ (if global then 64 else 32) : Nat)).toNat

/-- A local address wraps: it is beyond every limit (R123). -/
def wraps (base : Nat) (off : Int) : Bool := decide (base + off < 0 ∨ 2 ^ 32 ≤ base + off)

/-! ### One access -/

/-- Where a lane runs on after the word, should its access be held for replay. -/
def Issuer.heldAt (x : Issuer) (op : Option Op) (fetch write : Bool) (addr : Nat) (n : Nat) : Held :=
  { op := op, fetch := fetch, write := write, addr := BitVec.ofNat 64 addr, after := x.run.wordAddr (x.run.idx + n)
    mid := !x.isLast n }

/-- An operation as the word of a run issues it for some of its lanes. -/
def Issuer.newOp (x : Issuer) (s : State) (kind : OpKind) (lanes : List Nat) (flag : Option Nat) (dest : Dest) (addr w ord : Nat)
    (data : List Byte) : Op :=
  let t := s.thread x.c (lanes.headD 0)
  { id := 0, kind := kind, crew := x.c, lanes := lanes, flag := flag, dest := dest, addr := addr, pa := 0, width := w
    ord := ord, data := data, pc := x.pc, stage := t.stage, time := t.time, at_ := s.now }

/-- A load that took a credit of its port and that parks returns it (R158). -/
def State.loadCredit (s : State) (op : Op) : State :=
  match op.credit, op.dest with
  | true, .lane (.port p) => op.lanes.foldl (fun s l => s.addCredit op.crew l p 1) s
  | _, _ => s

/-- Parks the lanes of an access with a cause that is no page fault (R123, R143, R158). -/
def State.parkAccess (s : State) (x : Issuer) (lanes : List Nat) (op : Op) (cause : Cause) : State :=
  (s.loadCredit op).park x.c lanes cause (BitVec.ofNat 64 op.addr)

/-- Parks lanes with PAGE_FAULT at an address, with what is held for replay (R143). -/
def State.parkFault (s : State) (x : Issuer) (lanes : List Nat) (op : Op) (h : Held) : State :=
  lanes.foldl (fun s l => s.parkLane x.c l .pageFault h.addr false false (some h)) (s.loadCredit op)

/-- What a load holds that is issued again, as a word, once the page of an address is mapped. -/
def Issuer.heldAgain (x : Issuer) (addr n : Nat) : Held := { x.heldAt none false false addr n with after := x.pc, mid := true }

/-- Parks lanes with PAGE_FAULT and the access held for replay, one access for all of them (R34, R143); a load into a port is issued again
(R158). -/
def State.parkHeld (s : State) (x : Issuer) (lanes : List Nat) (op : Op) (write : Bool) (n : Nat) : State :=
  s.parkFault x lanes op (match op.dest with
    | .lane (.port _) => x.heldAgain op.addr n
    | _ => x.heldAt (some op) false write op.addr n)

/-- One global access of `lanes` at an aligned address: canonical form and translation; then it starts (R143). -/
def State.startAt (s : State) (x : Issuer) (lanes : List Nat) (op : Op) (write : Bool) (n : Nat) : State :=
  match s.access (s.coreOf x.c) (s.spaceOf x.c) op.addr write false with
  | (.denied, s) => s.parkAccess x lanes op .protection
  | (.unmapped, s) => s.parkHeld x lanes op write n
  | (.ok pa, s) => s.startOp { op with pa := pa }

/-- One global access of `lanes` (R143): alignment, then the rest. -/
def State.startGlobal (s : State) (x : Issuer) (lanes : List Nat) (op : Op) (write : Bool) (n : Nat) : State :=
  if op.addr % op.width ≠ 0 then s.parkAccess x lanes op .misaligned else s.startAt x lanes op write n

/-- A lane's global access will find neither a page nor a permit, so its word has no effect and is executed again (R281). -/
def State.willBackOff (s : State) (x : Issuer) (op : Op) (write : Bool) : Bool :=
  decide (op.addr % op.width = 0) && decide ((s.core (s.coreOf x.c)).permits = 0)
    && (s.access (s.coreOf x.c) (s.spaceOf x.c) op.addr write false).1 == .unmapped

/-- The bytes that local accesses of a space reach: the allotment, or the 2 KiB of a slice (R123). -/
def State.localLimit (s : State) (c : Nat) (kind : OpKind) : Nat :=
  match kind with
  | .ldp => 0x800
  | .stp => 0x800
  | _ => (s.squadOf c).allot

/-- One local access of `lanes` (R123), at an address that may have wrapped: alignment before the bound; then it starts. -/
def State.startLocal (s : State) (x : Issuer) (lanes : List Nat) (op : Op) (wrapped : Bool) : State :=
  if op.addr % op.width ≠ 0 then s.parkAccess x lanes op .misaligned
  else if wrapped ∨ s.localLimit x.c op.kind < op.addr + op.width then s.parkAccess x lanes op .protection
  else s.startOp op

/-! ### The issue of a load or a store -/

/-- The checks that stop a whole run at a word that starts operations: operands, a SETA class without a flag (R16), absent lines
(R70), a full flag count (R16), and the uniform check (R34). -/
def opGate (ok needFlag : Bool) (flag : Option Nat) (lines : List Nat) (same : Bool) (x : Issuer) (s : State)
    (k : State → State) : State :=
  if !ok then s.raise x .illegalOperand 0#64
  else if needFlag && flag.isNone then s.raise x .illegalOp 0#64
  else if lines.any (fun n => x.cr.absent.contains n) then s.stall x.c x.lanes (.regMiss lines)
  else if s.flagFull x.c x.lanes flag then s.stall x.c x.lanes (.flagFull (flag.getD 0) x.lanes)
  else if !same then s.raise x .uniformCheck 0#64
  else k s

/-- The run's lanes read the same base, and the same data where `n` words of data are sources (R34). -/
def Crew.sameAccess (cr : Crew) (global : Bool) (d a : LOp) (n : Nat) (lanes : List Nat) : Bool :=
  let v (l : Nat) := ((cr.thread l).base l global a, (cr.thread l).dataWords l d n 0)
  lanes.all (fun l => v l == v (lanes.headD 0))

/-- The word of a store whose d is a port: popped as the store issues, and kept should it park on a fault (R158). -/
def State.popData (s : State) (c l : Nat) (p : Port) (w : Word) : State :=
  (s.popPort c l p 1).modThread c l (fun t => { t.mark [128] with heldWord := w })

/-- One access of the lanes listed, that of the lowest of them: a load takes its credit and a store pops its word as it issues, but not
where the access backs off for want of a permit (R158, R281). -/
def accessOnce (x : Issuer) (global store : Bool) (kind : OpKind) (w : Nat) (d a : LOp) (off : Int) (ord n : Nat)
    (flag : Option Nat) (lanes : List Nat) (s : State) : State :=
  let l := lanes.headD 0
  let t := x.cr.thread l
  let data := if store then (bytesOfWords (t.dataWords l d (wordsOfWidth w) 0)).take w else []
  let base := t.base l global a
  let op := x.newOp s kind lanes flag (if store then .none else .lane d) (effAddr global base off) w ord data
  let start (op : Op) (s : State) : State :=
    if global then s.startGlobal x lanes op store n else s.startLocal x lanes op (wraps base off)
  match d.asPort with
  | none => start op s
  | some p =>
    if !store then start { op with credit := !s.neighbourExited x.c l p } (s.takeCredit x.c l p)
    else if global && s.willBackOff x op true then s.backOff x.c l
    else start op (s.popData x.c l p (BitVec.ofNat 32 (natOfBytes data)))

/-- A load or store of every lane of the run, in ascending order; once, for the lowest lane, when U = 1 (R34, R123, R143). -/
def accessLanes (x : Issuer) (global store u : Bool) (kind : OpKind) (w : Nat) (d a : LOp) (off : Int) (ord n : Nat)
    (flag : Option Nat) (s : State) : State :=
  let g := s.portGate x.c (if store then d.asPort.toList else []) (if store then none else d.asPort) x.lanes
  let one := accessOnce x global store kind w d a off ord n flag
  let s := if u then (if g.2.isEmpty then g.1 else one g.2 g.1) else g.2.foldl (fun s l => one [l] s) g.1
  s.advance x.c n

/-- `ldg` of `w` bytes (R143). -/
def globalLoad (w : Nat) (u : Bool) (d a : LOp) (ord : BitVec 3) (off : MOff) (x : Issuer) (s : State) : State :=
  let regs := s.regsOf x.c
  let ok := loadDstOk regs w u d && srcOk regs 2 u a && ord != 7#3
  let same := !(u && x.cr.uchk) || x.cr.sameAccess true d a 0 x.lanes
  opGate ok true x.seta (linesOf (wordsOfWidth w) d ++ linesOf 2 a) same x s
    (accessLanes x true false u (.load false) w d a (offBytes off w) ord.toNat (offSize off) x.seta)

/-- `stg` of `w` bytes (R143). -/
def globalStore (w : Nat) (u : Bool) (d a : LOp) (ord : BitVec 3) (off : MOff) (x : Issuer) (s : State) : State :=
  let regs := s.regsOf x.c
  let ok := storeSrcOk regs w u d && srcOk regs 2 u a && ord != 7#3
  let same := !(u && x.cr.uchk) || x.cr.sameAccess true d a (wordsOfWidth w) x.lanes
  opGate ok false x.setb (linesOf (wordsOfWidth w) d ++ linesOf 2 a) same x s
    (accessLanes x true true u (.store false) w d a (offBytes off w) ord.toNat (offSize off) x.setb)

/-- A local access writes. -/
def OpKind.isLocalStore : OpKind → Bool
  | .sts => true
  | .stp => true
  | _ => false

/-- `lds`, `ldp`, `sts` or `stp` of `w` bytes (R123). -/
def localAccess (kind : OpKind) (w : Nat) (u : Bool) (d a : LOp) (off : MOff) (x : Issuer) (s : State) : State :=
  let regs := s.regsOf x.c
  let store := kind.isLocalStore
  let ok := (if store then storeSrcOk regs w u d else loadDstOk regs w u d) && localBaseOk regs a
  let same := !(u && x.cr.uchk) || x.cr.sameAccess false d a (if store then wordsOfWidth w else 0) x.lanes
  let flag := if store then x.setb else x.seta
  opGate ok (!store) flag (linesOf (wordsOfWidth w) d ++ linesOf 1 a) same x s
    (accessLanes x false store u kind w d a (offBytes off w) 2 (offSize off) flag)

/-! ### Atomics -/

/-- The words of an atomic's operand: twice the width for a compare-and-swap (R24). -/
def atomicWords (wide cas : Bool) : Nat := (if wide then 2 else 1) * (if cas then 2 else 1)

/-- A scratch atomic by operation code (R124). -/
def scratchAtomic (code : Nat) (wide : Bool) (d a : LOp) (x : Issuer) (s : State) : State :=
  let regs := s.regsOf x.c
  let cas := code == 9
  let n := atomicWords wide cas
  opGate (atomicOk regs true wide cas d && localBaseOk regs a) true x.seta (linesOf n d ++ linesOf 1 a) true x s (fun s =>
    let s := x.lanes.foldl (fun s l =>
      let t := x.cr.thread l
      let op := x.newOp s (.ats code) [l] x.seta (.lane d) (t.base l false a) (if wide then 8 else 4) 2
        (bytesOfWords (t.dataWords l d n 0))
      s.startLocal x [l] { op with issue := x.lanes } false) s
    s.advance x.c 1)

/-- A global atomic (`ret`) or reduction by operation code (R145). -/
def globalAtomic (code : Nat) (ret wide : Bool) (d a : LOp) (ord : BitVec 3) (x : Issuer) (s : State) : State :=
  let regs := s.regsOf x.c
  let cas := code == 9
  let n := atomicWords wide cas
  let flag := if ret then x.seta else x.setb
  opGate (atomicOk regs ret wide cas d && srcOk regs 2 true a && ord != 7#3) ret flag (linesOf n d ++ linesOf 2 a) true x s
    (fun s =>
      let s := x.lanes.foldl (fun s l =>
        let t := x.cr.thread l
        let op := x.newOp s (.atomic code ret) [l] flag (if ret then .lane d else .none) (t.base l true a) (if wide then 8 else 4)
          ord.toNat (bytesOfWords (t.dataWords l d n 0))
        s.startGlobal x [l] { op with issue := x.lanes } true 1) s
      s.advance x.c 1)


/-- LDG_B8 (R143). -/
def execLdgB8 (u : Bool) (d a : LOp) (ord : BitVec 3) (off : MOff) (s : State) : Host.Outcome State Fault Refusal :=
  withRun s (globalLoad 1 u d a ord off)

/-- LDG_B16 (R143). -/
def execLdgB16 (u : Bool) (d a : LOp) (ord : BitVec 3) (off : MOff) (s : State) : Host.Outcome State Fault Refusal :=
  withRun s (globalLoad 2 u d a ord off)

/-- LDG_B32 (R143). -/
def execLdgB32 (u : Bool) (d a : LOp) (ord : BitVec 3) (off : MOff) (s : State) : Host.Outcome State Fault Refusal :=
  withRun s (globalLoad 4 u d a ord off)

/-- LDG_B64 (R143). -/
def execLdgB64 (u : Bool) (d a : LOp) (ord : BitVec 3) (off : MOff) (s : State) : Host.Outcome State Fault Refusal :=
  withRun s (globalLoad 8 u d a ord off)

/-- LDG_B128 (R143). -/
def execLdgB128 (u : Bool) (d a : LOp) (ord : BitVec 3) (off : MOff) (s : State) : Host.Outcome State Fault Refusal :=
  withRun s (globalLoad 16 u d a ord off)

/-- STG_B8 (R143). -/
def execStgB8 (u : Bool) (d a : LOp) (ord : BitVec 3) (off : MOff) (s : State) : Host.Outcome State Fault Refusal :=
  withRun s (globalStore 1 u d a ord off)

/-- STG_B16 (R143). -/
def execStgB16 (u : Bool) (d a : LOp) (ord : BitVec 3) (off : MOff) (s : State) : Host.Outcome State Fault Refusal :=
  withRun s (globalStore 2 u d a ord off)

/-- STG_B32 (R143). -/
def execStgB32 (u : Bool) (d a : LOp) (ord : BitVec 3) (off : MOff) (s : State) : Host.Outcome State Fault Refusal :=
  withRun s (globalStore 4 u d a ord off)

/-- STG_B64 (R143). -/
def execStgB64 (u : Bool) (d a : LOp) (ord : BitVec 3) (off : MOff) (s : State) : Host.Outcome State Fault Refusal :=
  withRun s (globalStore 8 u d a ord off)

/-- STG_B128 (R143). -/
def execStgB128 (u : Bool) (d a : LOp) (ord : BitVec 3) (off : MOff) (s : State) : Host.Outcome State Fault Refusal :=
  withRun s (globalStore 16 u d a ord off)

/-- LDS_B8 (R123). -/
def execLdsB8 (u : Bool) (d a : LOp) (off : MOff) (s : State) : Host.Outcome State Fault Refusal :=
  withRun s (localAccess .lds 1 u d a off)

/-- LDS_B16 (R123). -/
def execLdsB16 (u : Bool) (d a : LOp) (off : MOff) (s : State) : Host.Outcome State Fault Refusal :=
  withRun s (localAccess .lds 2 u d a off)

/-- LDS_B32 (R123). -/
def execLdsB32 (u : Bool) (d a : LOp) (off : MOff) (s : State) : Host.Outcome State Fault Refusal :=
  withRun s (localAccess .lds 4 u d a off)

/-- LDS_B64 (R123). -/
def execLdsB64 (u : Bool) (d a : LOp) (off : MOff) (s : State) : Host.Outcome State Fault Refusal :=
  withRun s (localAccess .lds 8 u d a off)

/-- LDS_B128 (R123). -/
def execLdsB128 (u : Bool) (d a : LOp) (off : MOff) (s : State) : Host.Outcome State Fault Refusal :=
  withRun s (localAccess .lds 16 u d a off)

/-- LDP_B32 (R123). -/
def execLdpB32 (u : Bool) (d a : LOp) (off : MOff) (s : State) : Host.Outcome State Fault Refusal :=
  withRun s (localAccess .ldp 4 u d a off)

/-- LDP_B64 (R123). -/
def execLdpB64 (u : Bool) (d a : LOp) (off : MOff) (s : State) : Host.Outcome State Fault Refusal :=
  withRun s (localAccess .ldp 8 u d a off)

/-- LDP_B128 (R123). -/
def execLdpB128 (u : Bool) (d a : LOp) (off : MOff) (s : State) : Host.Outcome State Fault Refusal :=
  withRun s (localAccess .ldp 16 u d a off)

/-- STS_B8 (R123). -/
def execStsB8 (u : Bool) (d a : LOp) (off : MOff) (s : State) : Host.Outcome State Fault Refusal :=
  withRun s (localAccess .sts 1 u d a off)

/-- STS_B16 (R123). -/
def execStsB16 (u : Bool) (d a : LOp) (off : MOff) (s : State) : Host.Outcome State Fault Refusal :=
  withRun s (localAccess .sts 2 u d a off)

/-- STS_B32 (R123). -/
def execStsB32 (u : Bool) (d a : LOp) (off : MOff) (s : State) : Host.Outcome State Fault Refusal :=
  withRun s (localAccess .sts 4 u d a off)

/-- STS_B64 (R123). -/
def execStsB64 (u : Bool) (d a : LOp) (off : MOff) (s : State) : Host.Outcome State Fault Refusal :=
  withRun s (localAccess .sts 8 u d a off)

/-- STS_B128 (R123). -/
def execStsB128 (u : Bool) (d a : LOp) (off : MOff) (s : State) : Host.Outcome State Fault Refusal :=
  withRun s (localAccess .sts 16 u d a off)

/-- STP_B32 (R123). -/
def execStpB32 (u : Bool) (d a : LOp) (off : MOff) (s : State) : Host.Outcome State Fault Refusal :=
  withRun s (localAccess .stp 4 u d a off)

/-- STP_B64 (R123). -/
def execStpB64 (u : Bool) (d a : LOp) (off : MOff) (s : State) : Host.Outcome State Fault Refusal :=
  withRun s (localAccess .stp 8 u d a off)

/-- STP_B128 (R123). -/
def execStpB128 (u : Bool) (d a : LOp) (off : MOff) (s : State) : Host.Outcome State Fault Refusal :=
  withRun s (localAccess .stp 16 u d a off)

/-- ATS_ADD (R124). -/
def execAtsAdd (d a : LOp) (w : Bool) (s : State) : Host.Outcome State Fault Refusal :=
  withRun s (scratchAtomic 0 w d a)

/-- ATS_MIN_S (R124). -/
def execAtsMinS (d a : LOp) (w : Bool) (s : State) : Host.Outcome State Fault Refusal :=
  withRun s (scratchAtomic 1 w d a)

/-- ATS_MAX_S (R124). -/
def execAtsMaxS (d a : LOp) (w : Bool) (s : State) : Host.Outcome State Fault Refusal :=
  withRun s (scratchAtomic 2 w d a)

/-- ATS_MIN_U (R124). -/
def execAtsMinU (d a : LOp) (w : Bool) (s : State) : Host.Outcome State Fault Refusal :=
  withRun s (scratchAtomic 3 w d a)

/-- ATS_MAX_U (R124). -/
def execAtsMaxU (d a : LOp) (w : Bool) (s : State) : Host.Outcome State Fault Refusal :=
  withRun s (scratchAtomic 4 w d a)

/-- ATS_AND (R124). -/
def execAtsAnd (d a : LOp) (w : Bool) (s : State) : Host.Outcome State Fault Refusal :=
  withRun s (scratchAtomic 5 w d a)

/-- ATS_OR (R124). -/
def execAtsOr (d a : LOp) (w : Bool) (s : State) : Host.Outcome State Fault Refusal :=
  withRun s (scratchAtomic 6 w d a)

/-- ATS_XOR (R124). -/
def execAtsXor (d a : LOp) (w : Bool) (s : State) : Host.Outcome State Fault Refusal :=
  withRun s (scratchAtomic 7 w d a)

/-- ATS_EXCH (R124). -/
def execAtsExch (d a : LOp) (w : Bool) (s : State) : Host.Outcome State Fault Refusal :=
  withRun s (scratchAtomic 8 w d a)

/-- ATS_CAS (R124). -/
def execAtsCas (d a : LOp) (w : Bool) (s : State) : Host.Outcome State Fault Refusal :=
  withRun s (scratchAtomic 9 w d a)

/-- ATS_FADD (R124). -/
def execAtsFadd (d a : LOp) (s : State) : Host.Outcome State Fault Refusal :=
  withRun s (scratchAtomic 10 false d a)

/-- ATG_ADD (R145). -/
def execAtgAdd (d a : LOp) (ord : BitVec 3) (w : Bool) (s : State) : Host.Outcome State Fault Refusal :=
  withRun s (globalAtomic 0 true w d a ord)

/-- ATG_MIN_S (R145). -/
def execAtgMinS (d a : LOp) (ord : BitVec 3) (w : Bool) (s : State) : Host.Outcome State Fault Refusal :=
  withRun s (globalAtomic 1 true w d a ord)

/-- ATG_MAX_S (R145). -/
def execAtgMaxS (d a : LOp) (ord : BitVec 3) (w : Bool) (s : State) : Host.Outcome State Fault Refusal :=
  withRun s (globalAtomic 2 true w d a ord)

/-- ATG_MIN_U (R145). -/
def execAtgMinU (d a : LOp) (ord : BitVec 3) (w : Bool) (s : State) : Host.Outcome State Fault Refusal :=
  withRun s (globalAtomic 3 true w d a ord)

/-- ATG_MAX_U (R145). -/
def execAtgMaxU (d a : LOp) (ord : BitVec 3) (w : Bool) (s : State) : Host.Outcome State Fault Refusal :=
  withRun s (globalAtomic 4 true w d a ord)

/-- ATG_AND (R145). -/
def execAtgAnd (d a : LOp) (ord : BitVec 3) (w : Bool) (s : State) : Host.Outcome State Fault Refusal :=
  withRun s (globalAtomic 5 true w d a ord)

/-- ATG_OR (R145). -/
def execAtgOr (d a : LOp) (ord : BitVec 3) (w : Bool) (s : State) : Host.Outcome State Fault Refusal :=
  withRun s (globalAtomic 6 true w d a ord)

/-- ATG_XOR (R145). -/
def execAtgXor (d a : LOp) (ord : BitVec 3) (w : Bool) (s : State) : Host.Outcome State Fault Refusal :=
  withRun s (globalAtomic 7 true w d a ord)

/-- ATG_EXCH (R145). -/
def execAtgExch (d a : LOp) (ord : BitVec 3) (w : Bool) (s : State) : Host.Outcome State Fault Refusal :=
  withRun s (globalAtomic 8 true w d a ord)

/-- ATG_CAS (R145). -/
def execAtgCas (d a : LOp) (ord : BitVec 3) (w : Bool) (s : State) : Host.Outcome State Fault Refusal :=
  withRun s (globalAtomic 9 true w d a ord)

/-- ATG_FADD (R145). -/
def execAtgFadd (d a : LOp) (ord : BitVec 3) (s : State) : Host.Outcome State Fault Refusal :=
  withRun s (globalAtomic 10 true false d a ord)

/-- REDG_ADD (R145). -/
def execRedgAdd (d a : LOp) (ord : BitVec 3) (w : Bool) (s : State) : Host.Outcome State Fault Refusal :=
  withRun s (globalAtomic 0 false w d a ord)

/-- REDG_MIN_S (R145). -/
def execRedgMinS (d a : LOp) (ord : BitVec 3) (w : Bool) (s : State) : Host.Outcome State Fault Refusal :=
  withRun s (globalAtomic 1 false w d a ord)

/-- REDG_MAX_S (R145). -/
def execRedgMaxS (d a : LOp) (ord : BitVec 3) (w : Bool) (s : State) : Host.Outcome State Fault Refusal :=
  withRun s (globalAtomic 2 false w d a ord)

/-- REDG_MIN_U (R145). -/
def execRedgMinU (d a : LOp) (ord : BitVec 3) (w : Bool) (s : State) : Host.Outcome State Fault Refusal :=
  withRun s (globalAtomic 3 false w d a ord)

/-- REDG_MAX_U (R145). -/
def execRedgMaxU (d a : LOp) (ord : BitVec 3) (w : Bool) (s : State) : Host.Outcome State Fault Refusal :=
  withRun s (globalAtomic 4 false w d a ord)

/-- REDG_AND (R145). -/
def execRedgAnd (d a : LOp) (ord : BitVec 3) (w : Bool) (s : State) : Host.Outcome State Fault Refusal :=
  withRun s (globalAtomic 5 false w d a ord)

/-- REDG_OR (R145). -/
def execRedgOr (d a : LOp) (ord : BitVec 3) (w : Bool) (s : State) : Host.Outcome State Fault Refusal :=
  withRun s (globalAtomic 6 false w d a ord)

/-- REDG_XOR (R145). -/
def execRedgXor (d a : LOp) (ord : BitVec 3) (w : Bool) (s : State) : Host.Outcome State Fault Refusal :=
  withRun s (globalAtomic 7 false w d a ord)

/-- REDG_FADD (R145). -/
def execRedgFadd (d a : LOp) (ord : BitVec 3) (s : State) : Host.Outcome State Fault Refusal :=
  withRun s (globalAtomic 10 false false d a ord)

/-- PFL2 (R147): it writes nothing, counts on no flag, orders nothing, and raises nothing from its address. DESIGN CHOICE (log 49): a base
that is no pair (R31) raises ILLEGAL_OPERAND, as no address can be formed from it. -/
def execPfl2 (_width : Fin 5) (a : LOp) (off : MOff) (s : State) : Host.Outcome State Fault Refusal :=
  withRun s (fun x s =>
    opGate (srcOk (s.regsOf x.c) 2 false a) false none (linesOf 2 a) true x s (fun s => s.advance x.c (offSize off)))

/-- LDGA (R144): a strong load with the acquire effect. A `.b64` needs an even d, which `zero` is not (R24). -/
def execLdga (d a : LOp) (ord : BitVec 3) (w : Bool) (s : State) : Host.Outcome State Fault Refusal :=
  withRun s (fun x s =>
    let regs := s.regsOf x.c
    let n := if w then 8 else 4
    let ok := loadDstOk regs n true d && (!w || d != .zero) && d.noPort && srcOk regs 2 true a && ord != 7#3 && ord != 0#3
    opGate ok true x.seta (linesOf (wordsOfWidth n) d ++ linesOf 2 a) true x s
      (accessLanes x true false false (.load true) n d a 0 ord.toNat 1 x.seta))

/-- STGR (R144): a strong store with the release effect. A `.b64` needs an even d, which `zero` is not (R24). -/
def execStgr (d a : LOp) (ord : BitVec 3) (w : Bool) (s : State) : Host.Outcome State Fault Refusal :=
  withRun s (fun x s =>
    let regs := s.regsOf x.c
    let n := if w then 8 else 4
    let ok := storeSrcOk regs n true d && (!w || d != .zero) && d.noPort && srcOk regs 2 true a && ord != 7#3 && ord != 0#3
    opGate ok false x.setb (linesOf (wordsOfWidth n) d ++ linesOf 2 a) true x s
      (accessLanes x true true false (.store true) n d a 0 ord.toNat 1 x.setb))

/-! ### Fences -/

/-- An operation is a store, a reduction or an atomic: something a store fence waits for (R137). -/
def OpKind.writes : OpKind → Bool
  | .store _ => true
  | .atomic _ _ => true
  | .sts => true
  | .stp => true
  | .ats _ => true
  | .scpy _ _ => true
  | .sfil _ _ => true
  | .moves _ _ => true
  | _ => false

/-- An operation is a load: something a load fence waits for (R137). -/
def OpKind.reads : OpKind → Bool
  | .load _ => true
  | .atomic _ ret => ret
  | .lds => true
  | .ldp => true
  | .ats _ => true
  | .sldg => true
  | .slds => true
  | _ => false

/-- The condition of a fence for the threads of a run (R137): `kind` 0 full, 1 loads, 2 stores. At device scope and beyond, every write that
one of the threads has made or read is applied in all four views (log 18). -/
def State.fenceMet (s : State) (c : Nat) (lanes : List Nat) (scope kind before : Nat) : Bool :=
  s.ops.all (fun op =>
    !(op.crew == c && decide (op.id < before) && op.lanes.any lanes.contains
      && ((kind != 2 && op.kind.reads) || (kind != 1 && op.kind.writes))))
  && (kind == 1 || decide (scope < 5)
    || s.mem.pend.all (fun w => !lanes.any (fun l => w.threads.contains (c, l))))

/-- A fence (R146): the run is held at the word until the condition holds. -/
def fenceIssue (kind : Nat) (scope : BitVec 3) (x : Issuer) (s : State) : State :=
  let sc := scope.toNat
  if sc = 0 ∨ sc = 7 then s.raise x .illegalOperand 0#64
  else if s.fenceMet x.c x.lanes sc kind s.nextId then s.advance x.c 1
  else s.stall x.c x.lanes (.fence sc kind s.nextId (x.isLast 1))

/-- FENCE (R146). -/
def execFence (scope : BitVec 3) (s : State) : Host.Outcome State Fault Refusal := withRun s (fenceIssue 0 scope)

/-- FENCE_LD (R146). -/
def execFenceLd (scope : BitVec 3) (s : State) : Host.Outcome State Fault Refusal := withRun s (fenceIssue 1 scope)

/-- FENCE_ST (R146). -/
def execFenceSt (scope : BitVec 3) (s : State) : Host.Outcome State Fault Refusal := withRun s (fenceIssue 2 scope)

end Sys2Proof.Machine
end

