-- ==== Sys2Proof/Machine/MemEvents.lean ====
section
/-! DEFINITION. What the outstanding accesses do when they are performed, and in which orders they may be (R17, R121-R126, R129-R139,
R143-R145). An event that cannot happen yet leaves the machine as it is. -/

namespace Sys2Proof.Machine

/-! ### Which access may be performed next -/

/-- An access of global memory. -/
def OpKind.isGlobal : OpKind → Bool
  | .load _ => true
  | .store _ => true
  | .atomic _ _ => true
  | .sldg => true
  | _ => false

/-- An access of scratch: `scpy` and `sfil` are ordered after every earlier one (R125, R126). -/
def OpKind.isScratch : OpKind → Bool
  | .lds => true
  | .sts => true
  | .ats _ => true
  | .slds => true
  | .scpy _ _ => true
  | .sfil _ _ => true
  | .moves _ _ => true
  | _ => false

/-- An access of scratch or of a slice that R121 orders with the thread's others. -/
def OpKind.isLocal : OpKind → Bool
  | .lds => true
  | .sts => true
  | .ldp => true
  | .stp => true
  | .ats _ => true
  | .slds => true
  | _ => false

/-- An acquire load (R144). -/
def OpKind.acquires : OpKind → Bool
  | .load acq => acq
  | _ => false

/-- A release store (R144). -/
def OpKind.releases : OpKind → Bool
  | .store rel => rel
  | _ => false

/-- An op writes its location: a store or an atomic. -/
def Op.isWrite (op : Op) : Bool := op.kind.writes

/-- An op reads its location: a load or an atomic. -/
def Op.isRead (op : Op) : Bool :=
  match op.kind with
  | .atomic _ _ => true
  | k => k.reads

/-- An access of memory that the lane order of an issue covers (R122, R132). -/
def OpKind.isAccess (k : OpKind) : Bool := k.isGlobal || k.isLocal

/-- Two accesses of one issue by a run, the first by a lower lane: lanes are applied in ascending order (R122, R132). -/
def Op.lowerLane (e op : Op) : Bool :=
  e.crew == op.crew && e.at_ == op.at_ && e.kind.isAccess && op.kind.isAccess && decide (e.lanes.headD 0 < op.lanes.headD 0)

/-- The physical ranges of an access: one, but of a record read across the end of a page (R262). -/
def Op.pieces (op : Op) : List (Nat × Nat) :=
  match op.split with
  | none => [(op.pa, op.width)]
  | some (n, pb) => [(op.pa, n), (pb, op.width - n)]

/-- Two accesses of global memory share a byte. -/
def Op.meets (e op : Op) : Bool := e.pieces.any (fun a => op.pieces.any (fun b => overlap a.1 a.2 b.1 b.2))

/-- Two strong accesses of one thread, of which the first is performed first: loads and stores in program order, a load before a later
store; and a store before a later load of the same bytes, as it may not read what no other thread in scope can see yet (R136). -/
def Op.strongBefore (e op : Op) : Bool :=
  decide (0 < e.ord ∧ 0 < op.ord) && (e.isRead || (e.isWrite && op.isWrite) || e.meets op)

/-- The operation's pending-store test of its own space. -/
def sameLocalStore (kind : OpKind) (e : Op) : Bool :=
  match kind, e.kind with
  | .ldp, .stp => true
  | .lds, .sts => true
  | .slds, .sts => true
  | _, _ => false

/-- A store of the threads of a read: all of them made it, so that its bytes are what each of them reads (R34, R121, R134). Of a slice, the
lowest, whose slice it is (R115). -/
def Op.feeds (e op : Op) : Bool :=
  e.crew == op.crew && (match op.kind with
    | .ldp => e.lanes.contains (op.lanes.headD 0)
    | _ => op.lanes.all e.lanes.contains)

/-- A load after a store: it may be performed first where it reads none of the store's bytes, or reads them as its threads' own (R121,
R134). -/
def Op.passes (op e : Op) (clash : Bool) : Bool := e.isWrite && !e.isRead && op.isRead && !op.isWrite && (!clash || e.feeds op)

/-- A local load reads bytes of a local store: of a slice only where the slice is that of a thread that made it. -/
def Op.readsStore (op e : Op) : Bool :=
  sameLocalStore op.kind e && overlap e.addr e.width op.addr op.width && (op.kind != .ldp || e.feeds op)

/-- Two atomics of one location, the first of an issue in which a thread of the second took part: the lanes of an issue perform theirs before
any of them performs a later one there (R148, R150, log 11). -/
def Op.issueBefore (e op : Op) : Bool :=
  e.crew == op.crew && op.lanes.any e.issue.contains && (match e.kind, op.kind with
    | .ats _, .ats _ => overlap e.addr e.width op.addr op.width
    | .atomic _ _, .atomic _ _ => e.meets op
    | _, _ => false)

/-- An earlier operation `e` of the same thread must be performed before `op` (R17, R121, R125, R134-R138), one of a lower lane of the same
issue (R122, R132), or one of an earlier issue of its thread's (R148). An acquire load waits for the thread's own store to its bytes, as
what it reads then has its place in the home order (R138). -/
def Op.before (e op : Op) : Bool :=
  e.lowerLane op || (decide (e.id < op.id) && e.issueBefore op) || (decide (e.id < op.id) && e.sameThread op &&
    (e.dest.clash e.width op.width op.dest
    || e.kind.acquires
    || (op.kind.releases && (e.kind.isGlobal || e.kind.isLocal || e.isWrite))
    || (e.kind.isGlobal && op.kind.isGlobal &&
        (e.strongBefore op || (e.meets op && (op.kind.acquires || !op.passes e true))))
    || (e.kind.isLocal && op.kind.isLocal && !op.passes e (op.readsStore e))
    || (e.kind.isScratch && (match op.kind with
        | .scpy _ _ => true
        | .sfil _ _ => true
        | _ => false))))

/-- No earlier operation stands before this one. -/
def State.mayPerform (s : State) (op : Op) : Bool := s.ops.all (fun e => !e.before op) && !s.peekBefore op

/-- The threads' own stores that a read sees before they are applied (R121, R134). -/
def Op.ownStore (op : Op) (isStore : Op → Bool) (e : Op) : Bool := decide (e.id < op.id) && isStore e && e.feeds op

/-- The bytes of a read under the thread's own stores that are not applied yet: the latest of each byte (R121, R134). -/
def overlay (ops : List Op) (op : Op) (isStore : Op → Bool) (at_ : Op → Nat) (bs : List Byte) : List Byte :=
  (ops.filter (op.ownStore isStore)).foldl (fun bs e =>
    bs.zipIdx.map (fun b =>
      let a := at_ op + b.2
      if at_ e ≤ a ∧ a < at_ e + e.data.length then e.data.getD (a - at_ e) b.1 else b.1)) bs

/-- The poisoned words of a local read, but for those that an own store covers whole and so makes clean (R121, R123). -/
def overlayPoison (ops : List Op) (op : Op) (isStore : Op → Bool) (poison : List Nat) : List Nat :=
  poison.filter (fun w => !(ops.filter (op.ownStore isStore)).any (fun e => decide (e.addr ≤ 4 * w ∧ 4 * w + 4 ≤ e.addr + e.data.length)))

/-! ### Landing -/

/-- Words of loaded bytes: one zero-extended word for `.b8` and `.b16` (R22). -/
def wordsOfData : List Byte → List Word
  | a :: b :: c :: d :: t => BitVec.ofNat 32 (natOfBytes [a, b, c, d]) :: wordsOfData t
  | [] => []
  | t => [BitVec.ofNat 32 (natOfBytes t)]

/-- A result lands in a lane's registers, or is pushed through its port; an exited thread's is discarded (R54), and so is a word that took no
credit, since its neighbour had exited (R154, R158). -/
def State.landLane (s : State) (c l : Nat) (d : LOp) (credit : Bool) (ws : List Word) : State :=
  if (s.thread c l).st = .exited then s
  else
    match d with
    | .port x => if credit then s.sendPort c l x (ws.headD 0#32) else s
    | _ => s.modThread c l (fun t => t.writeWs d ws)

/-- A result lands in uniform registers, but for those superseded (R84). -/
def State.landUni (s : State) (c : Nat) (regs : List Nat) (ws : List Word) : State :=
  s.modCrew c (fun cr => (regs.zip ws).foldl (fun cr p => if p.1 < 160 then cr.putS p.1 p.2 else cr) cr)

/-- A result lands in the operation's destination. -/
def State.land (s : State) (op : Op) (ws : List Word) : State :=
  match op.dest with
  | .none => s
  | .lane d => op.lanes.foldl (fun s l => s.landLane op.crew l d op.credit ws) s
  | .uni regs => s.landUni op.crew regs ws

/-- POISON found as data would land: nothing is written, a port's credit comes back, and the threads are parked at the first
header that they reach (R130, R158). -/
def State.deferPoison (s : State) (op : Op) (addr : Nat) : State :=
  op.lanes.foldl (fun s l => s.deferCause op.crew l { cause := .poison, addr := BitVec.ofNat 64 addr, defer := true })
    (s.loadCredit op)

/-! ### Atomics (R24, R124, R145) -/

/-- The value an atomic leaves, from the old value and its operands; `none` where a compare-and-swap fails. -/
def atomicResult (code w : Nat) (old x y : Nat) : Option Nat :=
  let m := 2 ^ (8 * w)
  let sgn (v : Nat) : Int := if 2 * v < m then v else (v : Int) - m
  if code = 0 then some ((old + x) % m)
  else if code = 1 then some (if sgn x < sgn old then x else old)
  else if code = 2 then some (if sgn old < sgn x then x else old)
  else if code = 3 then some (min old x)
  else if code = 4 then some (max old x)
  else if code = 5 then some (old &&& x)
  else if code = 6 then some (old ||| x)
  else if code = 7 then some (old ^^^ x)
  else if code = 8 then some x
  else if code = 9 then (if old = x then some y else none)
  else some (f32AddQuiet (BitVec.ofNat 32 old) (BitVec.ofNat 32 x)).toNat

/-- The bytes an atomic leaves at its location. -/
def Op.atomicBytes (op : Op) (code : Nat) (old : List Byte) : Option (List Byte) :=
  let w := op.width
  (atomicResult code w (natOfBytes old) (natOfBytes (op.data.take w)) (natOfBytes ((op.data.drop w).take w))).map (bytesOfNat w)

/-! ### Global memory -/

/-- The view an operation's thread reads. -/
def State.viewOf (s : State) (op : Op) : Memory := s.mem.view (s.islandOf op.crew)

/-- An operation is a global store. -/
def isGlobalStore (e : Op) : Bool :=
  match e.kind with
  | .store _ => true
  | _ => false

/-- What a global load reads: its island's view under the thread's own stores (R129, R134). -/
def State.loadBytes (s : State) (op : Op) : List Byte :=
  op.pieces.flatMap (fun p =>
    overlay s.ops { op with pa := p.1, width := p.2 } isGlobalStore Op.pa ((s.viewOf op).read p.1 p.2))

/-- An access of global memory touches a poisoned line (R130). -/
def State.opPoisoned (s : State) (op : Op) : Bool := op.pieces.any (fun p => s.mem.poisoned p.1 p.2)

/-- The bytes of global memory that an operation reads in its island's view: those that no own store covers. -/
def State.viewAddrs (s : State) (op : Op) : List Nat :=
  (op.pieces.flatMap (fun p => (List.range p.2).map (p.1 + ·))).filter (fun a =>
    !s.ops.any (fun e => op.ownStore isGlobalStore e && decide (e.pa ≤ a ∧ a < e.pa + e.data.length)))

/-- The threads of an operation have read the bytes that its island's view holds now (R137). -/
def State.noteRead (s : State) (op : Op) : State :=
  s.setMem (s.mem.noteRead (s.islandOf op.crew) (s.viewAddrs op) (op.lanes.map (fun l => (op.crew, l))))

/-- A global load is performed and its data lands (R143). -/
def State.loadLands (s : State) (op : Op) : State :=
  if !s.mayPerform op then s
  else if s.opPoisoned op then (s.deferPoison op op.addr).endOp op
  else ((s.noteRead op).land op (wordsOfData (s.loadBytes op))).endOp op

/-- LOAD_DATA_LANDS (R143). -/
def execLoadDataLands (id : Nat) (s : State) : Host.Outcome State Fault Refusal :=
  .next (match s.opAt id with
    | none => s
    | some op => match op.kind with
      | .load _ => s.loadLands op
      | _ => s)

/-- A store is applied: in its island's view, or at device scope and beyond in all four at one moment (R133, R136, R142). -/
def State.storeApplied (s : State) (op : Op) : State :=
  let i := s.islandOf op.crew
  let cells := cellsAt op.pa op.data
  if !s.mayPerform op then s
  else if op.ord ≥ 5 then
    if s.mem.canWriteAll i then (s.setMem (s.mem.writeAll i cells)).endOp op else s
  else (s.setMem (s.mem.write i cells (s.crew op.crew).squad op.id (op.lanes.map (fun l => (op.crew, l))))).endOp op

/-- STORE_APPLIED (R135). -/
def execStoreApplied (id : Nat) (s : State) : Host.Outcome State Fault Refusal :=
  .next (match s.opAt id with
    | none => s
    | some op => match op.kind with
      | .store _ => s.storeApplied op
      | _ => s)

/-- WRITE_APPLY_REMOTE_VIEW (R133). -/
def execWriteApplyRemoteView (id : Nat) (s : State) : Host.Outcome State Fault Refusal :=
  .next (match s.mem.pend.find? (fun w => w.id == id) with
    | none => s
    | some w => if s.mem.applicable w then s.setMem (s.mem.applyRemote w) else s)

/-- A POISON record of a reduction: the thread is not stopped (R130). -/
def State.poisonReduction (s : State) (op : Op) : State :=
  op.lanes.foldl (fun s l =>
    let r := { s.faultRec op.crew l .poison (BitVec.ofNat 64 op.addr) false false false with pc := op.pc }
    s.addList (s.launchIdOf op.crew) (s.coreOf op.crew) r op.time none) s

/-- A global atomic is performed at its home slice: once no write to the location is still on its way to the thread's own
view (R139, R145). -/
def State.atomicPerform (s : State) (op : Op) (code : Nat) (ret : Bool) : State :=
  let i := s.islandOf op.crew
  let strong := decide (op.ord ≥ 5)
  if !s.mayPerform op || s.mem.pendingTo i op.pa op.width || (strong && !s.mem.canWriteAll i) then s
  else if s.opPoisoned op then
    (if ret then s.deferPoison op op.addr else s.poisonReduction op).endOp op
  else
    let old := s.mem.home.read op.pa op.width
    let s := if ret then s.noteRead op else s
    let s : State := match op.atomicBytes code old with
      | none => s
      | some bs =>
        let cells := cellsAt op.pa bs
        s.setMem (if strong then s.mem.writeAll i cells
          else s.mem.write i cells (s.crew op.crew).squad op.id (op.lanes.map (fun l => (op.crew, l))))
    (s.land op (wordsOfData old)).endOp op

/-- GLOBAL_ATOMIC_PERFORM (R139). -/
def execGlobalAtomicPerform (id : Nat) (s : State) : Host.Outcome State Fault Refusal :=
  .next (match s.opAt id with
    | none => s
    | some op => match op.kind with
      | .atomic code ret => s.atomicPerform op code ret
      | _ => s)

/-! ### Scratch and slices -/

/-- Some word of a range is poisoned. -/
def wordsPoisoned (poison : List Nat) (a n : Nat) : Bool := poison.any (fun w => overlap (4 * w) 4 a n)

/-- The words that a write covers whole are clean. -/
def cleanWords (poison : List Nat) (a n : Nat) : List Nat := poison.filter (fun w => !decide (a ≤ 4 * w ∧ 4 * w + 4 ≤ a + n))

/-- Writes bytes to a squad's scratch; words written whole become clean (R123). -/
def Squad.writeScratch (q : Squad) (a : Nat) (bs : List Byte) : Squad :=
  { q with scratch := q.scratch.write a bs, scratchPoison := cleanWords q.scratchPoison a bs.length }

/-- The words of a range of `n` bytes from an address. -/
def wordAddrs (a n : Nat) : List Nat := (List.range (n / 4)).map (fun i => a + 4 * i)

/-- What a `scpy` or `sfil` has to do from its start on: its reads, and the writes that need none (R125, R126). -/
def Op.moves (op : Op) : List (Nat × Nat) × List MoveWord :=
  match op.kind with
  | .scpy src n => ((wordAddrs src n).zip (wordAddrs op.addr n), [])
  | .sfil v n => ([], (wordAddrs op.addr n).map (fun a => { addr := a, val := v, bad := false }))
  | .moves reads writes => (reads, writes)
  | _ => ([], [])

/-- A word of scratch as a copy takes it into its buffer: poison travels with it (R125). -/
def Squad.moveWord (q : Squad) (r : Nat × Nat) : MoveWord :=
  { addr := r.2, val := BitVec.ofNat 32 (natOfBytes (q.scratch.read r.1 4)), bad := q.scratchPoison.contains (r.1 / 4) }

/-- Writes one word of a copy or a fill: it is clean, or poisoned as its source was (R125, R126). -/
def Squad.putWord (q : Squad) (w : MoveWord) : Squad :=
  let q := q.writeScratch w.addr (bytesOfWords [w.val])
  if w.bad then { q with scratchPoison := insertSorted (w.addr / 4) q.scratchPoison } else q

/-- Whether one of the words that are left is moved now: which are, spec/ leaves open (R125, R126, log 2). -/
def movedNow (fresh a : Nat) : Bool := Config.choice (fresh + a / 4) % 2 == 1

/-- Some of the words of a `scpy` or `sfil` go on their way: all are read, as into a buffer, before the first is written, and other threads see
the writes word by word. The last of them completes the operation (R125, R126). -/
def State.moveSome (s : State) (op : Op) : State :=
  let q := (s.crew op.crew).squad
  let m := op.moves
  let left (reads : List (Nat × Nat)) (writes : List MoveWord) (s : State) : State :=
    if reads.isEmpty && writes.isEmpty then s.endOp op
    else { s with ops := mapIf (fun o => o.id == op.id) (fun o => { o with kind := .moves reads writes }) s.ops
                  fresh := s.fresh + (op.addr + op.width) / 4 + 1 }
  if m.1.isEmpty then
    let now := m.2.filter (fun w => movedNow s.fresh w.addr)
    left [] (m.2.filter (fun w => !movedNow s.fresh w.addr)) (s.modSquad q (fun r => now.foldl Squad.putWord r))
  else
    let now := m.1.filter (fun r => movedNow s.fresh r.2)
    left (m.1.filter (fun r => !movedNow s.fresh r.2)) (m.2 ++ now.map (s.squad q).moveWord) s

/-- A local load is performed: it reads its own stores before they are applied, and POISON of what is left poisoned under them (R121,
R123). -/
def State.localRead (s : State) (op : Op) (m : Memory) (poison : List Nat) : State :=
  let own := sameLocalStore op.kind
  let bad := overlayPoison s.ops op own poison
  if wordsPoisoned bad op.addr op.width then (s.deferPoison op op.addr).endOp op
  else (s.land op (wordsOfData (overlay s.ops op own Op.addr (m.read op.addr op.width)))).endOp op

/-- The bytes of slices that an operation touches. -/
def Op.sliceBytes (op : Op) : Nat :=
  match op.kind with
  | .ldp => op.width
  | .stp => op.width
  | _ => 0

/-- A scratch or slice access is performed (R121-R126). DESIGN CHOICE (log 50): a U = 1 `stp` writes the slice of every thread of its run,
whose own store it is (R34), and not only that of the lowest lane. -/
def State.localPerform (s : State) (op : Op) : State :=
  let slice := s.touchSlice op.crew op.addr op.sliceBytes
  if !s.mayPerform op then s
  else if !slice.1 then slice.2
  else
    let s := slice.2
    let q := (s.crew op.crew).squad
    let sq := s.squad q
    let t := s.thread op.crew (op.lanes.headD 0)
    match op.kind with
    | .lds => s.localRead op sq.scratch sq.scratchPoison
    | .ldp => s.localRead op t.slice t.slicePoison
    | .sts => (s.modSquad q (fun r => r.writeScratch op.addr op.data)).endOp op
    | .stp =>
      (s.modThreads op.crew op.lanes (fun _ t =>
        { t.mark ((List.range (op.width / 4)).map (192 + op.addr / 4 + ·)) with
          slice := t.slice.write op.addr op.data, slicePoison := cleanWords t.slicePoison op.addr op.width })).endOp op
    | .ats code =>
      if wordsPoisoned sq.scratchPoison op.addr op.width then (s.deferPoison op op.addr).endOp op
      else
        let old := sq.scratch.read op.addr op.width
        let s : State := match op.atomicBytes code old with
          | none => s
          | some bs => s.modSquad q (fun r => r.writeScratch op.addr bs)
        (s.land op (wordsOfData old)).endOp op
    | .scpy _ _ => s.moveSome op
    | .sfil _ _ => s.moveSome op
    | .moves _ _ => s.moveSome op
    | _ => s

/-- LOCAL_ACCESS_COMPLETE (R123). -/
def execLocalAccessComplete (id : Nat) (s : State) : Host.Outcome State Fault Refusal :=
  .next (match s.opAt id with
    | none => s
    | some op => s.localPerform op)

/-- A uniform load is performed and lands, but for registers superseded (R83, R84). -/
def State.uniformLands (s : State) (op : Op) : State :=
  let sq := s.squadOf op.crew
  if !s.mayPerform op then s
  else
    match op.kind with
    | .sldg =>
      if s.opPoisoned op then (s.deferPoison op op.addr).endOp op
      else ((s.noteRead op).land op (wordsOfData (s.loadBytes op))).endOp op
    | .slds => s.localRead op sq.scratch sq.scratchPoison
    | _ => s

/-- UNIFORM_LOAD_LANDS (R84). -/
def execUniformLoadLands (id : Nat) (s : State) : Host.Outcome State Fault Refusal :=
  .next (match s.opAt id with
    | none => s
    | some op => s.uniformLands op)

/-! ### Fences -/

/-- A thread held at a fence goes on at the word after it. -/
def Thread.passFence (t : Thread) (last : Bool) : Thread := { t with stall := none, pc := t.pc + 4#64, mid := !last }

/-- Releases the threads of a crew that are held at one fence, where its condition holds for all of them (R137, R146). -/
def State.releaseFence (s : State) (c : Nat) (f : Stall) : State :=
  match f with
  | .fence scope kind before last =>
    let lanes := (List.range 32).filter (fun l => decide ((s.thread c l).stall = some f ∧ (s.thread c l).st = .running))
    if s.fenceMet c lanes scope kind before then s.modThreads c lanes (fun _ t => t.passFence last) else s
  | _ => s

/-- FENCE_RELEASE (R137). -/
def execFenceRelease (crew : Nat) (s : State) : Host.Outcome State Fault Refusal :=
  .next (((List.range 32).filterMap (fun l => (s.thread crew l).stall)).foldl (fun s f => s.releaseFence crew f) s)

end Sys2Proof.Machine
end

