-- ==== Sys2Proof/Machine/Control.lean ====
section
/-! DEFINITION. Control transfer, waiting, program traps and special registers (R15, R18, R27, R54, R60, R61, R63-R65, R286). -/

namespace Sys2Proof

/-- The number of an even uniform register below `s160`, for a word that takes a pair and nothing else. -/
def UOp.pair? : UOp → Option Nat
  | .s r => if r.val % 2 = 0 then some r.val else none
  | _ => none

end Sys2Proof

namespace Sys2Proof.Machine

/-! ### Gates -/

/-- The checks of a lane word that starts no operation, in order: operands, then the place in the clause (R18, R60), then absent
lines (R70). -/
def laneGate (ok last : Bool) (lines : List Nat) (x : Issuer) (s : State) (k : State → State) : State :=
  if !ok then s.raise x .illegalOperand 0#64
  else if !last then s.raise x .illegalOp 0#64
  else if lines.any (fun n => x.cr.absent.contains n) then s.stall x.c x.lanes (.regMiss lines)
  else k s

/-- Gives each lane that may go its own synchronous result, or pushes it: every value is computed before any is written (R62,
R155). -/
def State.laneResults (s : State) (x : Issuer) (d : LOp) (value : Nat → Word) : State :=
  let vs := x.lanes.map (fun l => (l, value l))
  let g := s.portGate x.c [] d.asPort x.lanes
  (vs.filter (fun v => g.2.contains v.1)).foldl (fun s v => s.laneWrite x.c d v.1 ([v.2], 0#5)) g.1

/-! ### Control transfer -/

/-- The target of `bra` and `call` (R27). -/
def Issuer.target (x : Issuer) (off : BitVec 15) : DWord := x.run.hdr + off.signExtend 64 * 4#64

/-- One issue of `bra`. -/
def braIssue (u : Bool) (c : LOp) (sense : Bool) (off : BitVec 15) (x : Issuer) (s : State) : State :=
  let v (l : Nat) : Word := (x.cr.thread l).readW l c
  laneGate (c.noPort && srcOk (s.regsOf x.c) 1 u c) (x.isLast 1) (linesOf 1 c) x s (fun s =>
    if u && x.cr.uchk && !x.lanes.all (fun l => v l == v x.lowest) then s.raise x .uniformCheck 0#64
    else
      let takes (l : Nat) : Bool := (v (if u then x.lowest else l) != 0#32) == sense
      let mark := x.yields && decide (off.toInt ≤ 0)
      s.modCrew x.c (fun cr =>
        let cr := cr.transfer (x.lanes.filter (fun l => !takes l)) x.nextHdr .fall
        let cr := cr.transfer (x.lanes.filter takes) (x.target off) .fall
        if mark then (x.lanes.filter takes).foldl (fun cr l => cr.modThread l (fun t => { t with yieldMark := true })) cr
        else cr))

/-- BRA (R27, R58). -/
def execBra (u : Bool) (c : LOp) (sense : Bool) (off : BitVec 15) (s : State) : Host.Outcome State Fault Refusal :=
  withRun s (braIssue u c sense off)

/-- CALL (R27): the return address is that of the next header. -/
def execCall (u : Bool) (c : LOp) (off : BitVec 15) (s : State) : Host.Outcome State Fault Refusal :=
  withRun s (fun x s =>
    laneGate (dstOk (s.regsOf x.c) 2 u c && c != .zero) (x.isLast 1) (linesOf 2 c) x s (fun s =>
      s.modCrew x.c (fun cr =>
        let cr := x.lanes.foldl (fun cr l => cr.modThread l (fun t => t.writeWs c [x.nextHdr.lo, x.nextHdr.hi])) cr
        cr.transfer x.lanes (x.target off) .entry)))

/-- Sends the whole run to one address (R18): not a multiple of 4 raises MISALIGNED. -/
def State.jumpRun (s : State) (x : Issuer) (target : DWord) (how : Arrival) : State :=
  if target.toNat % 4 ≠ 0 then s.raise x .misaligned target
  else s.modCrew x.c (fun cr => cr.transfer x.lanes target how)

/-- RET: to the target of the run's lowest lane. -/
def execRet (a : LOp) (s : State) : Host.Outcome State Fault Refusal :=
  withRun s (fun x s =>
    laneGate (srcOk (s.regsOf x.c) 2 false a) (x.isLast 1) (linesOf 2 a) x s (fun s =>
      s.jumpRun x ((x.cr.thread x.lowest).readD x.lowest a) .fall))

/-- JMP: E is tested on arrival (R15). -/
def execJmp (a : UOp) (s : State) : Host.Outcome State Fault Refusal :=
  withRun s (fun x s =>
    match a.pair? with
    | none => s.raise x .illegalOperand 0#64
    | some r => laneGate true (x.isLast 1) [] x s (fun s => s.jumpRun x (Word.pair (x.cr.s.get r) (x.cr.s.get (r + 1))) .entry))

/-- EXIT (R54). -/
def execExitThread (s : State) : Host.Outcome State Fault Refusal :=
  withRun s (fun x s => laneGate true (x.isLast 1) [] x s (fun s => x.lanes.foldl (fun s l => s.exitThread x.c l false) s))

/-! ### Waiting -/

/-- NAP (R60). -/
def execNap (b : BOp) (s : State) : Host.Outcome State Fault Refusal :=
  withRun s (fun x s =>
    laneGate (b.noPort && bSrcOk (s.regsOf x.c) 1 false b) (x.isLast b.size) (bLinesOf 1 b) x s (fun s =>
      (s.modCrew x.c (fun cr => cr.transfer x.lanes x.nextHdr .fall)).modThreads x.c x.lanes (fun l t =>
        { t with st := .napping, nap := min (x.cr.readBW l false b).toNat 0xFFFFF })))

/-- BAR (R60, R61). -/
def execBar (s : State) : Host.Outcome State Fault Refusal :=
  withRun s (fun x s =>
    laneGate true (x.isLast 1) [] x s (fun s =>
      ((s.modCrew x.c (fun cr => cr.transfer x.lanes x.nextHdr .fall)).modThreads x.c x.lanes (fun _ t =>
        { t with st := .atBarrier })).settleBarrier x.cr.squad))

/-! ### Program traps (R65) -/

/-- TRAP: the whole run parks, with the number in ADDR. -/
def execTrap (b : UOp) (s : State) : Host.Outcome State Fault Refusal :=
  withRun s (fun x s =>
    if !uSrcOk 1 b then s.raise x .illegalOperand 0#64
    else if 255 < (x.cr.readU b).toNat then s.raise x .illegalOperand 0#64
    else s.raise x .trap ((x.cr.readU b).setWidth 64))

/-- BRK. -/
def execBrk (s : State) : Host.Outcome State Fault Refusal := withRun s (fun x s => s.raise x .break 0#64)

/-! ### Special registers (R63) -/

/-- The value that a squad index register reads: 0xFFFF_FFFF in a pair crew or a handler crew (R63, R260). -/
def Squad.indexReg (q : Squad) (v : Nat) : Word :=
  match q.kind with
  | .pair => 0xFFFFFFFF#32
  | .handler => 0xFFFFFFFF#32
  | _ => BitVec.ofNat 32 v

/-- The value of a special register for a thread (R63). -/
def State.special (s : State) (c l : Nat) (n : Nat) : Word :=
  let cr := s.crew c
  let q := s.squadOf c
  let p := (s.launchOf c).pkt
  let t := s.thread c l
  let core := q.core
  let clock := (s.core core).clock
  let cohort := q.index / p.sqpc
  match n with
  | 0 => BitVec.ofNat 32 cr.index
  | 1 => q.indexReg q.index
  | 2 => q.indexReg cohort
  | 3 => q.indexReg (cohort / p.cpb)
  | 4 => q.indexReg (cohort / p.cpb / p.bps)
  | 5 => BitVec.ofNat 32 (core % 12)
  | 6 => BitVec.ofNat 32 (clusterOfCore core % 12)
  | 7 => BitVec.ofNat 32 (islandOfCore core)
  | 8 => BitVec.ofNat 32 cr.slot
  | 9 => t.stage.setWidth 32
  | 10 => t.time.lo
  | 11 => t.time.hi
  | 12 => t.xown
  | 13 => t.xinn
  | 14 => (t.pair.map PairRef.i).getD 0xFFFFFFFF#32
  | 15 => (t.pair.map PairRef.j).getD 0xFFFFFFFF#32
  | 16 => 0#32
  | 17 => t.fflags.setWidth 32
  | 18 => clock.lo
  | 19 => t.clockHi.getD clock.hi
  | 20 => cr.srFault.lo
  | 21 => cr.srFault.hi
  | _ => cr.mode

/-- GSR (R63): a read of `sr.clock.lo` latches the high word for the thread. -/
def execGsr (d : LOp) (num : BitVec 9) (s : State) : Host.Outcome State Fault Refusal :=
  withRun s (fun x s =>
    laneGate (decide (num.toNat < 23) && dstOk (s.regsOf x.c) 1 false d) true (linesOf 1 d) x s (fun s =>
      let hi := (s.core (s.coreOf x.c)).clock.hi
      let s' := s.laneResults x d (fun l => s.special x.c l num.toNat)
      let went := ((s'.crew x.c).run.map Run.lanes).getD []
      let s' := if num = 18#9 then s'.modThreads x.c went (fun _ t => { t with clockHi := some hi }) else s'
      s'.advance x.c 1))

/-- SSR (R63, R64, R96). -/
def execSsr (num : BitVec 8) (a : UOp) (s : State) : Host.Outcome State Fault Refusal :=
  withRun s (fun x s =>
    let v := x.cr.readU a
    if !uSrcOk 1 a then s.raise x .illegalOperand 0#64
    else if num = 17#8 then
      (s.modThreads x.c x.lanes (fun _ t => { t.mark [123] with fflags := v.setWidth 5 })).advance x.c (1 + a.lits.length)
    else if num = 22#8 ∧ v.toNat < 2 then
      (s.modCrew x.c (fun cr => { cr with mode := v, wrote := insertNew 137 cr.wrote })).advance x.c (1 + a.lits.length)
    else s.raise x .illegalOperand 0#64)

/-! ### Return from a handler (R286) -/

/-- SRET_RESUME (R286). -/
def execSretResume (s : State) : Host.Outcome State Fault Refusal :=
  withRun s (fun x s => laneGate true (x.isLast 1) [] x s (fun s => s.sret x false))

/-- SRET_SKIP (R286). -/
def execSretSkip (s : State) : Host.Outcome State Fault Refusal :=
  withRun s (fun x s => laneGate true (x.isLast 1) [] x s (fun s => s.sret x true))

end Sys2Proof.Machine
end

