-- ==== Sys2Proof/Machine/Crew.lean ====
section
/-! DEFINITION. The crew group and `shfl` (R62). Only the run's threads take part. -/

namespace Sys2Proof.Machine

/-- One issue of a crew-group word with a b operand: `g` gives lane l its result from the values read by every lane. A port in b raises
ILLEGAL_OPERAND; one in d is pushed to (R29, R62). -/
def crewIssue (g : (Nat → Word) → List Nat → Nat → Word) (d : LOp) (b : BOp) (x : Issuer) (s : State) : State :=
  laneGate (b.noPort && bSrcOk (s.regsOf x.c) 1 false b && dstOk (s.regsOf x.c) 1 false d) true
    (linesOf 1 d ++ bLinesOf 1 b) x s (fun s =>
    (s.laneResults x d (g (fun m => x.cr.readBW m false b) x.lanes)).advance x.c b.size)

/-- The mask of the lanes listed. -/
def laneMask (lanes : List Nat) : Word := BitVec.ofNat 32 (maskOf lanes)

/-- RFL: the value of the lowest lane. -/
def execRfl (d : LOp) (b : BOp) (s : State) : Host.Outcome State Fault Refusal :=
  withRun s (crewIssue (fun v run _ => v (run.headD 0)) d b)

/-- ACTM: the mask of the run. -/
def execActm (d : LOp) (s : State) : Host.Outcome State Fault Refusal :=
  withRun s (fun x s =>
    laneGate (dstOk (s.regsOf x.c) 1 false d) true (linesOf 1 d) x s (fun s =>
      (s.laneResults x d (fun _ => laneMask x.lanes)).advance x.c 1))

/-- VOTE_ANY. -/
def execVoteAny (d : LOp) (b : BOp) (s : State) : Host.Outcome State Fault Refusal :=
  withRun s (crewIssue (fun v run _ => Word.ofBool (run.any (fun m => v m != 0#32))) d b)

/-- VOTE_ALL. -/
def execVoteAll (d : LOp) (b : BOp) (s : State) : Host.Outcome State Fault Refusal :=
  withRun s (crewIssue (fun v run _ => Word.ofBool (run.all (fun m => v m != 0#32))) d b)

/-- VOTE_BALLOT. -/
def execVoteBallot (d : LOp) (b : BOp) (s : State) : Host.Outcome State Fault Refusal :=
  withRun s (crewIssue (fun v run _ => laneMask (run.filter (fun m => v m != 0#32))) d b)

/-- MATCH: the lanes whose 32 bits equal this lane's. -/
def execMatchLanes (d : LOp) (b : BOp) (s : State) : Host.Outcome State Fault Refusal :=
  withRun s (crewIssue (fun v run l => laneMask (run.filter (fun m => v m == v l))) d b)

/-- The k-th lane listed, or 0xFFFF_FFFF. -/
def laneAt (lanes : List Nat) (k : Nat) : Word := ((lanes[k]?).map (BitVec.ofNat 32)).getD 0xFFFFFFFF#32

/-- CMPCT: the lane at this lane's rank among the lanes with a nonzero value. -/
def execCmpct (d : LOp) (b : BOp) (s : State) : Host.Outcome State Fault Refusal :=
  withRun s (crewIssue (fun v run l =>
    laneAt (run.filter (fun m => v m != 0#32)) ((run.findIdx? (· == l)).getD 0)) d b)

/-- One issue of `shfl`: `from_` gives the lane read. A lane outside the run gives way to the reader's own value. -/
def shflIssue (from_ : Nat → Nat → Nat) (d a : LOp) (b : BOp) (x : Issuer) (s : State) : State :=
  let regs := s.regsOf x.c
  laneGate (a.noPort && b.noPort && srcOk regs 1 false a && bSrcOk regs 1 false b && dstOk regs 1 false d) true
    (linesOf 1 d ++ linesOf 1 a ++ bLinesOf 1 b) x s (fun s =>
    let v (m : Nat) : Word := (x.cr.thread m).readW m a
    (s.laneResults x d (fun l =>
      let m := from_ l ((x.cr.readBW l false b).toNat % 32)
      if x.lanes.contains m then v m else v l)).advance x.c b.size)

/-- SHFL (R62). -/
def execShfl (d a : LOp) (b : BOp) (s : State) : Host.Outcome State Fault Refusal := withRun s (shflIssue (fun _ k => k) d a b)

/-- SHFL_XOR (R62). -/
def execShflXor (d a : LOp) (b : BOp) (s : State) : Host.Outcome State Fault Refusal :=
  withRun s (shflIssue (fun l k => Nat.xor l k) d a b)

end Sys2Proof.Machine
end

