-- ==== Sys2Proof/Machine/Ports.lean ====
section
/-! DEFINITION. The port control words (R161-R166) and the events of the ports (R156, R160). -/

namespace Sys2Proof.Machine

/-- The port of a selector 0-4 (R161). -/
def portOf (sel : Nat) : Port := allPorts.getD sel .east

/-- The destination of a port-group word: writable, and no port (R161). -/
def portDstOk (regs : Nat) (d : LOp) : Bool := dstOk regs 1 false d && d.noPort

/-- An entry is on its way to an east or west queue of a crew. -/
def State.ringFlights (s : State) (c : Nat) : Bool :=
  s.flights.any (fun f => f.crew == c && (f.port == .east || f.port == .west))

/-- The east and west ports of a crew's threads are idle: nothing queued, nothing in flight, every credit back (R162). -/
def State.ringIdle (s : State) (c : Nat) : Bool :=
  !s.ringFlights c && (s.crew c).threads.all (fun t =>
    [Port.east, Port.west].all (fun x => (t.port x).queue.isEmpty && decide (8 ≤ (t.port x).credit)))

/-- PCFG (R162): the lowest lane's value sets the crew's ring mode. -/
def execPcfg (d : LOp) (b : BOp) (s : State) : Host.Outcome State Fault Refusal :=
  withRun s (fun x s =>
    let regs := s.regsOf x.c
    let v := x.cr.readBW x.lowest false b
    let whole := (List.range 32).all (fun l => x.lanes.contains l || decide ((x.cr.thread l).st = .exited))
    laneGate (portDstOk regs d && b.noPort && bSrcOk regs 1 false b && decide (v.toNat < 2)) true
      (linesOf 1 d ++ bLinesOf 1 b) x s (fun s =>
      let st : Word := if !whole then 2#32 else if !s.ringIdle x.c then 1#32 else 0#32
      let s := if st = 0#32 then s.modCrew x.c (fun cr => { cr with crewRing := v.getLsbD 0, wrote := insertNew 137 cr.wrote }) else s
      (s.laneResults x d (fun _ => st)).advance x.c b.size))

/-- A port-group word that reads one word for each lane (R163, R166). -/
def portRead (ok : Bool) (d : LOp) (v : State → Nat → Nat → Word) (x : Issuer) (s : State) : State :=
  laneGate (ok && portDstOk (s.regsOf x.c) d) true (linesOf 1 d) x s (fun s =>
    (s.laneResults x d (v s x.c)).advance x.c 1)

/-- PCNT (R163). -/
def execPcnt (d : LOp) (sel : BitVec 3) (s : State) : Host.Outcome State Fault Refusal :=
  withRun s (portRead (decide (sel.toNat < 5)) d (fun s c l =>
    BitVec.ofNat 32 ((s.thread c l).port (portOf sel.toNat)).queue.length))

/-- One lane of a peek: at once where an entry is queued, or outstanding (R164). -/
def State.peekLane (s : State) (c l : Nat) (x : Port) (k : Peek) : State :=
  if ((s.thread c l).port x).queue.isEmpty && s.feederGone c l x then
    s.parkLane c l .portDisconnected (BitVec.ofNat 64 x.num) false false none
  else
    let k := { k with id := s.nextId }
    let s := { s with nextId := s.nextId + 1 }
    ((s.flagAdd c [l] k.flag).modThread c l (fun t => (t.modPort x (fun p => { p with peeks := p.peeks ++ [k] })).mark [131])).servePeeks c l x

/-- PPK (R164). -/
def execPpk (d : LOp) (sel : BitVec 3) (s : State) : Host.Outcome State Fault Refusal :=
  withRun s (fun x s =>
    opGate (decide (sel.toNat < 5) && portDstOk (s.regsOf x.c) d) true x.seta (linesOf 1 d ++ portLines (portOf sel.toNat)) true x s (fun s =>
      (x.lanes.foldl (fun s l => s.peekLane x.c l (portOf sel.toNat) { flag := x.seta, d := d }) s).advance x.c 1))

/-- The ports of a selector 0-5. -/
def portsOf (sel : Nat) : List Port := if sel = 5 then allPorts else [portOf sel]

/-- PFLS (R165): discards landed entries, and their credits return. -/
def execPfls (d : LOp) (sel : BitVec 3) (s : State) : Host.Outcome State Fault Refusal :=
  withRun s (fun x s =>
    laneGate (decide (sel.toNat < 6) && portDstOk (s.regsOf x.c) d) true (linesOf 1 d ++ (portsOf sel.toNat).flatMap portLines) x s (fun s =>
      let count (l : Nat) (p : Port) : Nat := ((s.thread x.c l).port p).queue.length
      let s' := x.lanes.foldl (fun s' l => (portsOf sel.toNat).foldl (fun s' p => s'.popPort x.c l p (count l p)) s') s
      (s'.laneResults x d (fun l => BitVec.ofNat 32 ((portsOf sel.toNat).map (count l)).sum)).advance x.c 1))

/-- The status word of a port (R166). -/
def State.portStatus (s : State) (c l : Nat) (x : Port) : Word :=
  let p := (s.thread c l).port x
  let ring := (x == .east || x == .west) && (s.crew c).crewRing
  BitVec.ofNat 32 ((if ring then 2 ^ 11 else 0) + (if s.neighbourExited c l x then 2 ^ 10 else 0)
    + (if s.connected c l x then 2 ^ 9 else 0) + p.credit * 2 ^ 4 + p.queue.length)

/-- PSTS (R166). -/
def execPsts (d : LOp) (sel : BitVec 3) (s : State) : Host.Outcome State Fault Refusal :=
  withRun s (portRead (decide (sel.toNat < 6)) d (fun s c l =>
    if sel = 5#3 then (s.crew c).portPosition l else s.portStatus c l (portOf sel.toNat)))

/-! ### Events -/

/-- PORT_ENTRY_LANDS (R156): entries of one sender through one port land in the order in which they were pushed, where the queue has a place
(R151), and between two stops with the other requests in order (R314). -/
def execPortEntryLands (entry : Nat) (s : State) : Host.Outcome State Fault Refusal :=
  .next (match s.flights.find? (fun f => f.id == entry) with
    | none => s
    | some f =>
      let older := s.flights.find? (fun g => g.crew == f.crew && g.lane == f.lane && g.port == f.port)
      if (older.map PortFlight.id) = some entry ∧ s.queuePlace f.crew f.lane f.port = true ∧
          s.mayArrive entry (clusterOfCore (s.coreOf f.fromCrew)) (clusterOfCore (s.coreOf f.crew)) = true then
        ({ s with flights := s.flights.filter (fun g => g.id != entry) }).landPort f.crew f.lane f.port f.word (f.fromCrew, f.fromLane)
      else s)

/-- PORT_CREDIT_RETURN (R156). -/
def execPortCreditReturn (credit : Nat) (s : State) : Host.Outcome State Fault Refusal :=
  .next (match s.credits.find? (fun f => f.id == credit) with
    | none => s
    | some f =>
      let s := { s with credits := s.credits.filter (fun g => g.id != credit) }
      if (s.crews.find f.crew).isSome then s.addCredit f.crew f.lane f.port f.count else s)

/-- The port that a stall on a port word waits for: the first that is short of entries, else the one pushed while it has no credit. -/
def State.shortPort (s : State) (c l : Nat) (need : List (Nat × Nat)) (push : Option Nat) : Option Nat :=
  match need.find? (fun n => decide (((s.thread c l).port (portOf n.1)).queue.length < n.2)) with
  | some n => some n.1
  | none => push.filter (fun p => decide (((s.thread c l).port (portOf p)).credit = 0))

/-- The port a stalled thread waits on (R155, R160). -/
def State.stallPort (s : State) (c l : Nat) : Option Nat :=
  match (s.thread c l).stall with
  | some (.portEmpty need push) => s.shortPort c l need push
  | some (.portFull need push) => s.shortPort c l need push
  | _ => none

/-- PORT_STALL (R160): a thread stalled for 2^24 cycles on one port word of its resident crew. -/
def execPortStall (crew lane : Nat) (s : State) : Host.Outcome State Fault Refusal :=
  .next (match s.stallPort crew lane with
    | none => s
    | some p =>
      if (s.crew crew).resident ∧ (s.thread crew lane).st = .running ∧ 2 ^ 24 ≤ (s.thread crew lane).watchdog then
        s.parkLane crew lane .portStall (BitVec.ofNat 64 p) false false none
      else s)

end Sys2Proof.Machine
end

