-- ==== Sys2Proof/Machine/Expand.lean ====
section
/-! DEFINITION. The expand words (R176-R180). What the unit does by itself stands in Session.lean. -/

namespace Sys2Proof.Machine

/-- Registers one lane's range, taking the unit if it is free (R176): the status, and the machine. -/
def State.xldLane (s : State) (c l : Nat) (start : Word) (length : Nat) : Word × State :=
  let cr := s.crew c
  let q := cr.squad
  let core := (s.squad q).core
  let s : State :=
    if (s.core core).session.isNone then s.modCore core (fun k => { k with session := some { squad := q } }) else s
  let code := ownerCode cr.index l
  match s.sessionOf q with
  | none => (2#32, s)
  | some z =>
    if z.sealed then (1#32, s)
    else if z.owners.any (fun o => o.code == code) then (3#32, s)
    else if 2 ^ 32 ≤ z.lengths + length then (4#32, s)
    else
      let z := { z with owners := insertOwner { code := code, start := start, length := length } z.owners }
      (0#32, (s.setSession q z).modThread c l (fun t => { t.mark [124, 125] with xcur := 0, xopen := none }))

/-- XLD (R176). -/
def execXld (d a : LOp) (b : BOp) (s : State) : Host.Outcome State Fault Refusal :=
  withRun s (fun x s =>
    let regs := s.regsOf x.c
    laneGate (portDstOk regs d && a.noPort && srcOk regs 1 false a && b.noPort && bSrcOk regs 1 false b) true
      (linesOf 1 d ++ linesOf 1 a ++ bLinesOf 1 b) x s (fun s =>
      (x.lanes.foldl (fun s l =>
        let r := s.xldLane x.c l ((x.cr.thread l).readW l a) (x.cr.readBW l false b).toNat
        r.2.modThread x.c l (fun t => t.result d [r.1] 0#5)) s).advance x.c b.size))

/-- What one lane draws (R177): its thread's expand state, the owner code, the inner index and `p0`. The open iteration has
been closed before. -/
def Session.draw (z : Session) (code : Nat) (t : Thread) : Thread × Word × Word × Bool :=
  match z.rank code with
  | none => (t, 0x1FF#32, 0#32, false)
  | some r =>
    let f := t.xcur * z.ranks.length + r
    match z.ownerOf f with
    | some o =>
      if f < z.total then
        ({ t with xopen := some f, xcur := t.xcur + 1 }, BitVec.ofNat 32 o.code, o.start + BitVec.ofNat 32 (f - o.base), true)
      else (t, 0x1FF#32, 0#32, false)
    | none => (t, 0x1FF#32, 0#32, false)

/-- Writes what a lane has drawn. -/
def Thread.drawn (t : Thread) (d : LOp) (own inn : Word) (p : Bool) : Thread :=
  let t := (t.writeW d own).writeW (lopPlus d 1) inn
  (({ t.mark [124, 125, 126, 127] with xown := own, xinn := inn }).writeW (.p 0) (Word.ofBool p)).moveQ own

/-- One lane of `xdeal` (R177). -/
def State.xdealLane (s : State) (c : Nat) (d : LOp) (l : Nat) : State :=
  let cr := s.crew c
  let q := cr.squad
  let s := s.sealSession q
  let code := ownerCode cr.index l
  let part := ((s.sessionOf q).map (fun z => (z.rank code).isSome)).getD false
  let s : State := match (s.thread c l).xopen with
    | some f =>
      if part then (s.modThread c l (fun t => { t with xopen := none })).closeIndex q f none else s
    | none => s
  match s.sessionOf q with
  | none => s.modThread c l (fun t => t.drawn d 0x1FF#32 0#32 false)
  | some z =>
    s.modThread c l (fun t =>
      let r := z.draw code t
      r.1.drawn d r.2.1 r.2.2.1 r.2.2.2)

/-- A register operand with its odd partner (R177). -/
def pairRegOk (regs : Nat) (d : LOp) : Bool := dstOk regs 2 false d && d != .zero

/-- XDEAL (R177). -/
def execXdeal (d : LOp) (s : State) : Host.Outcome State Fault Refusal :=
  withRun s (fun x s =>
    laneGate (pairRegOk (s.regsOf x.c) d) true (linesOf 2 d) x s (fun s =>
      (x.lanes.foldl (fun s l => s.xdealLane x.c d l) s).advance x.c 1))

/-- The destination register of a reduction (R178). -/
def redDstOk (regs : Nat) (d : LOp) : Bool :=
  match d with
  | .v r => decide (r.val < regs)
  | .o _ => true
  | _ => false

/-- The term of an index would need an entry of a full term store (R172). -/
def Session.storeFull (z : Session) (f : Nat) : Bool :=
  decide (1024 ≤ z.terms.length) && !(((z.ownerOf f).map (fun o => o.next == f)).getD false)

/-- Fixes the reduction of a session that has none: every owner's partial result is the identity (R171). -/
def Session.fixRed (z : Session) (op : Nat) (d : LOp) : Session :=
  if z.red.isSome then z else { z with red := some (op, d), owners := z.owners.map (fun o => { o with part := redIdentity op }) }

/-- The register that the term of an index completes: the thread's own, where the index is the last of the thread's range (R17). -/
def Session.redDest (z : Session) (index l f : Nat) (d : LOp) : Dest :=
  if z.owners.any (fun o => o.code == ownerCode index l && decide (0 < o.length) && f == o.last) then .lane d else .none

/-- One lane of `xred` (R178). -/
def State.xredLane (s : State) (x : Issuer) (op : Nat) (d : LOp) (b : BOp) (l : Nat) : State :=
  let q := x.cr.squad
  match s.sessionOf q, (s.thread x.c l).xopen with
  | some z, some f =>
    if (z.red.map (fun r => r != (op, d))).getD false then s.parkLane x.c l .illegalOperand 0#64 false false none
    else if z.storeFull f then s.stall x.c [l] .termStore
    else
      let s := s.setSession q (z.fixRed op d)
      let s := s.startOp (x.newOp s (.xred f) [l] x.seta (z.redDest x.cr.index l f d) 0 4 0 [])
      (s.modThread x.c l (fun t => { t with xopen := none })).closeIndex q f (some (x.cr.readBW l (op == 1) b))
  | _, _ => s.parkLane x.c l .illegalOperand 0#64 false false none

/-- One issue of `xred`. -/
def xredIssue (op : Nat) (d : LOp) (b : BOp) (x : Issuer) (s : State) : State :=
  let regs := s.regsOf x.c
  opGate (redDstOk regs d && b.noPort && bSrcOk regs 1 false b) true x.seta (linesOf 1 d ++ bLinesOf 1 b) true x s (fun s =>
    (x.lanes.foldl (fun s l => s.xredLane x op d b l) s).advance x.c b.size)

/-- XRED_ADD (R178). -/
def execXredAdd (d : LOp) (b : BOp) (s : State) : Host.Outcome State Fault Refusal := withRun s (xredIssue 0 d b)

/-- XRED_FADD (R178). -/
def execXredFadd (d : LOp) (b : BOp) (s : State) : Host.Outcome State Fault Refusal := withRun s (xredIssue 1 d b)

/-- XRED_MIN (R178). -/
def execXredMin (d : LOp) (b : BOp) (s : State) : Host.Outcome State Fault Refusal := withRun s (xredIssue 2 d b)

/-- XRED_MAX (R178). -/
def execXredMax (d : LOp) (b : BOp) (s : State) : Host.Outcome State Fault Refusal := withRun s (xredIssue 3 d b)

/-- Work remains in a session: an index not closed, a term held, or a term's flag count outstanding (R179). -/
def State.sessionBusy (s : State) (q : Nat) (z : Session) : Bool :=
  decide ((z.owners.map (fun o => o.next - o.base)).sum + z.closed.length < z.lengths) || !z.terms.isEmpty
    || s.ops.any (fun op => (s.crew op.crew).squad == q && op.kind.isRed)

/-- XEND (R179). -/
def execXend (d : LOp) (s : State) : Host.Outcome State Fault Refusal :=
  withRun s (fun x s =>
    laneGate (portDstOk (s.regsOf x.c) d) true (linesOf 1 d) x s (fun s =>
      let q := x.cr.squad
      let r : Word × State := match s.sessionOf q with
        | none => (2#32, s)
        | some z =>
          if s.sessionBusy q z then (1#32, s)
          else (0#32, (s.modCore (s.squad q).core (fun k => { k with session := none })).modSquad q (fun r =>
            { r with savedSession := none }))
      (r.2.laneResults x d (fun _ => r.1)).advance x.c 1))

/-- The state word of a core's expand unit as a squad reads it (R180). -/
def State.xstWord (s : State) (q : Nat) : Word :=
  match (s.core (s.squad q).core).session with
  | none => 0#32
  | some z =>
    let st := if z.sealed then 2 else 1
    if z.squad = q then
      BitVec.ofNat 32 (st * 2 ^ 30 + 2 ^ 29 + (if z.sealed then z.ranks.length else 0) * 2 ^ 19 + z.terms.length * 2 ^ 8
        + z.lost)
    else BitVec.ofNat 32 (st * 2 ^ 30)

/-- XST (R180). -/
def execXst (d : LOp) (s : State) : Host.Outcome State Fault Refusal :=
  withRun s (fun x s =>
    laneGate (portDstOk (s.regsOf x.c) d) true (linesOf 1 d) x s (fun s =>
      (s.laneResults x d (fun _ => s.xstWord x.cr.squad)).advance x.c 1))

end Sys2Proof.Machine
end

