-- ==== Sys2Proof/Machine/Caps.lean ====
section
/-! DEFINITION. Capabilities: path summaries, the count table of a core, the frontiers, and taking and dropping (R227-R235). -/

namespace Sys2Proof.Machine

/-! ### Times and summaries (R227, R228) -/

/-- Counter k of a time, c0 outermost. -/
def timeCounter (t : DWord) (k : Nat) : Nat := bitsOf t.toNat (48 - 16 * k) 16

/-- A time incremented by n at counter k; `none` past 0xFFFF. -/
def timeInc (t : DWord) (k n : Nat) : Option DWord :=
  if n = 0 then some t
  else if 0xFFFF < timeCounter t k + n then none
  else some (BitVec.ofNat 64 ((t.toNat / 2 ^ (48 - 16 * k) + n) * 2 ^ (48 - 16 * k)))

/-- The summary from one stage to another, as its entry word; the diagonal is fixed (R228). -/
def Launch.summary (k : Launch) (a b : BitVec 4) : Word :=
  if a = b then 0x80000000#32 else k.sums.get (16 * a.toNat + b.toNat)

/-- A summary applied to a time: nothing where it is not valid or yields ⊤. -/
def Launch.reach (k : Launch) (a b : BitVec 4) (t : DWord) : Option DWord :=
  let w := (k.summary a b).toNat
  if bitsOf w 31 1 = 0 then none else timeInc t (bitsOf w 16 2) (bitsOf w 0 16)

/-- A stage that the launch declares. -/
def Launch.declares (k : Launch) (s : BitVec 4) : Bool := k.pkt.stMask.getLsbD s.toNat

/-! ### Frontiers (R234) -/

/-- The lesser of two frontiers; `none` is ⊤. -/
def minFront (a b : Option DWord) : Option DWord :=
  match a, b with
  | none, b => b
  | a, none => a
  | some x, some y => some (if x.ult y then x else y)

/-- A frontier is not greater than a time. -/
def frontLe (f : Option DWord) (t : DWord) : Bool := (f.map (fun x => !t.ult x)).getD false

/-- The frontier of a stage as the chip aggregator computes it (R234). -/
def Launch.frontier (k : Launch) (s : BitVec 4) : Option DWord :=
  let ts := (k.counts.filter (fun r => decide (0 < r.delta))).map (fun r => k.reach r.stage s r.time)
  let f := ts.foldl minFront none
  if k.startCap then minFront f (k.reach k.pkt.stStage s k.pkt.stTime) else f

/-- The frontier of a stage as last announced at a core; before any announcement, that of the launch's start by the summaries of its packet,
so that a summary installed later does not make it fall (R234). -/
def State.front (s : State) (core launch : Nat) (stage : BitVec 4) : Option DWord :=
  match (s.core core).fronts.find (16 * launch + stage.toNat) with
  | some f => f
  | none =>
    let k := s.launch launch
    Launch.reach { k with sums := k.startSums } k.pkt.stStage stage k.pkt.stTime

/-- The check of every increment (R232): from (a, t) to (b, u). -/
def State.incOk (s : State) (core launch : Nat) (a : BitVec 4) (t : DWord) (b : BitVec 4) (u : DWord) : Bool :=
  frontLe ((s.launch launch).reach a b t) u && frontLe (s.front core launch b) u

/-! ### The count table (R229, R233) -/

/-- Reports a change of a core's table (R234). -/
def State.report (s : State) (core : Nat) (r : Report) : State := s.modCore core (fun k => { k with reports := k.reports ++ [r] })

/-- The first entry number of a range that is free. -/
def freeEntry (t : AList CtEntry) (lo n : Nat) : Option Nat :=
  ((List.range n).map (lo + ·)).find? (fun i => (t.find i).isNone)

/-- The entries of a launch and stage whose time lies on one side of a time, best first by `better`. -/
def bestEntry (t : AList CtEntry) (ok : CtEntry → Bool) (better : CtEntry → CtEntry → Bool) : Option (Nat × CtEntry) :=
  (t.filter (fun e => ok e.2)).foldl (fun b e =>
    match b with
    | none => some e
    | some x => if better e.2 x.2 then some e else some x) none

/-- An increment at (launch, stage, time): the entry counted in, or nothing where the run stalls (R229, R233). DESIGN CHOICE (log 71): a merge
takes a full entry for none. -/
def State.ctInc (s : State) (core launch : Nat) (stage : BitVec 4) (time : DWord) : Option (Nat × State) :=
  let t := (s.core core).table
  let mine (e : CtEntry) : Bool := decide (e.launch = launch ∧ e.count < 0x7FFFFF) && e.stage == stage
  let put (i : Nat) (e : CtEntry) : State := s.modCore core (fun k => { k with table := k.table.set i e })
  let fresh (i : Nat) : Nat × State :=
    (i, (put i { launch := launch, stage := stage, time := time, count := 1 }).report core ⟨launch, stage, time, 1⟩)
  let merge (s : State) : State :=
    (s.modCore core (fun k => { k with merges := k.merges + 1 })).bump (s.partOfCore core) 4 1
  match bestEntry t (fun e => mine e && e.time == time) (fun _ _ => false) with
  | some (i, e) => some (i, (put i { e with count := e.count + 1 }).report core ⟨launch, stage, time, 1⟩)
  | none =>
    match freeEntry t 0 240 with
    | some i => some (fresh i)
    | none =>
      match bestEntry t (fun e => mine e && e.time.ult time) (fun a b => b.time.ult a.time) with
      | some (i, e) =>
        some (i, merge ((put i { e with count := e.count + 1, merged := true }).report core ⟨launch, stage, e.time, 1⟩))
      | none =>
        match bestEntry t (fun e => mine e && time.ult e.time) (fun a b => a.time.ult b.time) with
        | some (i, e) =>
          some (i, merge (((put i { e with time := time, count := e.count + 1, merged := true }).report core
            ⟨launch, stage, time, e.count + 1⟩).report core ⟨launch, stage, e.time, -e.count⟩))
        | none => (freeEntry t 240 16).map fresh

/-- A drop from an entry, freed when its count reaches 0 (R229). -/
def State.ctDec (s : State) (core entry : Nat) : State :=
  match (s.core core).table.find entry with
  | none => s
  | some e =>
    let s := s.modCore core (fun k =>
      { k with table := if e.count ≤ 1 then k.table.del entry else k.table.set entry { e with count := e.count - 1 } })
    s.report core ⟨e.launch, e.stage, e.time, -1⟩

/-- An increment would find room (R233). -/
def State.ctRoom (s : State) (core launch : Nat) (stage : BitVec 4) (time : DWord) : Bool :=
  (s.ctInc core launch stage time).isSome

/-- Counts several capabilities; nothing is counted unless all are (R232). -/
def State.ctIncs (s : State) (core launch : Nat) : List (BitVec 4 × DWord) → Option (List Nat × State)
  | [] => some ([], s)
  | (g, t) :: rest =>
    match s.ctInc core launch g t with
    | none => none
    | some (i, s) => (State.ctIncs s core launch rest).map (fun r => (i :: r.1, r.2))

/-- Changes the sum of a (stage, time) at the chip aggregator (R234). -/
def addCount (r : Report) : List Report → List Report
  | [] => if r.delta = 0 then [] else [r]
  | x :: xs =>
    if x.stage = r.stage ∧ x.time = r.time then
      (if x.delta + r.delta = 0 then xs else { x with delta := x.delta + r.delta } :: xs)
    else x :: addCount r xs

/-- Changes a launch's sums. -/
def State.chipCount (s : State) (r : Report) : State :=
  s.modLaunch r.launch (fun k => { k with counts := addCount r k.counts })

end Sys2Proof.Machine
end

