-- ==== Sys2Proof/Machine/UniMem.lean ====
section
/-! DEFINITION. The uniform loads, `scpy` and `sfil` (R83, R84, R125, R126). -/

namespace Sys2Proof.Machine

/-- The destination of a uniform load of `n` words (R81). -/
def loadRegOk (n : Nat) (d : UOp) : Bool :=
  match d with
  | .s r => decide (r.val % n = 0)
  | _ => false

/-- The registers that a uniform operation writes, from its first. -/
def regsFrom (d : UOp) (n : Nat) : List Nat := (d.reg?.map (fun r => (List.range n).map (r + ·))).getD []

/-- Parks the whole run with PAGE_FAULT and the one access held by its threads together (R83). -/
def State.holdUniform (s : State) (x : Issuer) (op : Op) (n : Nat) : State :=
  x.lanes.foldl (fun s l =>
    s.parkLane x.c l .pageFault (BitVec.ofNat 64 op.addr) false false (some (x.heldAt (some op) false false op.addr n))) s

/-- The address pair of `sldg`: a register pair, or `zero`, which reads as a zero pair; no constant and no literal (R82, R83). -/
def sldgBaseOk (a : UOp) : Bool := a.pair?.isSome || a == .zero

/-- One issue of `sldg` (R83). -/
def sldgIssue (n : Nat) (d a b : UOp) (x : Issuer) (s : State) : State :=
  opGate (loadRegOk n d && sldgBaseOk a && uSrcOk 1 b) true x.seta [] true x s (fun s =>
    let ea := effAddr true (x.cr.readUD a).toNat (x.cr.readU b).toInt
    let op := x.newOp s .sldg x.lanes x.seta (.uni (regsFrom d n)) ea (4 * n) 0 []
    if ea % (4 * n) ≠ 0 then s.raise x .misaligned (BitVec.ofNat 64 ea)
    else
      match s.access (s.coreOf x.c) (s.spaceOf x.c) ea false false with
      | (.denied, s) => s.raise x .protection (BitVec.ofNat 64 ea)
      | (.unmapped, s) => (s.supersede x.c (regsFrom d n)).holdUniform x op (uSize a b)
      | (.ok pa, s) => ((s.supersede x.c (regsFrom d n)).startOp { op with pa := pa }).advance x.c (uSize a b))

/-- SLDG_B32 (R83). -/
def execSldgB32 (d a b : UOp) (s : State) : Host.Outcome State Fault Refusal := withRun s (sldgIssue 1 d a b)

/-- SLDG_B64 (R83). -/
def execSldgB64 (d a b : UOp) (s : State) : Host.Outcome State Fault Refusal := withRun s (sldgIssue 2 d a b)

/-- One issue of `slds` (R83). -/
def sldsIssue (n : Nat) (d a b : UOp) (x : Issuer) (s : State) : State :=
  opGate (loadRegOk n d && uSrcOk 1 a && uSrcOk 1 b) true x.seta [] true x s (fun s =>
    let ea := effAddr false (x.cr.readU a).toNat (x.cr.readU b).toInt
    let op := x.newOp s .slds x.lanes x.seta (.uni (regsFrom d n)) ea (4 * n) 0 []
    if ea % (4 * n) ≠ 0 then s.raise x .misaligned (BitVec.ofNat 64 ea)
    else if (s.squadOf x.c).allot < ea + 4 * n then s.raise x .protection (BitVec.ofNat 64 ea)
    else ((s.supersede x.c (regsFrom d n)).startOp op).advance x.c (uSize a b))

/-- SLDS_B32 (R83). -/
def execSldsB32 (d a b : UOp) (s : State) : Host.Outcome State Fault Refusal := withRun s (sldsIssue 1 d a b)

/-- SLDS_B64 (R83). -/
def execSldsB64 (d a b : UOp) (s : State) : Host.Outcome State Fault Refusal := withRun s (sldsIssue 2 d a b)

/-- One issue of `scpy` or `sfil` (R125, R126): `src` is the source address, or 0 for a fill. -/
def scratchBlock (kind : Nat → OpKind) (src : Option Nat) (d a b : UOp) (x : Issuer) (s : State) : State :=
  let dst := (x.cr.readU d).toNat
  let n := (x.cr.readU b).toNat
  let from_ := src.getD 0
  let limit := (s.squadOf x.c).allot
  opGate (d.reg?.isSome && uSrcOk 1 a && uSrcOk 1 b) false x.setb [] true x s (fun s =>
    if dst % 4 ≠ 0 ∨ from_ % 4 ≠ 0 ∨ n % 4 ≠ 0 then s.raise x .misaligned 0#64
    else if limit < dst + n ∨ (src.isSome ∧ limit < from_ + n) then s.raise x .protection 0#64
    else (s.startOp (x.newOp s (kind n) x.lanes x.setb .none dst n 2 [])).advance x.c (uSize a b))

/-- SCPY (R125). -/
def execScpy (d a b : UOp) (s : State) : Host.Outcome State Fault Refusal :=
  withRun s (fun x s => scratchBlock (.scpy (x.cr.readU a).toNat) (some (x.cr.readU a).toNat) d a b x s)

/-- SFIL (R126). -/
def execSfil (d a b : UOp) (s : State) : Host.Outcome State Fault Refusal :=
  withRun s (fun x s => scratchBlock (.sfil (x.cr.readU a)) none d a b x s)

end Sys2Proof.Machine
end

