-- ==== Sys2Proof/Machine/Elect.lean ====
section
/-! DEFINITION. What the elected instructions share (R37): their checks at issue, the capability they take (R231), the engine jobs of a
core and their footprints (R140), and the end of a job (R187, R188, R215). -/

namespace Sys2Proof.Machine

/-! ### Issue -/

/-- The first check that fails. -/
def firstFail : List (Bool × Cause) → Option Cause
  | [] => none
  | (ok, c) :: rest => if ok then firstFail rest else some c

/-- The destination of an elected word's status: an `s` register or `zero`. -/
def electDstOk (d : UOp) : Bool := d.reg?.isSome || d == .zero

/-- The flag of an elected word: SETA with a status register, SETB without (R16). -/
def Issuer.electFlag (x : Issuer) (d : UOp) : Option Nat := if d == .zero then x.setb else x.seta

/-- The issue of an elected word: its operands, a SETA class without a flag (R16), its own checks in order, then what stalls the
run: a full flag, or what its entry names. -/
def electGate (ok : Bool) (checks : List (Bool × Cause)) (d : UOp) (stalls : List (Bool × Stall)) (x : Issuer) (s : State)
    (k : State → State) : State :=
  let flag := x.electFlag d
  if !ok then s.raise x .illegalOperand 0#64
  else if d != .zero && flag.isNone then s.raise x .illegalOp 0#64
  else
    match firstFail checks with
    | some c => s.raise x c 0#64
    | none =>
      if s.flagFull x.c x.lanes flag then s.stall x.c x.lanes (.flagFull (flag.getD 0) x.lanes)
      else
        match stalls.find? Prod.fst with
        | some st => s.stall x.c x.lanes st.2
        | none => k s

/-- A register block `sN` up of `n` registers (R191, R216): its words, where N is at most `top`. -/
def Crew.block (cr : Crew) (a : UOp) (n top : Nat) : Option (List Word) :=
  match a with
  | .s r => if r.val ≤ top then some ((List.range n).map (fun k => cr.s.get (r.val + k))) else none
  | _ => none

/-- A field of a block's register. -/
def blk (b : List Word) (k lo n : Nat) : Nat := bitsOf (b.getD k 0#32).toNat lo n

/-- Bits of a block's register are 0. -/
def blkZero (b : List Word) (k lo n : Nat) : Bool := blk b k lo n == 0

/-- The 64-bit value of two registers of a block. -/
def blkD (b : List Word) (k : Nat) : Nat := (Word.pair (b.getD k 0#32) (b.getD (k + 1) 0#32)).toNat

/-- The stage and the time at which an operation of the run takes its capability: its lowest lane's (R231). -/
def State.runTime (s : State) (x : Issuer) : BitVec 4 × DWord := ((s.thread x.c x.lowest).stage, (s.thread x.c x.lowest).time)

/-- The check of the increment that an operation makes at its own run's (stage, time) (R232, R243). -/
def capCheck (s : State) (x : Issuer) : Bool × Cause :=
  let g := s.runTime x
  (s.incOk (s.coreOf x.c) (s.launchIdOf x.c) g.1 g.2 g.1 g.2, .timeOrder)

/-- The stall for want of room in the count table (R233). -/
def capStall (s : State) (x : Issuer) (stage : BitVec 4) (time : DWord) : Bool × Stall :=
  (!s.ctRoom (s.coreOf x.c) (s.launchIdOf x.c) stage time, .countTable (s.coreOf x.c) (s.launchIdOf x.c) stage time)

/-- Queues an engine job for a run: its flag counts, and a later place than any outstanding status to its register (R36, R187). -/
def State.queueJob (s : State) (x : Issuer) (d : UOp) (kind : JobKind) (matrix : Bool) (cap : Nat) : State :=
  let g := s.runTime x
  let s := (s.supersede x.c d.reg?.toList).flagAdd x.c x.lanes (x.electFlag d)
  let j : Job := { id := s.nextId, core := s.coreOf x.c, home := s.coreOf x.c, squad := x.cr.squad, crew := x.c, lanes := x.lanes
                   flag := x.electFlag d, sd := d.reg?, pc := x.pc, stage := g.1, time := g.2, cap := cap, kind := kind
                   matrix := matrix }
  { s with jobs := s.jobs ++ [j], nextId := s.nextId + 1 }

/-- Takes the capability of an operation of a run (R231) and goes on with its entry. There is room (`capStall`). -/
def State.withCap (s : State) (x : Issuer) (k : Nat → State → State) : State :=
  let g := s.runTime x
  match s.ctInc (s.coreOf x.c) (s.launchIdOf x.c) g.1 g.2 with
  | none => s
  | some (i, s) => k i s

/-! ### Footprints (R140) -/

/-- A region that a job reads or writes: global memory of a space, or the scratch of a squad. -/
structure Region where
  glob : Bool
  /-- The address space, or the squad. -/
  of_ : Nat
  lo : Nat
  len : Nat
  w : Bool
deriving DecidableEq, Repr

/-- Two regions share a byte that one of them writes. -/
def Region.clash (a b : Region) : Bool :=
  a.glob == b.glob && a.of_ == b.of_ && (a.w || b.w) && decide (a.lo < b.lo + b.len ∧ b.lo < a.lo + a.len)

/-- Bytes that a job is about to touch. -/
structure Range where
  glob : Bool
  addr : Nat
  len : Nat
  w : Bool
deriving DecidableEq, Repr

/-- A range of bytes as a region, of an address space or a squad. -/
def Range.region (r : Range) (space squad : Nat) : Region := ⟨r.glob, if r.glob then space else squad, r.addr, r.len, r.w⟩

/-- Two footprints overlap. -/
def clashes (a b : List Region) : Bool := a.any (fun r => b.any r.clash)

/-! ### Pages of a job (R188, R224) -/

/-- The first byte touched in each 64 KiB page of a range of global memory. -/
def Range.pages (r : Range) : List (Nat × Bool) :=
  if !r.glob || r.len == 0 then []
  else
    let p0 := r.addr / 65536
    (List.range ((r.addr + r.len - 1) / 65536 - p0 + 1)).map (fun i => (max r.addr ((p0 + i) * 65536), r.w))

/-- Leaves out a page that is listed already with the same kind of access. -/
def addPage (l : List (Nat × Bool)) (p : Nat × Bool) : List (Nat × Bool) :=
  if l.any (fun q => q.1 / 65536 == p.1 / 65536 && q.2 == p.2) then l else l ++ [p]

/-- The pages of several ranges, in order. -/
def pagesOf (rs : List Range) : List (Nat × Bool) := (rs.flatMap Range.pages).foldl addPage []

/-- Translates pages for a core: the physical base of each, or the first that fails. -/
def State.openPages (s : State) (core space : Nat) : List (Nat × Bool) → Except (Nat × Bool × Xlate) (List (Nat × Nat)) × State
  | [] => (.ok [], s)
  | p :: ps =>
    match s.access core space p.1 p.2 false with
    | (.ok pa, s) =>
      match State.openPages s core space ps with
      | (.ok m, s) => (.ok ((p.1 / 65536, pa - p.1 % 65536) :: m), s)
      | (.error e, s) => (.error e, s)
    | (x, s) => (.error (p.1, p.2, x), s)

/-- Some page may not be accessed as the job will; pages that are not mapped aside. -/
def State.pagesDenied (s : State) (core space : Nat) (ps : List (Nat × Bool)) : Bool :=
  ps.any (fun p => (s.access core space p.1 p.2 false).1 == .denied)

/-- The physical address of a virtual one in opened pages. -/
def physIn (m : List (Nat × Nat)) (va : Nat) : Nat :=
  match m.find? (fun p => p.1 == va / 65536) with
  | some p => p.2 + va % 65536
  | none => 0

/-- What a job reads: a byte, and whether it is poisoned, by space (true global). -/
structure JobMem where
  byte : Bool → Nat → Byte
  bad : Bool → Nat → Bool

/-- The memory of a job with its pages opened: its island's view, and its squad's scratch. -/
def State.jobMem (s : State) (core squad : Nat) (m : List (Nat × Nat)) : JobMem :=
  let view := s.mem.view (islandOfCore core)
  let sq := s.squad squad
  { byte := fun g a => if g then view.get (physIn m a) else sq.scratch.get a
    bad := fun g a => if g then s.mem.poisoned (physIn m a) 1 else sq.scratchPoison.contains (a / 4) }

/-- Bytes of a job's memory. -/
def JobMem.read (m : JobMem) (g : Bool) (a n : Nat) : List Byte := (List.range n).map (fun i => m.byte g (a + i))

/-- Some byte of a range is poisoned. -/
def JobMem.anyBad (m : JobMem) (g : Bool) (a n : Nat) : Bool := (List.range n).any (fun i => m.bad g (a + i))

/-- A job writes cells of global memory, already translated: the write of its squad from its core's island (R140, R141). -/
def State.jobWrite (s : State) (core squad job : Nat) (cells : List Host.Cell) : State :=
  if cells.isEmpty then s else s.setMem (s.mem.write (islandOfCore core) cells squad job [])

/-- A job writes cells of its squad's scratch; words written whole are clean (R123). -/
def Squad.writeCells (q : Squad) (cells : List Host.Cell) : Squad :=
  let whole (w : Nat) : Bool := (List.range 4).all (fun i => cells.any (fun x => x.1 == 4 * w + i))
  { q with scratch := q.scratch.writeCells cells, scratchPoison := q.scratchPoison.filter (fun w => !whole w) }

/-- Marks words of a squad's scratch poisoned. -/
def Squad.poisonWords (q : Squad) (ws : List Nat) : Squad :=
  { q with scratchPoison := ws.foldl (fun p w => insertSorted w p) q.scratchPoison }

/-- Marks lines of global memory poisoned. -/
def State.poisonLines (s : State) (ls : List Nat) : State := s.setMem (ls.foldl (fun g l => g.addPoison l) s.mem)

/-- Writes cells for a job, in virtual or squad addresses, with those of them that are poisoned (R201, R224). -/
def State.writeOut (s : State) (j : Job) (glob : Bool) (m : List (Nat × Nat)) (cells : List Host.Cell) (bad : List Nat) : State :=
  if glob then
    (s.jobWrite j.core j.squad j.id (cells.map (fun c => (physIn m c.1, c.2)))).poisonLines (bad.map (fun a => physIn m a / 128))
  else s.modSquad j.squad (fun q => (q.writeCells cells).poisonWords (bad.map (· / 4)))

/-! ### The end of a job -/

/-- The job of a number. -/
def State.job (s : State) (id : Nat) : Option Job := s.jobs.find? (fun j => j.id == id)

/-- Changes a job. -/
def State.modJob (s : State) (id : Nat) (f : Job → Job) : State := { s with jobs := mapIf (fun j => j.id == id) f s.jobs }

/-- The lowest of the errors met; 0 where there is none (R187, R215). -/
def lowestErr (errs : List Nat) : Nat := errs.foldl (fun a e => if a = 0 then e else min a e) 0

/-- The cause that an error of a job delivers to its issuer (R188, R224). -/
def errCause (e : Nat) : Option Cause := if e = 2 then some .poison else if e = 3 then some .protection else none

/-- A cause of an engine job is delivered to a thread at the next header that it reaches (R188). -/
def State.deferEngine (s : State) (c l : Nat) (cause : Cause) (pc : DWord) : State :=
  s.deferCause c l { cause := cause, addr := pc, defer := true, eng := true }

/-- Writes a status word to a crew's uniform register, where one is named. -/
def State.writeStatus (s : State) (c : Nat) (sd : Option Nat) (w : Word) : State :=
  match sd with
  | some r => s.modCrew c (fun cr => cr.writeUs r [w])
  | none => s

/-- The opcode of the word that issued a job. -/
def Job.opcode (j : Job) : Nat :=
  match j.kind with
  | .cpy _ _ _ _ _ => 0x40
  | .cpyt _ _ _ _ _ => 0x41
  | .cpym _ _ _ _ _ _ _ _ => 0x42
  | .mma _ _ _ m _ => if m.isSome then 0x45 else 0x44
  | .mzero _ => 0x46
  | .mld _ _ => 0x47
  | .mst _ _ => 0x48
  | .madd _ _ _ => 0x49
  | .mpred _ _ => 0x4A
  | .cins _ _ _ _ _ _ first => if first then 0x52 else 0x51

/-- Writes the event record of a job's start (type 0, its opcode) or end (type 1, the upper half of its status) (R325). -/
def State.jobEvent (s : State) (j : Job) (type data : Nat) : State :=
  s.event (s.partOfCore j.core) (if j.matrix then 1 else 0) type j.core (s.crew j.crew).slot (s.squad j.squad).launch data

/-- Ends a job: its status word is written, its flag counts are removed, its capability is dropped once its writes are applied, and
a cause goes to the run's lowest lane (R187, R188, R215, R224, R231). -/
def State.finishJob (s : State) (j : Job) (extra : Nat) : State :=
  let err := lowestErr j.errs
  let status := 2 ^ 31 + err * 2 ^ 28 + extra
  let s := ({ s with jobs := s.jobs.filter (fun k => k.id != j.id) }).jobEvent j 1 (status / 2 ^ 16)
  let s := s.writeStatus j.crew j.sd (BitVec.ofNat 32 status)
  let s := s.flagSub j.crew j.lanes j.flag
  let s := s.addDropAt j.core j.cap j.squad 0
  match errCause err with
  | some c => s.deferEngine j.crew (j.lanes.headD 0) c j.pc
  | none => s

/-- Holds a job on a translation fault (R188, R224). -/
def State.holdJob (s : State) (j : Job) (addr : Nat) (w : Bool) : State :=
  (s.modJob j.id (fun k => { k with fault := some (BitVec.ofNat 64 addr, w), walked := false })).addWalk (.job j.id)

/-- Opens the pages of a job and goes on, or holds the job, or hands back a page it may not access. -/
def State.withPages (s : State) (j : Job) (rs : List Range) (denied : State → State)
    (k : JobMem → List (Nat × Nat) → State → State) : State :=
  match s.openPages j.core (s.launch (s.squad j.squad).launch).pkt.space (pagesOf rs) with
  | (.ok m, s) => k (s.jobMem j.core j.squad m) m s
  | (.error (a, w, .unmapped), s) => s.holdJob j a w
  | (.error _, s) => denied s

/-- A job may run on: it has started and is not held. -/
def Job.running (j : Job) : Bool := j.started && (j.fault.isNone || j.ended)

/-- Every access of the issuing threads before the job has been performed (R140). -/
def State.issuerDone (s : State) (j : Job) : Bool :=
  s.ops.all (fun op => !(op.crew == j.crew && decide (op.id < j.id) && op.lanes.any j.lanes.contains
    && (op.kind.reads || op.kind.writes)))

end Sys2Proof.Machine
end

