-- ==== Sys2Proof/Machine/IntOps.lean ====
section
/-! DEFINITION. The integer and logic functions of R75-R79, which the lane set and the uniform set share (R81). -/

namespace Sys2Proof.Machine

/-- An integer clamped to the signed 32-bit range. -/
def satS (v : Int) : Word := BitVec.ofInt 32 (max (-2147483648) (min 2147483647 v))

/-- `add.sat`. -/
def addSatW (x y : Word) : Word := satS (x.toInt + y.toInt)

/-- `sub.sat`. -/
def subSatW (x y : Word) : Word := satS (x.toInt - y.toInt)

/-- The exact signed product in 64 bits. -/
def mulWideS (x y : Word) : DWord := BitVec.ofInt 64 (x.toInt * y.toInt)

/-- The exact unsigned product in 64 bits. -/
def mulWideU (x y : Word) : DWord := BitVec.ofNat 64 (x.toNat * y.toNat)

/-- `shl` (R76): 0 for amounts of 32 or more. -/
def shlW (x y : Word) : Word := if y.toNat ≤ 31 then x <<< y.toNat else 0#32

/-- `shr` (R76). -/
def shrW (x y : Word) : Word := if y.toNat ≤ 31 then x >>> y.toNat else 0#32

/-- `sar` (R76): copies of the sign for amounts of 32 or more. -/
def sarW (x y : Word) : Word :=
  if y.toNat ≤ 31 then x.sshiftRight y.toNat else if x.msb then 0xFFFFFFFF#32 else 0#32

/-- `rotl`. -/
def rotlW (x y : Word) : Word := x.rotateLeft (y.toNat % 32)

/-- Leading zero bits from bit `n - 1` down. -/
def clzFrom (y : Word) : Nat → Nat
  | 0 => 0
  | n + 1 => if y.getLsbD n then 0 else clzFrom y n + 1

/-- `clz`: 32 for 0. -/
def clzW (y : Word) : Word := BitVec.ofNat 32 (clzFrom y 32)

/-- `popc`. -/
def popcW (y : Word) : Word := BitVec.ofNat 32 ((List.range 32).countP (fun i => y.getLsbD i))

/-- `brev`: bit k of the result is bit 31 - k. -/
def brevW (y : Word) : Word := y.reverse

/-- The position that a bit-field control word names (R77). -/
def fieldPos (y : Word) : Nat := (y.extractLsb' 0 5).toNat

/-- The length that a bit-field control word names, at most 32 (R77). -/
def fieldLen (y : Word) : Nat := min (y.extractLsb' 8 6).toNat 32

/-- `bfe.u` (R77). -/
def bfeUW (x y : Word) : Word := BitVec.ofNat 32 (x.toNat / 2 ^ fieldPos y % 2 ^ fieldLen y)

/-- `bfe.s` (R77): bits above bit 31 read as the sign, and the field is sign-extended. -/
def bfeSW (x y : Word) : Word :=
  let n := fieldLen y
  let g := (x.sshiftRight (fieldPos y)).toNat % 2 ^ n
  if n = 0 then 0#32 else BitVec.ofInt 32 (if 2 ^ (n - 1) ≤ g then (g : Int) - 2 ^ n else g)

/-- `bfi` (R77): a field that reaches past bit 31 is cut. -/
def bfiW (x y z : Word) : Word :=
  let mask : Word := BitVec.ofNat 32 ((2 ^ fieldLen y - 1) * 2 ^ fieldPos y)
  (z &&& ~~~mask) ||| ((x <<< fieldPos y) &&& mask)

/-- Signed minimum. -/
def minSW (x y : Word) : Word := if y.slt x then y else x

/-- Unsigned minimum. -/
def minUW (x y : Word) : Word := if y.ult x then y else x

/-- Signed maximum. -/
def maxSW (x y : Word) : Word := if x.slt y then y else x

/-- Unsigned maximum. -/
def maxUW (x y : Word) : Word := if x.ult y then y else x

/-- `sel`: x where z is nonzero, else y. -/
def selW (x y z : Word) : Word := if z ≠ 0#32 then x else y

/-- Byte `k` of a word. -/
def byteAt (x : Word) (k : Nat) : Byte := x.extractLsb' (8 * k) 8

/-- Byte `k` of a permutation (R78): bytes 0-3 are x's and 4-7 z's; bit 3 of the selector spreads the sign. -/
def prmtByte (x y z : Word) (k : Nat) : Byte :=
  let c := (y.extractLsb' (4 * k) 4).toNat
  let b := if c % 8 < 4 then byteAt x (c % 8) else byteAt z (c % 8 - 4)
  if c < 8 then b else if b.msb then 0xFF#8 else 0x00#8

/-- `prmt` (R78). -/
def prmtW (x y z : Word) : Word :=
  BitVec.ofNat 32 ((prmtByte x y z 0).toNat + (prmtByte x y z 1).toNat * 2 ^ 8 + (prmtByte x y z 2).toNat * 2 ^ 16
    + (prmtByte x y z 3).toNat * 2 ^ 24)

/-- `udiv` (R79). -/
def udivW (x y : Word) : Word := if y = 0#32 then 0xFFFFFFFF#32 else x / y

/-- `urem` (R79). -/
def uremW (x y : Word) : Word := if y = 0#32 then x else x % y

/-- `sdiv` (R79): truncated toward zero. -/
def sdivW (x y : Word) : Word := if y = 0#32 then 0xFFFFFFFF#32 else BitVec.ofInt 32 (x.toInt.tdiv y.toInt)

/-- `srem` (R79): the sign of the dividend. -/
def sremW (x y : Word) : Word := if y = 0#32 then x else BitVec.ofInt 32 (x.toInt.tmod y.toInt)

/-- A nonzero test. -/
def nz (x : Word) : Bool := x != 0#32

/-- `dp4.s` (R113). -/
def dp4SW (x y z : Word) : Word :=
  z + BitVec.ofInt 32 (((List.range 4).map (fun k => (byteAt x k).toInt * (byteAt y k).toInt)).sum)

/-- `dp4.u` (R113). -/
def dp4UW (x y z : Word) : Word :=
  z + BitVec.ofNat 32 (((List.range 4).map (fun k => (byteAt x k).toNat * (byteAt y k).toNat)).sum)

end Sys2Proof.Machine
end

