-- ==== Sys2Proof/Machine/Tensor.lean ====
section
/-! DEFINITION. Tensor identifiers: descriptors, elements and scales (R182, R183), the amax ring (R99), the identifier words (R203-R205)
and the bitmap intersect unit (R206). -/

namespace Sys2Proof.Machine

/-! ### Descriptors (R182) -/

/-- A word of the descriptor, as a number. -/
def Tensor.word (t : Tensor) (k : Nat) : Nat := (t.words.getD k 0#32).toNat

/-- STAGE. -/
def Tensor.stage (t : Tensor) : BitVec 4 := BitVec.ofNat 4 (bitsOf (t.word 0) 10 4)

/-- SCALED. -/
def Tensor.scaled (t : Tensor) : Bool := bitsOf (t.word 0) 9 1 = 1

/-- The tensor as a job that reads and writes no scale takes it. -/
def Tensor.unscaled (t : Tensor) : Tensor :=
  { t with words := t.words.set 0 (t.words.getD 0 0#32 &&& ~~~0x200#32) }

/-- SPACE: global. -/
def Tensor.glob (t : Tensor) : Bool := bitsOf (t.word 0) 8 1 = 1

/-- NDIM. -/
def Tensor.ndim (t : Tensor) : Nat := bitsOf (t.word 0) 4 4

/-- BASE. -/
def Tensor.base (t : Tensor) : Nat := t.word 2 + 2 ^ 32 * t.word 3

/-- SBASE. -/
def Tensor.sbase (t : Tensor) : Nat := t.word 4 + 2 ^ 32 * t.word 5

/-- SIZE of a dimension; 1 at or above NDIM. -/
def Tensor.size (t : Tensor) (i : Nat) : Nat := if i < t.ndim then t.word (6 + i) else 1

/-- STRIDE of a dimension from 1 to 8. -/
def Tensor.stride (t : Tensor) (i : Nat) : Nat := t.word (14 + 2 * i) + 2 ^ 32 * t.word (15 + 2 * i)

/-! ### Elements (R183) -/

/-- Every index lies within its size. -/
def Tensor.inRange (t : Tensor) (idx : List Nat) : Bool := (List.range 9).all (fun k => decide (idx.getD k 0 < t.size k))

/-- Where the row of an element starts. -/
def Tensor.row (t : Tensor) (idx : List Nat) : Nat :=
  t.base + ((List.range 8).map (fun k => idx.getD (k + 1) 0 * t.stride (k + 1))).sum

/-- The first byte of an element and the bit in it. -/
def Tensor.place (t : Tensor) (idx : List Nat) : Nat × Nat :=
  let bit := idx.getD 0 0 * fmtBits t.fmt
  (t.row idx + bit / 8, bit % 8)

/-- The bytes that an element of `e` bits from bit `b` on touches. -/
def spanBytes (b e : Nat) : Nat := (b + e + 7) / 8

/-- The number of an element among the rows: i1 + SIZE1 × (i2 + SIZE2 × (…)). -/
def Tensor.rowNumber (t : Tensor) (idx : List Nat) : Nat :=
  (List.range 8).foldr (fun k acc => idx.getD (k + 1) 0 + t.size (k + 1) * acc) 0

/-- The address of an element's scale byte. -/
def Tensor.scaleAddr (t : Tensor) (idx : List Nat) : Nat :=
  t.sbase + idx.getD 0 0 / 32 + (t.size 0 + 31) / 32 * t.rowNumber idx

/-- The bytes that an access of an element touches; `w` a write. -/
def Tensor.ranges (t : Tensor) (w : Bool) (idx : List Nat) : List Range :=
  if !t.inRange idx then []
  else
    let p := t.place idx
    ⟨t.glob, p.1, spanBytes p.2 (fmtBits t.fmt), w⟩ :: (if t.scaled then [⟨t.glob, t.scaleAddr idx, 1, w⟩] else [])

/-- One element as a job reads it: its code, its block-scale exponent (`none` is the NaN scale) and whether it is poisoned. -/
structure Read where
  code : Nat
  scale : Option Int
  bad : Bool
deriving DecidableEq, Repr

/-- The exponent of a scale byte. -/
def scaleExp (b : Byte) : Option Int := if b.toNat = 255 then none else some ((b.toNat : Int) - 127)

/-- Reads an element; out of range is +0 with no scale. -/
def JobMem.elem (m : JobMem) (t : Tensor) (idx : List Nat) : Read :=
  if !t.inRange idx then ⟨0, some 0, false⟩
  else
    let e := fmtBits t.fmt
    let p := t.place idx
    let n := spanBytes p.2 e
    let code := natOfBytes (m.read t.glob p.1 n) / 2 ^ p.2 % 2 ^ e
    let bad := m.anyBad t.glob p.1 n
    if t.scaled then ⟨code, scaleExp (m.byte t.glob (t.scaleAddr idx)), bad || m.bad t.glob (t.scaleAddr idx)⟩
    else ⟨code, some 0, bad⟩

/-- The bytes that writing a code to an element changes, with the bits in them. -/
def elemCells (t : Tensor) (idx : List Nat) (code : Nat) : List MCell :=
  if !t.inRange idx then []
  else
    let e := fmtBits t.fmt
    let p := t.place idx
    let n := spanBytes p.2 e
    (cellsAt p.1 (bytesOfNat n (code % 2 ^ e * 2 ^ p.2))).zipWith (fun c m => { addr := c.1, mask := m, val := c.2 })
      (bytesOfNat n ((2 ^ e - 1) * 2 ^ p.2))

/-- The byte at an address under cells written so far, latest first. -/
def overCells (cells : List Host.Cell) (old : Nat → Byte) (a : Nat) : Byte :=
  match cells.find? (fun c => c.1 == a) with
  | some c => c.2
  | none => old a

/-- Masked bytes as whole bytes, in order, over what was there. -/
def resolveCells (old : Nat → Byte) (ms : List MCell) : List Host.Cell :=
  (ms.foldl (fun cs m =>
    (m.addr, if m.mask = 0xFF#8 then m.val else (overCells cs old m.addr &&& ~~~m.mask) ||| m.val) :: cs) []).reverse

/-- The last byte that a tensor's elements reach, plus 1. -/
def Tensor.extent (t : Tensor) : Nat :=
  let idx := (List.range 9).map (fun k => t.size k - 1)
  let p := t.place idx
  p.1 + spanBytes p.2 (fmtBits t.fmt)

/-- The last scale byte, plus 1. -/
def Tensor.scaleExtent (t : Tensor) : Nat := t.scaleAddr ((List.range 9).map (fun k => t.size k - 1)) + 1

/-- The footprint of a tensor: its elements and its scales (R186). -/
def Tensor.regions (t : Tensor) (space squad : Nat) (w : Bool) : List Region :=
  let of_ := if t.glob then space else squad
  ⟨t.glob, of_, t.base, t.extent - t.base, w⟩ ::
    (if t.scaled then [⟨t.glob, of_, t.sbase, t.scaleExtent - t.sbase, w⟩] else [])

/-! ### The amax ring (R99) -/

/-- The largest finite value of a quantising format, as an FP32 value. -/
def fmtMax (fmt : Nat) : Nat × Int :=
  if fmt = 3 then (57344, 0) else if fmt = 4 then (448, 0) else if fmt = 5 then (28, 0) else if fmt = 6 then (15, -1)
  else if fmt = 7 then (6, 0) else (16384, 0)

/-- A magnitude times 2^k is at most the format's largest value. -/
def fitsMax (fmt : Nat) (m : Word) (k : Int) : Bool :=
  match fval m with
  | .fin _ sig e => (exactSum false sig (e + k) true (fmtMax fmt).1 (fmtMax fmt).2).1 ≤ 0
  | _ => false

/-- The greatest k from -127 to 127 for which a magnitude fits. -/
def bestScale (fmt : Nat) (m : Word) : Int :=
  (((List.range 255).map (fun (i : Nat) => (127 : Int) - i)).find? (fitsMax fmt m)).getD (-127)

/-- The greatest nonzero magnitude in a ring. -/
def ringMax (r : List (Option Word)) : Word :=
  r.foldl (fun a o => match o with
    | none => a
    | some m => if a.ult m then m else a) 0#32

/-- One advance of an identifier's ring. -/
def Tensor.advance (t : Tensor) : Tensor :=
  let m := ringMax t.ring
  let sexp := if m = 0#32 then 0 else if m = 0x7F800000#32 then -127 else bestScale t.fmt m
  let h := (t.head + 1) % 16
  { t with sexp := sexp, head := h, ring := t.ring.set h none, advances := t.advances + 1 }

/-- Records a job's greatest magnitude into the slot that was the head at its issue, unless the identifier is another now or the slot
has been emptied since (R198). -/
def State.recordAmax (s : State) (squad : Nat) (snap : Tensor) (mag : Option Word) : State :=
  match mag with
  | none => s
  | some m =>
    let fix (t : Tensor) : Tensor :=
      if t.uid = snap.uid ∧ t.advances < snap.advances + 16 then
        { ({ t with head := snap.head }).record m with head := t.head }
      else t
    s.modSquad squad (fun q => { q with tx := q.tx.map (fun (p : Nat × Tensor) => (p.1, fix p.2)) })

/-! ### tdef, txrd, tfree (R203-R205) -/

/-- The descriptor is one that `tdef` takes (R203, status 1 otherwise). R203 lists a SIZE of 0 and no SIZE above the 2^31 of R182, so such
a one is bound (DEDUCED, log 13). -/
def Tensor.legal (t : Tensor) : Bool :=
  bitsOf (t.word 0) 14 18 == 0 && t.word 1 == 0 && t.word 15 == 0 && t.fmt != 15 && decide (1 ≤ t.ndim ∧ t.ndim ≤ 9)
    && (List.range t.ndim).all (fun i => decide (1 ≤ t.size i))
    && (List.range 8).all (fun i => decide (t.ndim ≤ i + 1 ∨ t.stride (i + 1) < 2 ^ 48))
    && t.base % 16 == 0 && (t.glob || t.word 3 == 0) && (t.glob || !t.scaled || t.word 5 == 0)

/-- The tensor and its scales lie within an allotment. -/
def Tensor.within (t : Tensor) (allot : Nat) : Bool :=
  t.glob || (decide (t.extent ≤ allot) && (!t.scaled || decide (t.scaleExtent ≤ allot)))

/-- Identifier entries of a core in use by the squads resident on it (R181). -/
def State.txUsed (s : State) (core : Nat) : Nat :=
  ((s.squads.filter (fun (p : Nat × Squad) => p.2.core == core && !p.2.out && (p.2.st == .resident || p.2.st == .stopping))).map
    (fun (p : Nat × Squad) => p.2.tx.length)).sum

/-- The status of `tdef` for a descriptor (R203). -/
def State.tdefStatus (s : State) (q n : Nat) (t : Tensor) : Nat :=
  if !t.legal then 1
  else if !t.within (s.squad q).allot then 2
  else if (s.tensor q n).isNone ∧ 64 ≤ s.txUsed (s.squad q).core then 3
  else 0

/-- The 128 bytes of a descriptor, under the scratch stores of the run's threads that are not applied yet. -/
def State.descriptor (s : State) (x : Issuer) (addr : Nat) : List Word :=
  let op := { x.newOp s .lds x.lanes none .none addr 128 2 [] with id := s.nextId }
  wordsOfData (overlay s.ops op (sameLocalStore .lds) Op.addr ((s.squad x.cr.squad).scratch.read addr 128))

/-- TDEF (R203). -/
def execTdef (d a b : UOp) (s : State) : Host.Outcome State Fault Refusal :=
  withRun s (fun x s =>
    let n := (x.cr.readU a).toNat
    let addr := (x.cr.readU b).toNat
    if !(uDstOk 1 d && uSrcOk 1 a && uSrcOk 1 b) || decide (64 ≤ n) then s.raise x .illegalOperand 0#64
    else if addr % 16 ≠ 0 then s.raise x .misaligned (BitVec.ofNat 64 addr)
    else if (s.squadOf x.c).allot < addr + 128 then s.raise x .protection (BitVec.ofNat 64 addr)
    else
      let t : Tensor := { words := s.descriptor x addr, uid := s.nextId }
      let st := s.tdefStatus x.cr.squad n t
      let s : State := if st = 0 then
          ({ s with nextId := s.nextId + 1 }).modSquad x.cr.squad (fun q => { q with tx := q.tx.set n t })
        else s
      (s.writeUni x.c d [BitVec.ofNat 32 st]).advance x.c (uSize a b))

/-- What `txrd` reads of an identifier (R204). -/
def Tensor.readSel (t : Tensor) (sel : Nat) : Word :=
  if sel < 32 then t.words.getD sel 0#32
  else if sel = 32 then BitVec.ofNat 32 (2 ^ 31 + t.head * 2 ^ 16) ||| (BitVec.ofInt 8 t.sexp).setWidth 32
  else (t.ring.getD (sel - 33) none).getD 0xFFFFFFFF#32

/-- TXRD (R204). -/
def execTxrd (d a b : UOp) (s : State) : Host.Outcome State Fault Refusal :=
  withRun s (fun x s =>
    let n := (x.cr.readU a).toNat
    let sel := (x.cr.readU b).toNat
    if !(uDstOk 1 d && uSrcOk 1 a && uSrcOk 1 b) || decide (64 ≤ n) || decide (48 < sel) then s.raise x .illegalOperand 0#64
    else
      let w := ((s.tensor x.cr.squad n).map (·.readSel sel)).getD 0#32
      (s.writeUni x.c d [w]).advance x.c (uSize a b))

/-- TFREE (R205). -/
def execTfree (d a : UOp) (s : State) : Host.Outcome State Fault Refusal :=
  withRun s (fun x s =>
    let n := (x.cr.readU a).toNat
    if !(uDstOk 1 d && uSrcOk 1 a) || decide (64 ≤ n) then s.raise x .illegalOperand 0#64
    else
      let st : Word := if (s.tensor x.cr.squad n).isSome then 0#32 else 1#32
      let s := s.modSquad x.cr.squad (fun q => { q with tx := q.tx.del n })
      (s.writeUni x.c d [st]).advance x.c (1 + a.lits.length))

/-! ### The bitmap intersect unit (R206) -/

/-- A destination of four registers from a multiple of four (R206, R241, R252). -/
def quadReg? (d : UOp) : Option Nat :=
  match d with
  | .s r => if r.val % 4 = 0 then some r.val else none
  | _ => none

/-- BISX (R206). -/
def execBisx (d a b : UOp) (s : State) : Host.Outcome State Fault Refusal :=
  withRun s (fun x s =>
    match quadReg? d, a.pair?, b.pair? with
    | some rd, some ra, some rb =>
      electGate true [] d [] x s (fun s =>
        let regs := [rd, rd + 1, rd + 2, rd + 3, ra + 1, rb + 1]
        let kind := OpKind.bisx ra rb (x.cr.s.get ra) (x.cr.s.get rb) (x.cr.s.get (ra + 1)) (x.cr.s.get (rb + 1))
        ((s.supersede x.c regs).startOp (x.newOp s kind x.lanes x.seta (.uni regs) 0 4 0 [])).advance x.c 1)
    | _, _, _ => s.raise x .illegalOperand 0#64)

/-- The six words that an intersection writes, in order (R206). -/
def bisxWords (x y oa ob : Word) : List Word :=
  [x &&& y, popcW x ||| (popcW y <<< 8) ||| (popcW (x &&& y) <<< 16), oa, ob, oa + popcW x, ob + popcW y]

/-- BISX_COMPLETE (R206). -/
def execBisxComplete (id : Nat) (s : State) : Host.Outcome State Fault Refusal :=
  .next (match s.opAt id with
    | none => s
    | some op => match op.kind with
      | .bisx _ _ x y oa ob => (s.land op (bisxWords x y oa ob)).endOp op
      | _ => s)

end Sys2Proof.Machine
end

