-- ==== Sys2Proof/Machine/Matrix.lean ====
section
/-! DEFINITION. The matrix engine: the baton words (R190), the issue of matrix jobs (R185-R200), and what a job does when it runs (R186-R202). -/

namespace Sys2Proof.Machine

/-! ### The engine and the baton -/

/-- The engine of the core of a squad. -/
def State.engineOf (s : State) (q : Nat) : Engine := (s.core (s.squad q).core).engine

/-- Changes a core's engine. -/
def State.modEngine (s : State) (core : Nat) (f : Engine → Engine) : State :=
  s.modCore core (fun k => { k with engine := f k.engine })

/-- The run's squad holds the engine. -/
def State.holdsEngine (s : State) (x : Issuer) : Bool := (s.engineOf x.cr.squad).holder == some x.cr.squad

/-- The run's crew holds the baton (R185). -/
def State.holdsBaton (s : State) (x : Issuer) : Bool := s.holdsEngine x && (s.engineOf x.cr.squad).baton == x.cr.index

/-- The engine as a new holder finds it: every tile +0, every predicate all ones, the latch empty (R184). -/
def Engine.grantTo (q crewIndex : Nat) : Engine := { holder := some q, baton := crewIndex }

/-- A free engine goes to the squad of the earliest-issued waiting `btn.take`, and that crew receives the baton (R190). -/
def State.handEngine (s : State) (core : Nat) : State :=
  let k := s.core core
  if k.engine.holder.isSome then s
  else
    match k.takes.foldl (fun (b : Option BatonWait) w =>
        match b with
        | none => some w
        | some y => if w.order < y.order then some w else some y) none with
    | none => s
    | some w => (s.modEngine core (fun _ => Engine.grantTo w.squad (s.crew w.crew).index)).grantBaton core

/-- Writes a status at once, as the latest write to its register. -/
def State.statusNow (s : State) (x : Issuer) (d : UOp) (w : Word) : State :=
  (s.supersede x.c d.reg?.toList).writeStatus x.c d.reg? w

/-- A wait of a run for the baton or for a release. -/
def Issuer.batonWait (x : Issuer) (s : State) (d : UOp) : BatonWait :=
  { squad := x.cr.squad, crew := x.c, lanes := x.lanes, sd := d.reg?, flag := x.electFlag d, order := s.nextId }

/-- BTN_TAKE (R190). -/
def execBtnTake (d : UOp) (s : State) : Host.Outcome State Fault Refusal :=
  withRun s (fun x s =>
    electGate (electDstOk d) [] d [] x s (fun s =>
      let q := x.cr.squad
      let core := (s.squad q).core
      let s := if (s.engineOf q).holder.isNone then s.modEngine core (fun _ => Engine.grantTo q x.cr.index) else s
      if s.holdsBaton x then (s.statusNow x d (s.batonWord q x.cr.index)).advance x.c 1
      else
        let w := x.batonWait s d
        let s := (s.supersede x.c d.reg?.toList).flagAdd x.c x.lanes w.flag
        let s := { s with nextId := s.nextId + 1 }
        let s := (s.modCore core (fun k => { k with takes := k.takes ++ [w] })).advance x.c 1
        (s.modCrew x.c (fun cr => cr.leaveRun x.lanes)).modThreads x.c x.lanes (fun _ t => { t with st := .batonWait })))

/-- BTN_PASS (R190). -/
def execBtnPass (d : UOp) (s : State) : Host.Outcome State Fault Refusal :=
  withRun s (fun x s =>
    electGate (electDstOk d) [(s.holdsBaton x, .baton)] d [] x s (fun s =>
      let s := s.passBaton x.cr.squad
      (s.statusNow x d (s.batonWord x.cr.squad x.cr.index)).advance x.c 1))

/-- BTN_PASS_RELEASE (R190): the engine becomes free once the squad's jobs have completed. -/
def execBtnPassRelease (d : UOp) (s : State) : Host.Outcome State Fault Refusal :=
  withRun s (fun x s =>
    electGate (electDstOk d) [(s.holdsBaton x, .baton)] d [] x s (fun s =>
      let w := x.batonWait s d
      let s := (s.supersede x.c d.reg?.toList).flagAdd x.c x.lanes w.flag
      let s := { s with nextId := s.nextId + 1 }
      (s.modEngine (s.coreOf x.c) (fun e => { e with release := e.release ++ [w] })).advance x.c 1))

/-- BTN_QUERY (R190). -/
def execBtnQuery (d : UOp) (s : State) : Host.Outcome State Fault Refusal :=
  withRun s (fun x s =>
    electGate (electDstOk d) [] d [] x s (fun s =>
      (s.statusNow x d (s.batonWord x.cr.squad x.cr.index)).advance x.c 1))

/-- ENGINE_RELEASE (R190). -/
def execEngineRelease (core : Nat) (s : State) : Host.Outcome State Fault Refusal :=
  let e := (s.core core).engine
  .next (match e.release, e.holder with
    | [], _ => s
    | _, none => s
    | ws, some q =>
      if s.matrixJobsOf q ≠ 0 then s
      else
        let s := s.modEngine core (fun _ => {})
        let s := ws.foldl (fun s w => (s.writeStatus w.crew w.sd 0#32).flagSub w.crew w.lanes w.flag) s
        s.handEngine core)

/-! ### Classes of formats (R192) -/

/-- How a pair of formats multiplies: terms of a chunk, binary point, integer or fused. -/
structure MmaClass where
  n : Nat
  point : Nat
  int : Bool
  fused : Bool
deriving DecidableEq, Repr

/-- The class of a pair of formats. -/
def mmaClass (a b : Nat) : Option MmaClass :=
  let both (l : List Nat) : Bool := l.contains a && l.contains b
  if both [3, 4, 8] then some ⟨16, 18, false, false⟩
  else if both [5, 6, 7] then some ⟨32, 17, false, false⟩
  else if both [1] || both [2] then some ⟨8, 30, false, false⟩
  else if both [0] then some ⟨1, 0, false, true⟩
  else if both [10, 11] then some ⟨16, 0, true, false⟩
  else if both [12, 13] then some ⟨32, 0, true, false⟩
  else none

/-- The integer of a code of an integer format. -/
def intOf (fmt code : Nat) : Int :=
  match decodeFmt fmt code with
  | .fin neg m _ => signedInt neg m
  | _ => 0

/-- The sum of two scale exponents; `none` where one is the NaN scale. -/
def addScale (a b : Option Int) : Option Int :=
  match a, b with
  | some x, some y => some (x + y)
  | _, _ => none

/-- One fused FP32 step (R98). -/
def fusedStep (c : Word) (a b : Read) : Word :=
  match addScale a.scale b.scale with
  | none => 0x7FC00000#32
  | some k => (word32 (fp32.addV .rne (((decodeFmt 0 a.code).mul (decodeFmt 0 b.code)).scale k) (fval c))).1

/-- One chunk applied to one element of a tile (R98, R194). -/
def MmaClass.step (k : MmaClass) (fa fb : Nat) (c : Word) (a b : List Read) : Word :=
  if k.int then c + BitVec.ofInt 32 (((a.zip b).map (fun p => intOf fa p.1.code * intOf fb p.2.code)).sum)
  else if k.fused then (a.zip b).foldl (fun c p => fusedStep c p.1 p.2) c
  else
    (chunkSum k.point c ((a.zip b).map (fun p =>
      { a := elemOf fa p.1.code, b := elemOf fb p.2.code, scale := addScale p.1.scale p.2.scale }))).1

/-! ### The block of mma and mmsp (R191, R193) -/

/-- AFMT. -/
def bAfmt (b : List Word) : Nat := blk b 0 24 4
/-- BFMT. -/
def bBfmt (b : List Word) : Nat := blk b 0 20 4
/-- ACC. -/
def bAcc (b : List Word) : Nat := blk b 0 16 4
/-- ASRC: A from lane registers. -/
def bAsrc (b : List Word) : Bool := blk b 0 11 1 = 1
/-- REUSE. -/
def bReuse (b : List Word) : Bool := blk b 0 10 1 = 1
/-- CLR. -/
def bClr (b : List Word) : Bool := blk b 0 9 1 = 1
/-- KC. -/
def bKc (b : List Word) : Nat := blk b 3 0 32

/-- The limits of R191. DESIGN CHOICE (log 69): the bits of META above the identifier are 0. -/
def mmaBlockOk (b : List Word) (sparse : Bool) : Bool :=
  blkZero b 0 28 4 && blkZero b 0 0 9 && (!bReuse b || bAsrc b)
    && (if bAsrc b then decide (blk b 1 0 32 ≤ 103) else decide (blk b 1 0 32 < 64))
    && decide (blk b 2 0 32 < 64) && decide (1 ≤ bKc b ∧ bKc b ≤ 4096)
    && (if sparse then decide (blk b 7 0 32 < 64) && blk b 5 0 5 == 0 else blk b 7 0 32 == 0)

/-- Words of a row and chunk of A (R193). -/
def rowWords (k : MmaClass) (fa : Nat) : Nat := k.n * fmtBits fa / 32

/-- A read from registers lies within its limits (R193). -/
def latchOk (k : MmaClass) (b : List Word) (regs : Nat) : Bool :=
  let r := 2 * rowWords k (bAfmt b)
  decide (bKc b * r ≤ 96 ∧ blk b 1 0 32 + bKc b * r ≤ regs)

/-- What `mma` captures from the registers of all 32 lanes (R193): for each chunk, the words of rows 0 to 63. -/
def Crew.captureA (cr : Crew) (k : MmaClass) (b : List Word) : List (List Word) :=
  let w := rowWords k (bAfmt b)
  (List.range (bKc b)).map (fun c =>
    (List.range 64).flatMap (fun m =>
      (List.range w).map (fun j => (cr.thread (m % 32)).v.get (blk b 1 0 32 + c * (2 * w) + m / 32 * w + j))))

/-- The checks of R191-R193 after the block's own limits, in order. -/
def mmaChecks (s : State) (x : Issuer) (b : List Word) (sparse : Bool) : List (Bool × Cause) :=
  let tx (n : Nat) : Option Tensor := s.tensor x.cr.squad n
  let is (n fmt : Nat) : Bool := ((tx n).map (fun t => t.fmt == fmt)).getD false
  let k := (mmaClass (bAfmt b) (bBfmt b)).getD ⟨1, 0, false, false⟩
  let latch := (s.engineOf x.cr.squad).latch
  [ (s.holdsBaton x, .baton), (mmaBlockOk b sparse, .illegalOperand),
    ((mmaClass (bAfmt b) (bBfmt b)).isSome, .illegalOperand),
    (bAsrc b || is (blk b 1 0 6) (bAfmt b), .tensorId),
    (is (blk b 2 0 6) (bBfmt b), .tensorId),
    (!sparse || (is (blk b 7 0 6) 14 && !((tx (blk b 2 0 6)).map Tensor.scaled).getD false), .tensorId),
    (!bAsrc b || bReuse b || latchOk k b (s.regsOf x.c), .illegalOperand),
    (!bReuse b || (latch.map (fun l => l.fmt == bAfmt b && decide (bKc b ≤ l.chunks.length))).getD false, .illegalOperand),
    capCheck s x ]

/-- The stall of a full matrix queue (R186). -/
def matrixStall (s : State) (x : Issuer) : Bool × Stall :=
  (decide (8 ≤ (s.jobs.filter (fun j => j.matrix && j.core == s.coreOf x.c)).length), .queueFull .matrix)

/-- The stalls of a matrix word: the queue, then the count table. -/
def matrixStalls (s : State) (x : Issuer) : List (Bool × Stall) :=
  let g := s.runTime x
  [matrixStall s x, capStall s x g.1 g.2]

/-- Queues a matrix job with its capability. -/
def State.queueMatrix (s : State) (x : Issuer) (d : UOp) (kind : JobKind) (n : Nat) : State :=
  s.withCap x (fun cap s => (s.queueJob x d kind true cap).advance x.c n)

/-- One issue of `mma` or `mmsp` (R194, R195). -/
def mmaIssue (sparse : Bool) (d a : UOp) (x : Issuer) (s : State) : State :=
  match x.cr.block a 8 152 with
  | none => s.raise x .illegalOperand 0#64
  | some b =>
    let k := (mmaClass (bAfmt b) (bBfmt b)).getD ⟨1, 0, false, false⟩
    let fromRegs := bAsrc b && !bReuse b
    let lines := if fromRegs then
        (List.range (bKc b * (2 * rowWords k (bAfmt b)))).map (blk b 1 0 32 + ·)
      else []
    electGate (electDstOk d) (mmaChecks s x b sparse) d
      ((lines.any (fun n => x.cr.absent.contains n), .regMiss lines) :: matrixStalls s x) x s (fun s =>
      let q := x.cr.squad
      let latch : Option Latch :=
        if fromRegs then some { fmt := bAfmt b, chunks := x.cr.captureA k b }
        else if bReuse b then (s.engineOf q).latch
        else none
      let s := s.modEngine (s.coreOf x.c) (fun e => { e with latch := latch })
      let ta := if bAsrc b then none else s.tensor q (blk b 1 0 6)
      let tm := if sparse then s.tensor q (blk b 7 0 6) else none
      s.queueMatrix x d (.mma b ta (s.tensor q (blk b 2 0 6)) tm ((latch.map Latch.chunks).getD [])) 1)

/-- MMA (R194). -/
def execMma (d a : UOp) (s : State) : Host.Outcome State Fault Refusal := withRun s (mmaIssue false d a)

/-- MMSP (R195). -/
def execMmsp (d a : UOp) (s : State) : Host.Outcome State Fault Refusal := withRun s (mmaIssue true d a)

/-- MZERO (R197). -/
def execMzero (d b : UOp) (s : State) : Host.Outcome State Fault Refusal :=
  withRun s (fun x s =>
    let tile := (x.cr.readU b).toNat
    electGate (electDstOk d && uSrcOk 1 b) [(s.holdsBaton x, .baton), (decide (tile < 16), .illegalOperand), capCheck s x] d
      (matrixStalls s x) x s (fun s => s.queueMatrix x d (.mzero tile) (1 + b.lits.length)))

/-- The formats that `mld` takes (R197). -/
def mldFmt (itile : Bool) (fmt : Nat) : Bool := if itile then [14, 10, 11].contains fmt else [0, 1, 2].contains fmt

/-- The formats that `mst` takes (R197). -/
def mstFmt (itile : Bool) (fmt : Nat) : Bool := if itile then [14, 10, 11].contains fmt else decide (fmt ≤ 8)

/-- One issue of `mld` or `mst` (R197). -/
def tileIssue (store : Bool) (d a : UOp) (x : Issuer) (s : State) : State :=
  match x.cr.block a 4 156 with
  | none => s.raise x .illegalOperand 0#64
  | some b =>
    let t := s.tensor x.cr.squad (blk b 0 4 6)
    let itile := blk b 0 15 1 = 1
    let fmtOk := (t.map (fun t => (if store then mstFmt else mldFmt) itile t.fmt)).getD false
    electGate (electDstOk d)
      [(s.holdsBaton x, .baton), (blkZero b 0 16 16 && blkZero b 3 0 32, .illegalOperand), (fmtOk, .tensorId),
        capCheck s x] d
      (matrixStalls s x) x s (fun s =>
      match t with
      | none => s
      | some t => s.queueMatrix x d (if store then .mst b t else .mld b t) 1)

/-- MLD (R197). -/
def execMld (d a : UOp) (s : State) : Host.Outcome State Fault Refusal := withRun s (tileIssue false d a)

/-- MST (R198). -/
def execMst (d a : UOp) (s : State) : Host.Outcome State Fault Refusal := withRun s (tileIssue true d a)

/-- The register of a lane code that `madd` takes: `v0`-`v(n-1)` or `o0`-`o7` (R199). -/
def maddReg (regs code : Nat) : Option LOp :=
  if h : code < 104 then (if code < regs then some (.v ⟨code, h⟩) else none)
  else if h : code - 104 < 8 then some (.o ⟨code - 104, h⟩)
  else none

/-- MADD (R199). -/
def execMadd (d a : UOp) (s : State) : Host.Outcome State Fault Refusal :=
  withRun s (fun x s =>
    let w := (x.cr.readU a).toNat
    let regs := s.regsOf x.c
    let vi := maddReg regs (bitsOf w 4 7)
    let vv := maddReg regs (bitsOf w 11 7)
    let ix := vi.getD .zero
    let vx := vv.getD .zero
    let lines := linesOf 1 ix ++ linesOf 1 vx
    electGate (electDstOk d && uSrcOk 1 a)
      [(s.holdsEngine x, .baton), (decide (w < 2 ^ 19) && vi.isSome && vv.isSome, .illegalOperand), capCheck s x] d
      ((lines.any (fun n => x.cr.absent.contains n), .regMiss lines) :: matrixStalls s x) x s (fun s =>
      let terms := x.lanes.map (fun l => ((x.cr.thread l).readW l ix, (x.cr.thread l).readW l vx))
      s.queueMatrix x d (.madd (bitsOf w 0 4) (bitsOf w 18 1 = 1) terms) (1 + a.lits.length)))

/-- The predicate that b of `mpred` selects. -/
def predSel (b : UOp) : Option Nat :=
  match b with
  | .const c => if c.val < 8 then some c.val else none
  | _ => none

/-- MPRED (R200). -/
def execMpred (d a b : UOp) (s : State) : Host.Outcome State Fault Refusal :=
  withRun s (fun x s =>
    match a.pair?, predSel b with
    | some r, some k =>
      electGate (electDstOk d) [(s.holdsBaton x, .baton), capCheck s x] d (matrixStalls s x) x s (fun s =>
        s.queueMatrix x d (.mpred k (Word.pair (x.cr.s.get r) (x.cr.s.get (r + 1)))) 1)
    | _, _ => s.raise x .illegalOperand 0#64)

/-! ### A job that runs -/

/-- The place of an element in the accumulator store. -/
def accIdx (tile m n : Nat) : Nat := tile * 4096 + m * 64 + n

/-- The predicate mask of a row selection (R184). -/
def Engine.rows (e : Engine) (sel : Nat) : List Nat := bitsBelow 64 (e.preds.getD sel 0#64).toNat

/-- The predicate mask of a column selection. -/
def Engine.cols (e : Engine) (sel : Nat) : List Nat := bitsBelow 64 (e.preds.getD (4 + sel) 0#64).toNat

/-- One element of A from the latch (R193). -/
def latchRead (k : MmaClass) (fa : Nat) (latch : List (List Word)) (c m i : Nat) : Read :=
  let w := rowWords k fa
  let row := ((latch.getD c []).drop (m * w)).take w
  ⟨natOfBytes (bytesOfWords row) / 2 ^ (i * fmtBits fa) % 2 ^ fmtBits fa, some 0, false⟩

/-- The metadata elements of a K index in a row: the bitmap and the offset (R195). -/
def metaIdx (k n : Nat) : List (List Nat) := [[2 * (k / 32), n], [2 * (k / 32) + 1, n]]

/-- The index of the stored value that an expanded element comes from; none for +0. -/
def expandIdx (m : JobMem) (t : Tensor) (k n : Nat) : Option (List Nat) × Bool :=
  let map_ := m.elem t [2 * (k / 32), n]
  let off := m.elem t [2 * (k / 32) + 1, n]
  let j := k % 32
  (if map_.code.testBit j then
      some [off.code + (popcW (BitVec.ofNat 32 (map_.code % 2 ^ j))).toNat, n]
    else none, map_.bad || off.bad)

/-- One element of B, dense or expanded (R194, R195). -/
def readB (m : JobMem) (b : Tensor) (mt : Option Tensor) (k n : Nat) : Read :=
  match mt with
  | none => m.elem b [k, n]
  | some t =>
    match expandIdx m t k n with
    | (some idx, bad) =>
      let r := m.elem b idx
      { r with bad := r.bad || bad }
    | (none, bad) => ⟨0, some 0, bad⟩

/-- An `mma` job with its parts. Without a row or without a column no element takes part, so none is read (R194). -/
structure Mma where
  b : List Word
  ta : Option Tensor
  tb : Tensor
  tm : Option Tensor
  latch : List (List Word)
  k : MmaClass
  rows : List Nat
  cols : List Nat

/-- The K index of term i of chunk c. -/
def Mma.kIdx (z : Mma) (c i : Nat) : Nat := blk z.b 5 0 32 + c * z.k.n + i

/-- One element of A. -/
def Mma.readA (z : Mma) (m : JobMem) (c row i : Nat) : Read :=
  match z.ta with
  | some t => m.elem t [z.kIdx c i, blk z.b 4 0 32 + row]
  | none => latchRead z.k (bAfmt z.b) z.latch c row i

/-- The row of B that feeds an output column. -/
def Mma.bRow (z : Mma) (col : Nat) : Nat := blk z.b 6 0 32 + col

/-- What a chunk touches that no other read decides: A, and B or its metadata. -/
def Mma.firstRanges (z : Mma) (c : Nat) : List Range :=
  let is := List.range z.k.n
  let a := match z.ta with
    | some t => z.rows.flatMap (fun row => is.flatMap (fun i => t.ranges false [z.kIdx c i, blk z.b 4 0 32 + row]))
    | none => []
  let b := match z.tm with
    | none => z.cols.flatMap (fun col => is.flatMap (fun i => z.tb.ranges false [z.kIdx c i, z.bRow col]))
    | some t => z.cols.flatMap (fun col => is.flatMap (fun i =>
        (metaIdx (z.kIdx c i) (z.bRow col)).flatMap (t.ranges false)))
  a ++ b

/-- The stored values of B that the metadata of a chunk name. -/
def Mma.valueRanges (z : Mma) (m : JobMem) (c : Nat) : List Range :=
  match z.tm with
  | none => []
  | some t => z.cols.flatMap (fun col => (List.range z.k.n).flatMap (fun i =>
      ((expandIdx m t (z.kIdx c i) (z.bRow col)).1.map (z.tb.ranges false)).getD []))

/-- Every range of a chunk, as far as it can be known before its metadata is mapped. -/
def State.mmaRanges (s : State) (j : Job) (z : Mma) (c : Nat) : List Range :=
  let r := z.firstRanges c
  match (s.openPages j.core (s.launch (s.squad j.squad).launch).pkt.space (pagesOf r)).1 with
  | .ok m => r ++ z.valueRanges (s.jobMem j.core j.squad m) c
  | .error _ => r

/-- Applies one chunk to every element whose predicate bits are set. -/
def Mma.apply (z : Mma) (m : JobMem) (c : Nat) (e : Engine) : Engine :=
  let is := List.range z.k.n
  let tile := bAcc z.b
  let as := z.rows.map (fun row => (row, is.map (z.readA m c row)))
  let bs := z.cols.map (fun col => (col, is.map (fun i => readB m z.tb z.tm (z.kIdx c i) (z.bRow col))))
  let old (row col : Nat) : Word := e.acc.get (accIdx tile row col)
  let acc := as.foldl (fun acc a => bs.foldl (fun acc b =>
    Store.put acc (accIdx tile a.1 b.1) (z.k.step (bAfmt z.b) (bBfmt z.b) (old a.1 b.1) a.2 b.2)) acc) e.acc
  let bad := as.any (fun a => a.2.any Read.bad) || bs.any (fun b => b.2.any Read.bad)
  { e with acc := acc, accPoison := if bad then insertSorted tile e.accPoison else e.accPoison }

/-- CLR: the elements that take part are +0 before the first chunk (R194). -/
def Mma.clear (z : Mma) (e : Engine) : Engine :=
  if bClr z.b then
    { e with acc := z.rows.foldl (fun acc row => z.cols.foldl (fun acc col => Store.put acc (accIdx (bAcc z.b) row col) 0#32) acc) e.acc }
  else e

/-- A chunk reads poison. -/
def Mma.poisoned (z : Mma) (m : JobMem) (c : Nat) : Bool :=
  let is := List.range z.k.n
  z.rows.any (fun row => is.any (fun i => (z.readA m c row i).bad))
    || z.cols.any (fun col => is.any (fun i => (readB m z.tb z.tm (z.kIdx c i) (z.bRow col)).bad))

/-- The next chunk of a job, or its hold on a fault, or its end for want of permission (R188). -/
def State.mmaChunk (s : State) (j : Job) (z : Mma) : State :=
  let c := j.done
  s.withPages j (s.mmaRanges j z c) (fun s => s.modJob j.id (fun k => { k with errs := k.errs ++ [3] }))
    (fun m _ s =>
      let s := s.modEngine j.core (z.apply m c)
      s.modJob j.id (fun k => { k with done := c + 1, errs := if z.poisoned m c then k.errs ++ [2] else k.errs }))

/-- Chunks in ascending K until the last, a hold or an end. -/
def State.mmaChunks (s : State) (id : Nat) (z : Mma) : Nat → State
  | 0 => s
  | n + 1 =>
    match s.job id with
    | none => s
    | some j => if j.fault.isSome || j.errs.contains 3 then s else State.mmaChunks (s.mmaChunk j z) id z n

/-- An `mma` job at its start or resumption: a page of any chunk that may not be read ends it before its first write (R188); else the
elements are cleared, and the chunks follow. -/
def State.runMma (s : State) (j : Job) (z : Mma) : State :=
  let kc := bKc z.b
  let space := (s.launch (s.squad j.squad).launch).pkt.space
  if j.done = 0 ∧ (List.range kc).any (fun c => s.pagesDenied j.core space (pagesOf (s.mmaRanges j z c))) then
    s.modJob j.id (fun k => { k with errs := k.errs ++ [3] })
  else (if j.done = 0 then s.modEngine j.core z.clear else s).mmaChunks j.id z (kc - j.done)

/-- The elements of a tile that take part in `mld` or `mst` (R197). -/
def tilePart (e : Engine) (b : List Word) : List (Nat × Nat) :=
  let all := List.range 64
  let pred := blk b 0 14 1 = 1
  let rows := if pred then e.rows (blk b 0 10 2) else all
  let cols := if pred then e.cols (blk b 0 12 2) else all
  rows.flatMap (fun m => cols.map (fun n => (m, n)))

/-- The identifier's index of a tile element (R197). -/
def tileIdx (b : List Word) (p : Nat × Nat) : List Nat := [blk b 2 0 32 + p.2, blk b 1 0 32 + p.1]

/-- The accumulator word of an element that `mld` reads (R197). -/
def mldWord (t : Tensor) (itile : Bool) (r : Read) : Word :=
  if itile then BitVec.ofInt 32 (intOf t.fmt r.code)
  else
    match r.scale with
    | none => 0x7FC00000#32
    | some k => (word32 (fp32.roundV .rne ((decodeFmt t.fmt r.code).scale k))).1

/-- The code that `mst` writes for an accumulator word (R198). -/
def mstCode (t : Tensor) (itile : Bool) (w : Word) : Nat :=
  if itile then
    (if t.fmt = 14 then w.toNat
      else if t.fmt = 10 then (BitVec.ofInt 8 (max (-128) (min 127 w.toInt))).toNat
      else (max 0 (min 255 w.toInt)).toNat)
  else if t.fmt = 0 then w.toNat
  else if t.fmt ≤ 2 then (convert t.fmt .rne false (fval w)).1
  else (convert t.fmt .rne false ((fval w).scale t.sexp)).1

/-- The bytes of elements, and of the scales of the blocks that they touch, in virtual or squad addresses (R183, R198). -/
def tensorCells (t : Tensor) (scales : Bool) (es : List (List Nat × Nat)) : List MCell :=
  es.flatMap (fun e => elemCells t e.1 e.2) ++
    (if t.scaled && scales then
      (es.filter (fun e => t.inRange e.1)).map (fun e =>
        { addr := t.scaleAddr e.1, mask := 0xFF#8, val := BitVec.ofInt 8 (127 - t.sexp) })
    else [])

/-- The identifier of an `mld` or `mst` as the job touches it: the scales only where they apply (R197, R198). -/
def tileTensor (store : Bool) (b : List Word) (t : Tensor) : Tensor :=
  if (if store then narrowFmt t.fmt else blk b 0 15 1 == 0) then t else t.unscaled

/-- `mld` when it runs: its tile's poison mark is cleared before it reads (R197, R201). -/
def State.runMld (s : State) (j : Job) (b : List Word) (t : Tensor) : State :=
  let part := tilePart (s.core j.core).engine b
  let itile := blk b 0 15 1 = 1
  let tile := blk b 0 0 4
  let s := s.modEngine j.core (fun e => { e with accPoison := e.accPoison.filter (· != tile) })
  s.withPages j (part.flatMap (fun p => t.ranges false (tileIdx b p))) (fun s => s.modJob j.id (fun k => { k with errs := k.errs ++ [3] }))
    (fun m _ s =>
      let rs := part.map (fun p => (p, m.elem t (tileIdx b p)))
      let bad := rs.any (fun r => r.2.bad)
      let s := s.modEngine j.core (fun e =>
        { e with acc := rs.foldl (fun a r => Store.put a (accIdx tile r.1.1 r.1.2) (mldWord t itile r.2)) e.acc
                 accPoison := if bad then insertSorted tile e.accPoison else e.accPoison })
      if bad then s.modJob j.id (fun k => { k with errs := k.errs ++ [2] }) else s)

/-- `mst` when it runs (R198, R201, R202). -/
def State.runMst (s : State) (j : Job) (b : List Word) (t : Tensor) : State :=
  let e := (s.core j.core).engine
  let part := tilePart e b
  let itile := blk b 0 15 1 = 1
  let tile := blk b 0 0 4
  let marked := e.accPoison.contains tile
  let word (p : Nat × Nat) : Word := e.acc.get (accIdx tile p.1 p.2)
  s.withPages j (part.flatMap (fun p => t.ranges true (tileIdx b p))) (fun s => s.modJob j.id (fun k => { k with errs := k.errs ++ [3] }))
    (fun m ps s =>
      let cells := tensorCells t (narrowFmt t.fmt) (part.map (fun p => (tileIdx b p, mstCode t itile (word p))))
      let s := s.writeOut j t.glob ps (resolveCells (m.byte t.glob) cells) (if marked then cells.map MCell.addr else [])
      let s := if narrowFmt t.fmt then s.recordAmax j.squad t (maxMag (part.map word)) else s
      if marked then s.modJob j.id (fun k => { k with errs := k.errs ++ [2] }) else s)

/-- `madd` when it runs: ascending lane order (R199). -/
def maddApply (tile : Nat) (int : Bool) (terms : List (Word × Word)) (e : Engine) : Engine :=
  { e with acc := terms.foldl (fun a p =>
      let i := accIdx tile (bitsOf p.1.toNat 6 6) (bitsOf p.1.toNat 0 6)
      Store.put a i (if int then a.get i + p.2 else f32AddQuiet (a.get i) p.2)) e.acc }

/-- A started matrix job runs, as far as it gets (R186-R202). -/
def State.runMatrix (s : State) (j : Job) : State :=
  match j.kind with
  | .mma b ta tb tm latch =>
    match tb, mmaClass (bAfmt b) (bBfmt b) with
    | some tb, some k =>
      let e := (s.core j.core).engine
      let rows := e.rows (blk b 0 14 2)
      let cols := e.cols (blk b 0 12 2)
      s.runMma j { b := b, ta := ta, tb := tb, tm := tm, latch := latch, k := k, rows := if cols.isEmpty then [] else rows
                   cols := if rows.isEmpty then [] else cols }
    | _, _ => s
  | .mzero tile =>
    s.modEngine j.core (fun e =>
      { e with acc := e.acc.filter (fun p => p.1 / 4096 != tile), accPoison := e.accPoison.filter (· != tile) })
  | .mld b t => s.runMld j b (tileTensor false b t)
  | .mst b t => s.runMst j b (tileTensor true b t)
  | .madd tile int terms => s.modEngine j.core (maddApply tile int terms)
  | .mpred which mask => s.modEngine j.core (fun e => { e with preds := e.preds.set which mask })
  | _ => s

/-- Every index of a tensor, dimension 0 fastest. -/
def indices : List Nat → List (List Nat)
  | [] => [[]]
  | n :: ns => (indices ns).flatMap (fun is => (List.range n).map (fun i => i :: is))

/-- The indices of a tensor's index space. -/
def Tensor.indices (t : Tensor) : List (List Nat) := Machine.indices ((List.range 9).map t.size)

/-- The source index of a destination index (R219). -/
def cpytFrom (off0 off1 : Nat) (idx : List Nat) : List Nat :=
  (idx.getD 0 0 + off0) :: (idx.getD 1 0 + off1) :: idx.drop 2

/-- The footprint of a job (R140, R186, R196): of `cpyt`, what it reads of its source and what it writes (R219). -/
def Job.regions (space : Nat) (j : Job) : List Region :=
  let opt (t : Option Tensor) : List Region := (t.map (·.regions space j.squad false)).getD []
  let flat (g : Bool) (a n : Nat) (w : Bool) : Region := ⟨g, if g then space else j.squad, a, n, w⟩
  match j.kind with
  | .mma _ a b m _ => opt a ++ opt b ++ opt m
  | .mld b t => (tileTensor false b t).regions space j.squad false
  | .mst b t => (tileTensor true b t).regions space j.squad true
  | .cpy ssp dsp src dst n => [flat ssp src n false, flat dsp dst n true]
  | .cpyt st dt off0 off1 _ =>
    let dt' := if narrowFmt dt.fmt then dt else dt.unscaled
    dt.indices.flatMap (fun i =>
      (st.ranges false (cpytFrom off0 off1 i) ++ dt'.ranges true i).map (fun r => r.region space j.squad))
  | .cpym ssp src _ n _ _ _ _ => [flat ssp src n false]
  | .cins _ p o c _ _ _ => p.regions space j.squad false ++ o.regions space j.squad true ++ c.regions space j.squad true
  | _ => []

/-- The space that a copy of its own squad writes (true global). -/
def Job.destination (j : Job) : Option Bool :=
  match j.kind with
  | .cpy _ dsp _ _ _ => some dsp
  | .cpyt _ dt _ _ _ => some dt.glob
  | _ => none

/-- What is left of a footprint for later jobs to wait for: of a copy that has read its source, the bytes that it has not written yet (R140,
R213). -/
def Job.leftRegions (space : Nat) (j : Job) : List Region :=
  match j.readDone, j.destination with
  | true, some g => j.cells.map (fun c => ⟨g, if g then space else j.squad, c.addr, 1, true⟩)
  | done, _ => (j.regions space).filter (fun r => r.w || !done)

/-- The address space of a squad. -/
def State.spaceOfSquad (s : State) (q : Nat) : Nat := (s.launch (s.squad q).launch).pkt.space

/-- The footprint of a pair launch: its records, lists and the sweep's tensors read, its accumulators written (R268). -/
def PairLaunch.regions (space : Nat) (p : PairLaunch) (sweep : List Region) : List Region :=
  (if blk p.block 0 3 1 = 1 then [p.p, p.q, p.exl, p.exo] else [p.p, p.q]).flatMap (fun t => t.regions space p.squad false) ++
    [p.accp, p.accq].flatMap (fun t => t.regions space p.squad true) ++ sweep

/-- The order and catch-all tensors of the sweep that a pair launch names (R245). -/
def State.sweepRegions (s : State) (p : PairLaunch) : List Region :=
  let space := s.spaceOfSquad p.squad
  let t := (s.cluster (clusterOfCore p.core)).tables.getD p.table {}
  (t.sweeps.zipIdx.filter (fun w => w.1.st != .free && w.1.time == Word.pair (p.block.getD 6 0#32) (p.block.getD 7 0#32))).flatMap
    (fun w =>
      let n := ((t.entries.filter (fun e => e.sweep == w.2)).map Cell.count).sum
      [⟨true, space, w.1.obase.toNat, 4 * n, false⟩, ⟨true, space, w.1.cbase.toNat, 4 * w.1.ccount, false⟩])

/-- An engine job or a pair launch that issued on the core, numbered below `id`, has not finished what overlaps a footprint (R140, R196,
R268). -/
def State.blockedAt (s : State) (core id : Nat) (rs : List Region) : Bool :=
  s.jobs.any (fun e => (e.home == core || e.core == core) && decide (e.id < id) && clashes (e.leftRegions (s.spaceOfSquad e.squad)) rs)
  || s.pairLaunches.any (fun (p : Nat × PairLaunch) => p.2.core == core && decide (p.1 < id)
    && clashes (p.2.regions (s.spaceOfSquad p.2.squad) (s.sweepRegions p.2)) rs)

/-- An earlier job of the core whose footprint overlaps a job's has not finished (R140). -/
def State.jobBlocked (s : State) (j : Job) : Bool :=
  let rs := j.regions (s.spaceOfSquad j.squad)
  s.blockedAt j.core j.id rs || (j.home != j.core && s.blockedAt j.home j.id rs)

/-- The oldest matrix job of a core. -/
def State.matrixHead (s : State) (core : Nat) : Option Job := s.jobs.find? (fun j => j.matrix && j.core == core)

/-- MATRIX_JOB_START (R186): the oldest job of the core, for the squad that holds the engine. -/
def execMatrixJobStart (core : Nat) (s : State) : Host.Outcome State Fault Refusal :=
  .next (match s.matrixHead core with
    | none => s
    | some j =>
      if !j.started && (s.core core).engine.holder == some j.squad && s.issuerDone j && !s.jobBlocked j then
        (s.modJob j.id (fun k => { k with started := true })).jobEvent j 0 j.opcode
      else s)

/-- MATRIX_JOB_COMPLETE (R187, R188): the executing job runs to its end, or to a hold. A job ended by the fault service ends with the
chunks that it has applied. -/
def execMatrixJobComplete (core : Nat) (s : State) : Host.Outcome State Fault Refusal :=
  .next (match s.matrixHead core with
    | none => s
    | some j =>
      if !j.running then s
      else if j.ended then s.finishJob { j with errs := j.errs ++ [1] } (min j.done 0xFFFF)
      else
        let s := s.runMatrix j
        match s.job j.id with
        | none => s
        | some j => if j.fault.isSome then s else s.finishJob j (min j.done 0xFFFF))

end Sys2Proof.Machine
end

