-- ==== Sys2Proof/Machine/Copy.lean ====
section
/-! DEFINITION. The copy streamer: issue rights and checks (R212-R217), and what copy jobs do when they run (R218-R226). -/

namespace Sys2Proof.Machine

/-! ### Issue -/

/-- A crew holds issue rights: it is its squad's producer crew, and the squad has an allotment (R212). -/
def State.copyRights (s : State) (c : Nat) : Bool :=
  let q := s.squadOf c
  (q.kind == .ordinary || q.kind == .service) && (s.crew c).index == (s.launchOf c).pkt.producer && decide (0 < q.allot)

/-- A job of the copy streamer's queue (R213, R251). -/
def Job.isCopy (j : Job) : Bool :=
  match j.kind with
  | .cpy _ _ _ _ _ => true
  | .cpyt _ _ _ _ _ => true
  | .cpym _ _ _ _ _ _ _ _ => true
  | .cins _ _ _ _ _ _ _ => true
  | _ => false

/-- A sweep build, which runs on the copy streamer's queue (R251). -/
def Job.isBuild (j : Job) : Bool :=
  match j.kind with
  | .cins _ _ _ _ _ _ _ => true
  | _ => false

/-- Copy jobs of a core, queued or running. -/
def State.copyJobs (s : State) (core : Nat) : List Job := s.jobs.filter (fun j => j.isCopy && j.core == core)

/-- The stall of a full copy queue (R213). -/
def copyStall (s : State) (x : Issuer) : Bool × Stall := (decide (16 ≤ (s.copyJobs (s.coreOf x.c)).length), .queueFull .copy)

/-- The six registers of a copy block; N is even (R216). -/
def Crew.copyBlock (cr : Crew) (a : UOp) : List Word := ((a.pair?.bind (fun _ => cr.block a 6 154))).getD []

/-- A range of one space may be named at issue (R217). DESIGN CHOICE (log 70): an empty range of scratch starts within the allotment, or at its
end. -/
def State.rangeOk (s : State) (c : Nat) (glob : Bool) (a n : Nat) : Bool :=
  if glob then canonical a else decide (a < 2 ^ 32 ∧ a + n ≤ (s.squadOf c).allot)

/-- The checks that every copy word makes first: rights, and the form of its block (R212, R216). -/
def copyChecks (s : State) (x : Issuer) (b : List Word) (ok : Bool) : List (Bool × Cause) :=
  [(s.copyRights x.c, .streamRights), (!b.isEmpty && ok, .illegalOperand)]

/-- CPY (R218). -/
def execCpy (d a : UOp) (s : State) : Host.Outcome State Fault Refusal :=
  withRun s (fun x s =>
    let b := x.cr.copyBlock a
    let src := blkD b 0
    let dst := blkD b 2
    let n := blk b 4 0 32
    let ssp := blk b 5 0 1 = 1
    let dsp := blk b 5 1 1 = 1
    let g := s.runTime x
    electGate (electDstOk d && a.reg?.isSome)
      (copyChecks s x b (blkZero b 5 2 30 && decide (n ≤ 0x80000000)) ++
        [(src % 4 == 0 && dst % 4 == 0 && n % 4 == 0, .misaligned), (s.rangeOk x.c ssp src n && s.rangeOk x.c dsp dst n, .protection), capCheck s x])
      d [copyStall s x, capStall s x g.1 g.2] x s (fun s =>
      s.withCap x (fun cap s => (s.queueJob x d (.cpy ssp dsp src dst n) false cap).advance x.c 1)))

/-- A format that converts as FP32 does (R220). -/
def floatFmt (n : Nat) : Bool := decide (n ≤ 8)

/-- A format that converts as an integer (R220). -/
def intFmt (n : Nat) : Bool := [10, 11, 14].contains n

/-- A pair of identifiers that `cpyt` converts between (R220). -/
def cpytPair (st dt : Tensor) : Bool :=
  (st.fmt == dt.fmt && !st.scaled && !dt.scaled) || (floatFmt st.fmt && floatFmt dt.fmt) || (intFmt st.fmt && intFmt dt.fmt)

/-- CPYT (R219). -/
def execCpyt (d a : UOp) (s : State) : Host.Outcome State Fault Refusal :=
  withRun s (fun x s =>
    let b := x.cr.copyBlock a
    let st := s.tensor x.cr.squad (blk b 0 0 6)
    let dt := s.tensor x.cr.squad (blk b 2 0 6)
    let nosat := blk b 4 4 1 = 1
    let pair := match st, dt with
      | some st, some dt => cpytPair st dt
      | _, _ => false
    let g := s.runTime x
    electGate (electDstOk d && a.reg?.isSome)
      (copyChecks s x b (decide (blk b 0 0 32 < 64 ∧ blk b 1 0 32 = 0 ∧ blk b 2 0 32 < 64) && blkZero b 4 0 4 && blkZero b 4 5 27) ++
        [(pair, .tensorId), (!nosat || (dt.map (fun t => narrowFmt t.fmt)).getD false, .illegalOperand), capCheck s x])
      d [copyStall s x, capStall s x g.1 g.2] x s (fun s =>
      match st, dt with
      | some st, some dt =>
        s.withCap x (fun cap s =>
          (s.queueJob x d (.cpyt st dt (blk b 3 0 32) (blk b 5 0 32) nosat) false cap).advance x.c 1)
      | _, _ => s))

/-- The receiver of a mask bit: the squad of the launch with its landing home there that has not retired, of the lowest index (R221). -/
def State.receiver (s : State) (launch home : Nat) : Option Nat :=
  let ok (q : Squad) : Bool := q.launch == launch && q.home == home && q.kind == .ordinary && q.st != .retired && q.st != .unplaced
  ((s.squads.filter (fun (p : Nat × Squad) => ok p.2)).foldl (fun (b : Option (Nat × Squad)) p =>
    match b with
    | none => some p
    | some y => if p.2.index < y.2.index then some p else some y) none).map Prod.fst

/-- The squad that takes a multicast of `n` bytes at a landing offset for a mask bit of a cluster; none where the bit is dropped (R221). -/
def State.landing (s : State) (launch cluster k loff n : Nat) : Option Nat :=
  let home := cluster * 12 + k
  if s.offline.contains home then none else (s.receiver launch home).filter (fun q => decide (loff + n ≤ (s.squad q).allot))

/-- The receivers that a multicast accepts as it issues: mask bit and squad (R221, R222). -/
def State.accepting (s : State) (x : Issuer) (mask loff n : Nat) : List (Nat × Nat) :=
  (bitsBelow 12 mask).filterMap (fun k =>
    (s.landing (s.launchIdOf x.c) (clusterOfCore (s.coreOf x.c)) k loff n).map (fun q => (k, q)))

/-- CPYM (R222). -/
def execCpym (d a : UOp) (s : State) : Host.Outcome State Fault Refusal :=
  withRun s (fun x s =>
    let b := x.cr.copyBlock a
    let src := blkD b 0
    let loff := blk b 2 0 32
    let n := blk b 3 0 32
    let mask := blk b 4 0 12
    let ssp := blk b 5 0 1 = 1
    let lstg := BitVec.ofNat 4 (blk b 5 8 4)
    let g := s.runTime x
    let core := s.coreOf x.c
    let launch := s.launchIdOf x.c
    let acc := s.accepting x mask loff n
    let times := g :: acc.map (fun _ => (lstg, g.2))
    electGate (electDstOk d && a.reg?.isSome)
      (copyChecks s x b (blkZero b 4 12 20 && blkZero b 5 1 7 && blkZero b 5 12 20 && decide (n ≤ 0x80000000)
          && (s.launchOf x.c).declares lstg) ++
        [(src % 4 == 0 && loff % 4 == 0 && n % 4 == 0, .misaligned), (s.rangeOk x.c ssp src n, .protection),
          capCheck s x, (acc.isEmpty || s.incOk core launch g.1 g.2 lstg g.2, .timeOrder)])
      d [copyStall s x, ((s.ctIncs core launch times).isNone, .countTable core launch lstg g.2)] x s (fun s =>
      match s.ctIncs core launch times with
      | some (own :: caps, s) =>
        let rs := (acc.zip caps).map (fun p => (p.1.1, p.1.2, p.2))
        let drop := maskOf ((bitsBelow 12 mask).filter (fun k => !acc.any (fun p => p.1 == k)))
        (s.queueJob x d (.cpym ssp src loff n mask lstg.toNat rs drop) false own).advance x.c 1
      | _ => s))

/-- CPYST (R226). -/
def execCpyst (d : UOp) (s : State) : Host.Outcome State Fault Refusal :=
  withRun s (fun x s =>
    electGate d.reg?.isSome [] d [] x s (fun s =>
      ((s.supersede x.c d.reg?.toList).startOp (x.newOp s .cpyst x.lanes x.seta (.uni d.reg?.toList) 0 4 0 [])).advance x.c 1))

/-- CPYST_COMPLETE (R226). DESIGN CHOICE (log 70): a sweep build of the squad's counts among its copy jobs. -/
def execCpystComplete (id : Nat) (s : State) : Host.Outcome State Fault Refusal :=
  .next (match s.opAt id with
    | none => s
    | some op => match op.kind with
      | .cpyst =>
        let js := s.copyJobs (s.coreOf op.crew)
        let mine := js.filter (fun j => j.squad == (s.crew op.crew).squad)
        (s.land op [BitVec.ofNat 32 ((if s.copyRights op.crew then 2 ^ 31 else 0) + mine.length * 2 ^ 16 + js.length * 2 ^ 8)]).endOp op
      | _ => s)

/-! ### Reading the source -/

/-- The words of a copied range, with the addresses of the destination bytes that a poisoned source word gives (R224). -/
def flatCells (m : JobMem) (ssp : Bool) (src dst n : Nat) : List MCell × List Nat :=
  ((cellsAt dst (m.read ssp src n)).map (fun c => { addr := c.1, mask := 0xFF#8, val := c.2 }),
    (List.range (n / 4)).flatMap (fun i =>
      if m.anyBad ssp (src + 4 * i) 4 then (List.range 4).map (fun k => dst + 4 * i + k) else []))

/-- The FP32 value of a source element, its block scale applied (R220). -/
def cpytFloat (st : Tensor) (r : Read) : Word :=
  match r.scale with
  | none => 0x7FC00000#32
  | some k => (word32 (fp32.roundV .rne ((decodeFmt st.fmt r.code).scale k))).1

/-- The code that `cpyt` writes for a source element (R220). DESIGN CHOICE (log 73): between tensors of one format, neither scaled, a NaN's bits are
copied like any others. -/
def cpytCode (st dt : Tensor) (nosat : Bool) (r : Read) : Nat :=
  if st.fmt = dt.fmt ∧ st.scaled = false ∧ dt.scaled = false then r.code
  else if floatFmt dt.fmt then
    let v := cpytFloat st r
    if dt.fmt = 0 then v.toNat
    else if dt.fmt ≤ 2 then (convert dt.fmt .rne false (fval v)).1
    else (convert dt.fmt .rne nosat ((fval v).scale dt.sexp)).1
  else
    let v := intOf st.fmt r.code
    if dt.fmt = 14 then (BitVec.ofInt 32 v).toNat
    else if dt.fmt = 10 then (BitVec.ofInt 8 (max (-128) (min 127 v))).toNat
    else (max 0 (min 255 v)).toNat

/-- A copy that has read its source, with the error that poison gives. -/
def State.sourceRead (s : State) (j : Job) (cells : List MCell) (bad : List Nat) (amax : Option Word) : State :=
  s.modJob j.id (fun k =>
    { k with readDone := true, cells := cells, bad := bad, amax := amax, errs := if bad.isEmpty then k.errs else k.errs ++ [2] })

/-- Reads the source of a copy, or holds the job, or ends it for want of permission (R218-R224). -/
def State.copyRead (s : State) (j : Job) : State :=
  let denied (s : State) : State := s.modJob j.id (fun k => { k with errs := k.errs ++ [3] })
  match j.kind with
  | .cpy ssp _ src dst n =>
    s.withPages j [⟨ssp, src, n, false⟩] denied (fun m _ s =>
      let r := flatCells m ssp src dst n
      s.sourceRead j r.1 r.2 none)
  | .cpym ssp src loff n _ _ _ _ =>
    s.withPages j [⟨ssp, src, n, false⟩] denied (fun m _ s =>
      let r := flatCells m ssp src loff n
      s.sourceRead j r.1 r.2 none)
  | .cpyt st dt off0 off1 nosat =>
    let idx := dt.indices
    s.withPages j (idx.flatMap (fun i => st.ranges false (cpytFrom off0 off1 i))) denied (fun m _ s =>
      let rs := idx.map (fun i => (i, m.elem st (cpytFrom off0 off1 i)))
      let es := rs.map (fun r => (r.1, cpytCode st dt nosat r.2))
      let bad := (rs.filter (fun r => r.2.bad)).flatMap (fun r => (elemCells dt r.1 0).map MCell.addr)
      let amax := if narrowFmt dt.fmt then maxMag (rs.map (fun r => cpytFloat st r.2)) else none
      s.sourceRead j (tensorCells dt (narrowFmt dt.fmt) es) bad amax)
  | _ => s

/-! ### Writing the destination -/

/-- The pages that bytes to be written lie in. -/
def cellPages (cells : List MCell) : List (Nat × Bool) := (cells.map (fun c => (c.addr, true))).foldl addPage []

/-- Lines of which every byte is among those written clean. -/
def wholeLines (written : List Nat) : List Nat :=
  ((written.map (· / 128)).eraseDups).filter (fun l => (List.range 128).all (fun i => written.contains (128 * l + i)))

/-- Writes a batch of a job's bytes in opened pages, and clears the lines that the job has now written whole and clean (R130). -/
def State.copyBatch (s : State) (j : Job) (m : List (Nat × Nat)) (batch rest : List MCell) : State :=
  let mem := s.jobMem j.core j.squad m
  let bad := j.bad.filter (fun a => batch.any (fun c => c.addr == a))
  let s := s.writeOut j true m (resolveCells (mem.byte true) batch) bad
  let written := j.written ++ (batch.filter (fun c => !j.bad.contains c.addr)).map (fun c => physIn m c.addr)
  let clean := wholeLines written
  let s := s.setMem { s.mem with poison := s.mem.poison.filter (fun l => !clean.contains l) }
  s.modJob j.id (fun k => { k with cells := rest, written := written })

/-- Whether a byte's word is among those written now, of bytes that are left to be written: which are, spec/ leaves open (R223, R224, log 2). -/
def writtenNow (fresh : Nat) (left : List MCell) (c : MCell) : Bool :=
  Config.choice (fresh + (c.addr / 4 - (left.headD { addr := 0, mask := 0#8, val := 0#8 }).addr / 4)) % 2 == 1

/-- Writes global bytes of a copy: all of them, or, where a page cannot be written, those words of the other pages that happen to be
written before the job is held or ended (log 2). -/
def State.copyWriteGlobal (s : State) (j : Job) : State :=
  let space := s.spaceOfSquad j.squad
  let ps := cellPages j.cells
  match s.openPages j.core space ps with
  | (.ok m, s) => s.copyBatch j m j.cells []
  | (.error (a, w, x), s) =>
    let open_ (c : MCell) : Bool := match (s.access j.core space c.addr true false).1 with
      | .ok _ => true
      | _ => false
    let now (c : MCell) : Bool := open_ c && writtenNow s.fresh j.cells c
    let batch := j.cells.filter now
    let rest := j.cells.filter (fun c => !now c)
    let s := { s with fresh := s.fresh + j.cells.length + 1 }
    let s : State := match s.openPages j.core space (cellPages batch) with
      | (.ok m, s) => s.copyBatch j m batch rest
      | (.error _, s) => s
    if x = .unmapped then s.holdJob j a w else s.modJob j.id (fun k => { k with errs := k.errs ++ [3] })

/-- A byte of a squad's scratch stands in its image: the unit has been written there (R119, R289). -/
def Squad.inImage (r : Squad) (a : Nat) : Bool := r.out && !r.pieces.contains (85 + a / 4096)

/-- The address of a byte of scratch in a squad's image (R288). -/
def Squad.scratchAddr (r : Squad) (a : Nat) : Nat := (r.image + BitVec.ofNat 64 (0x55000 + a)).toNat

/-- Writes bytes of scratch to a squad's image (R119, R289 step 2): done, held on an unmapped page, or without permission. -/
def State.landImage (s : State) (q : Nat) (cells : List (Nat × Byte)) : DevWrite :=
  let r := s.squad q
  let space := (s.launch r.launch).pkt.space
  match cells.find? (fun c => (s.access r.core space (r.scratchAddr c.1) true false).1 == .unmapped) with
  | some c =>
    .held (if r.saveHeld.isSome then s else (s.modSquad q (fun r => { r with saveHeld := some (r.scratchAddr c.1) })).addWalk (.save q))
  | none =>
    cells.foldl (fun d c => match d with
      | .done s => s.devWrite r.core space (r.scratchAddr c.1) [c.2]
      | d => d) (.done s)

/-- Bytes land in a squad's scratch, with those of them that are poisoned; those whose unit stands in its image are written there (R119, R289
step 2). False where a page of the image holds those, and nothing of them is written. -/
def State.landScratch (s : State) (q : Nat) (cells : List Host.Cell) (bad : List Nat) : Bool × State :=
  let saved (a : Nat) : Bool := (s.squad q).inImage a
  let r : Bool × State := match s.landImage q (cells.filter (fun c => saved c.1)) with
    | .done s => (true, s)
    | .held s => (false, s)
    | .denied s => (true, s.imageEnd (s.squad q).launch)
  let now (a : Nat) : Bool := r.1 || !saved a
  (r.1, r.2.modSquad q (fun r => (r.writeCells (cells.filter (fun c => now c.1))).poisonWords ((bad.filter now).map (· / 4))))

/-- Writes scratch bytes of a copy: what a page of the squad's image holds is left (R119, R225). -/
def State.copyWriteScratch (s : State) (j : Job) : State :=
  let mem := s.jobMem j.core j.squad []
  let r := s.landScratch j.squad (resolveCells (mem.byte false) j.cells) j.bad
  r.2.modJob j.id (fun k => { k with cells := if r.1 then [] else k.cells.filter (fun c => (s.squad j.squad).inImage c.addr) })

/-- Writes a copy's destination. -/
def State.copyWrite (s : State) (j : Job) : State :=
  match j.destination with
  | some true => s.copyWriteGlobal j
  | some false => s.copyWriteScratch j
  | none => s

/-- Drops the capabilities of a multicast's receivers that have not landed. -/
def State.dropReceivers (s : State) (j : Job) : State :=
  match j.kind with
  | .cpym _ _ _ _ _ _ rs _ =>
    (rs.filter (fun r => !j.landed.contains r.1)).foldl (fun s r => s.addDropAt j.core r.2.2 j.squad 0) s
  | _ => s

/-- The DROP bits of a job's status. -/
def Job.dropBits (j : Job) : Nat :=
  match j.kind with
  | .cpym _ _ _ _ _ _ _ drop => drop
  | _ => 0

/-- Ends a copy job: the record of its greatest magnitude, then its status (R198, R215, R219). DESIGN CHOICE (log 70): a `cpyt` that ends with
ERR 1 or 3 records none. -/
def State.finishCopy (s : State) (j : Job) : State :=
  let s : State := match j.kind with
    | .cpyt _ dt _ _ _ => if j.errs.contains 1 || j.errs.contains 3 then s else s.recordAmax j.squad dt j.amax
    | _ => s
  let s := s.dropReceivers j
  s.finishJob { j with errs := if j.dropBits = 0 then j.errs else j.errs ++ [4] } j.dropBits

/-- Every receiver has landed or was dropped. -/
def Job.allLanded (j : Job) : Bool :=
  match j.kind with
  | .cpym _ _ _ _ _ _ rs _ => rs.all (fun r => j.landed.contains r.1)
  | _ => true

/-- A copy job after its source has been read. -/
def State.copyRest (s : State) (j : Job) : State :=
  if j.fault.isSome then s
  else if j.errs.contains 3 then s.finishCopy j
  else
    let s := s.copyWrite j
    match s.job j.id with
    | none => s
    | some j => if j.fault.isSome || (j.destination == some false && !j.cells.isEmpty) then s else s.finishCopy j

/-- COPY_JOB_START (R213). -/
def execCopyJobStart (job : Nat) (s : State) : Host.Outcome State Fault Refusal :=
  .next (match s.job job with
    | none => s
    | some j =>
      if j.isCopy && !j.started && s.issuerDone j && !s.jobBlocked j then
        (s.modJob j.id (fun k => { k with started := true })).jobEvent j 0 j.opcode
      else s)

/-- COPY_JOB_COMPLETE (R218, R219, R222, R224). -/
def execCopyJobComplete (job : Nat) (s : State) : Host.Outcome State Fault Refusal :=
  .next (match s.job job with
    | none => s
    | some j =>
      if !(j.isCopy && !j.isBuild && j.running) then s
      else if j.ended then s.finishCopy { j with errs := j.errs ++ [1] }
      else
        let s := if j.readDone then s else s.copyRead j
        match s.job job with
        | none => s
        | some j => if j.allLanded || j.errs.contains 3 then s.copyRest j else s)

/-- A receiver in which a multicast has begun to land: its squad, and the bytes that it is still to get. -/
def Job.landingIn (j : Job) (k : Nat) : Option (Nat × List MCell) := (j.unlanded.find? (fun p => p.1 == k)).map Prod.snd

/-- A receiver of a multicast is done with: its capability is dropped once what the job has written is applied (R222). -/
def State.receiverDone (s : State) (j : Job) (k cap : Nat) (dropped : Bool) : State :=
  (s.addDropAt j.core cap j.squad 0).modJob j.id (fun i =>
    { i with landed := i.landed ++ [k]
             kind := match i.kind with
               | .cpym a b c d e f g drop => .cpym a b c d e f g (if dropped then drop ||| 2 ^ k else drop)
               | x => x })

/-- Some of the words that are left for a receiver land; which, the spec leaves open (R223, log 2). The last of them end its landing. -/
def State.landSome (s : State) (j : Job) (k q cap : Nat) (left : List MCell) : State :=
  let now (c : MCell) : Bool := writtenNow s.fresh left c
  let batch := left.filter now
  let bad := j.bad.filter (fun a => batch.any (fun c => c.addr == a))
  let r := ({ s with fresh := s.fresh + left.length + 1 }).landScratch q (batch.map (fun (c : MCell) => (c.addr, c.val))) bad
  let rest := left.filter (fun c => !now c || (!r.1 && (s.squad q).inImage c.addr))
  if rest.isEmpty then r.2.receiverDone j k cap false
  else r.2.modJob j.id (fun i => { i with unlanded := (k, q, rest) :: i.unlanded.filter (fun p => p.1 != k) })

/-- One receiver of a multicast: found as its first words land, or dropped where no squad takes them, or where the squad retires before the last
have landed (R222). -/
def State.landMulticast (s : State) (j : Job) (k loff n cap : Nat) : State :=
  match j.landingIn k with
  | some (q, left) => if (s.squad q).st = .retired then s.receiverDone j k cap true else s.landSome j k q cap left
  | none =>
    match s.landing (s.squad j.squad).launch (s.squad j.squad).cluster k loff n with
    | none => s.receiverDone j k cap true
    | some q => s.landSome j k q cap j.cells

/-- MULTICAST_LANDING (R222, R223): words land in the receiver's units, or in its saved contents. -/
def execMulticastLanding (job receiver : Nat) (s : State) : Host.Outcome State Fault Refusal :=
  .next (match s.job job with
    | none => s
    | some j =>
      if !(j.running && !j.ended) then s
      else
        let s := if j.readDone then s else s.copyRead j
        match s.job job with
        | none => s
        | some j =>
          match j.kind with
          | .cpym _ _ loff n _ _ rs _ =>
            if !j.readDone || j.landed.contains receiver then s
            else
              match rs.find? (fun r => r.1 == receiver) with
              | none => s
              | some r => s.landMulticast j r.1 loff n r.2.2
          | _ => s)

end Sys2Proof.Machine
end

