-- ==== Sys2Proof/Machine/Time.lean ====
section
/-! DEFINITION. The logical-time words (R237-R242) and the events of the count table, the aggregators and the frontiers (R230-R236, R241). -/

namespace Sys2Proof.Machine

/-! ### Moving threads in time (R238) -/

/-- One thread's move: its lane, the (stage, time) that it leaves and the one it goes to; `none` where a counter is carried past
0xFFFF. -/
structure Move where
  lane : Nat
  from_ : BitVec 4 × DWord
  to_ : Option (BitVec 4 × DWord)
deriving DecidableEq, Repr

/-- A move passes R232. A move to where the thread is changes nothing. -/
def State.moveOk (s : State) (core launch : Nat) (m : Move) : Bool :=
  match m.to_ with
  | none => false
  | some g => decide (g = m.from_) || s.incOk core launch m.from_.1 m.from_.2 g.1 g.2

/-- A squad holds a capability at a (stage, time): its own, that of the message it handles, or that of its pairs' launch (R230, R231). -/
def State.capAt (s : State) (q : Nat) (g : BitVec 4 × DWord) : Bool :=
  (s.squad q).caps.any (fun k => k.stage == g.1 && k.time == g.2)
    || s.messages.any (fun m => m.running == some q && m.stage == g.1 && m.time == g.2)
    || (s.squad q).crews.any (fun c => (s.crew c).threads.any (fun t => match t.pair with
      | none => false
      | some p => ((s.pairLaunches.find p.launch).map (fun l => l.stage == g.1 && l.time == g.2)).getD false))

/-- The distinct targets, of threads that move at all, at which the squad holds no capability (R238). -/
def State.newTimes (s : State) (q : Nat) (ms : List Move) : List (BitVec 4 × DWord) :=
  (((ms.filter (fun m => m.to_ != some m.from_)).filterMap Move.to_).eraseDups).filter (fun g => !s.capAt q g)

/-- A time word ends once each drop that it has caused is made (R237). -/
def State.settleTimeWord (s : State) (op : Nat) : State :=
  if s.drops.any (fun d => d.op == some op) then s
  else
    match s.opAt op with
    | some o => s.endOp o
    | none => s

/-- The effect of a time word, whose SETB count, if the clause names one, stays until its drops are made (R237): `f` is given the number
that its drops carry. -/
def State.timeWord (s : State) (x : Issuer) (f : Option Nat → State → State) : State :=
  match x.setb with
  | none => f none s
  | some n =>
    let id := s.nextId
    (f (some id) (s.startOp (x.newOp s .timeDrop x.lanes (some n) .none 0 0 0 []))).settleTimeWord id

/-- Makes the moves of a run: increments first, then the threads, then the drops (R232, R238). -/
def State.makeMoves (s : State) (x : Issuer) (ms : List Move) (op : Option Nat) : State :=
  let q := x.cr.squad
  let new := s.newTimes q ms
  let left := ((ms.filter (fun m => m.to_ != some m.from_ && !(s.thread x.c m.lane).freed)).map Move.from_).eraseDups
  match s.ctIncs (s.coreOf x.c) (s.launchIdOf x.c) new with
  | none => s
  | some (is, s) =>
    let caps := (new.zip is).map (fun p => { stage := p.1.1, time := p.1.2, entry := p.2 : SquadCap })
    let s := s.modSquad q (fun r => { r with caps := r.caps ++ caps })
    let s := ms.foldl (fun s m => s.modThread x.c m.lane (fun t =>
      match m.to_ with
      | some g => { t.mark [121 + m.lane / 16, 123] with stage := g.1, time := g.2, freed := t.freed && m.to_ == some m.from_ }
      | none => t)) s
    s.leaveTimes q left op

/-- The issue of a word that moves the run's threads. -/
def moveIssue (ok : Bool) (first : List (Bool × Cause)) (n : Nat) (go : BitVec 4 → DWord → Option (BitVec 4 × DWord)) (x : Issuer)
    (s : State) : State :=
  let core := s.coreOf x.c
  let launch := s.launchIdOf x.c
  let ms := x.lanes.map (fun l =>
    let t := s.thread x.c l
    { lane := l, from_ := (t.stage, t.time), to_ := go t.stage t.time : Move })
  let new := s.newTimes x.cr.squad ms
  let g := new.headD (0#4, 0#64)
  electGate ok (first ++ [(ms.all (s.moveOk core launch), .timeOrder)]) .zero
    [((s.ctIncs core launch new).isNone, .countTable core launch g.1 g.2)] x s
    (fun s => (s.timeWord x (fun op s => s.makeMoves x ms op)).advance x.c n)

/-- The checks of a stage operand (R237): above 15, then not declared. -/
def stageChecks (s : State) (x : Issuer) (v : Word) : List (Bool × Cause) :=
  [(decide (v.toNat < 16), .illegalOperand), ((s.launchOf x.c).declares (BitVec.ofNat 4 v.toNat), .timeOrder)]

/-- LTSET (R238). -/
def execLtset (a b : UOp) (s : State) : Host.Outcome State Fault Refusal :=
  withRun s (fun x s =>
    let v := x.cr.readU b
    let t := x.cr.readUD a
    moveIssue (uSrcOk 2 a && uSrcOk 1 b) (stageChecks s x v) (uSize a b) (fun _ _ => some (BitVec.ofNat 4 v.toNat, t)) x s)

/-- LTINC (R238). -/
def execLtinc (a b : UOp) (s : State) : Host.Outcome State Fault Refusal :=
  withRun s (fun x s =>
    let k := (x.cr.readU a).toNat
    let n := (x.cr.readU b).toNat
    moveIssue (uSrcOk 1 a && uSrcOk 1 b) [(decide (k ≤ 3 ∧ n ≤ 0xFFFF), .illegalOperand)] (uSize a b)
      (fun g t => (timeInc t k n).map (fun u => (g, u))) x s)

/-! ### Program capabilities (R239) -/

/-- The slot of a squad's record for a (stage, time). -/
def Squad.progCap (q : Squad) (g : BitVec 4) (t : DWord) : Option ProgCap :=
  q.progCaps.find? (fun k => k.stage == g && k.time == t)

/-- The count of a slot (R239). -/
def ProgCap.count (k : ProgCap) : Nat := k.entries.length

/-- Changes the entries of the slot of a (stage, time); a slot left with none is freed. -/
def Squad.modProgCap (q : Squad) (g : BitVec 4) (t : DWord) (f : List Nat → List Nat) : Squad :=
  let ks := mapIf (fun c => c.stage == g && c.time == t) (fun c => { c with entries := f c.entries : ProgCap }) q.progCaps
  { q with progCaps := ks.filter (fun c => !c.entries.isEmpty) }

/-- One more capability of a squad's record, counted in an entry: in its slot, or in a free one. -/
def Squad.addProgCap (q : Squad) (g : BitVec 4) (t : DWord) (i : Nat) : Squad :=
  if (q.progCap g t).isSome then q.modProgCap g t (i :: ·)
  else { q with progCaps := q.progCaps ++ [{ stage := g, time := t, entries := [i] }] }

/-- LTCAP (R239). -/
def execLtcap (a b : UOp) (s : State) : Host.Outcome State Fault Refusal :=
  withRun s (fun x s =>
    let v := x.cr.readU b
    let g := BitVec.ofNat 4 v.toNat
    let t := x.cr.readUD a
    let core := s.coreOf x.c
    let launch := s.launchIdOf x.c
    let from_ := s.runTime x
    let q := s.squadOf x.c
    let slot := q.progCap g t
    let room := match slot with
      | some k => decide (k.count < 0xFFFF)
      | none => decide (q.progCaps.length < 16)
    electGate (uSrcOk 2 a && uSrcOk 1 b)
      (stageChecks s x v ++ [(s.incOk core launch from_.1 from_.2 g t, .timeOrder), (room, .timeOrder)]) .zero
      [(!s.ctRoom core launch g t, .countTable core launch g t)] x s (fun s =>
      match s.ctInc core launch g t with
      | none => s
      | some (i, s) => (s.modSquad x.cr.squad (fun r => r.addProgCap g t i)).advance x.c (uSize a b)))

/-- LTDROP (R239). -/
def execLtdrop (a b : UOp) (s : State) : Host.Outcome State Fault Refusal :=
  withRun s (fun x s =>
    let v := x.cr.readU b
    let g := BitVec.ofNat 4 v.toNat
    let t := x.cr.readUD a
    let slot := (s.squadOf x.c).progCap g t
    electGate (uSrcOk 2 a && uSrcOk 1 b) (stageChecks s x v ++ [((slot.map ProgCap.count).getD 0 != 0, .timeOrder)]) .zero [] x s (fun s =>
      match slot with
      | none => s
      | some k =>
        let s := s.timeWord x (fun op s => s.addDropFor (s.coreOf x.c) (k.entries.headD 0) x.cr.squad op)
        (s.modSquad x.cr.squad (fun r => r.modProgCap g t List.tail)).advance x.c (uSize a b)))

/-! ### Frontiers (R240, R241) -/

/-- A frontier is greater than a time; ⊤ is greater than every time. -/
def frontPast (f : Option DWord) (t : DWord) : Bool :=
  match f with
  | none => true
  | some x => t.ult x

/-- FTWAIT (R240). With sixteen descriptors in use a further one stalls, whatever its frontier (R287). -/
def execFtwait (flag : BitVec 4) (a b : UOp) (s : State) : Host.Outcome State Fault Refusal :=
  withRun s (fun x s =>
    let v := x.cr.readU a
    let g := BitVec.ofNat 4 v.toNat
    let t := x.cr.readUD b
    let f := flag.toNat
    if !(decide (f < 12) && uSrcOk 1 a && uSrcOk 2 b) then s.raise x .illegalOperand 0#64
    else
      match firstFail (stageChecks s x v) with
      | some c => s.raise x c 0#64
      | none =>
        if s.flagFull x.c x.lanes (some f) then s.stall x.c x.lanes (.flagFull f x.lanes)
        else if 16 ≤ x.cr.waits.length then s.stall x.c x.lanes .waitsFull
        else if frontPast (s.front (s.coreOf x.c) (s.launchIdOf x.c) g) t then s.advance x.c (uSize a b)
        else
          let s := s.flagAdd x.c x.lanes (some f)
          let w : FtWait := { stage := g.toNat, time := t, flag := f, lanes := x.lanes }
          (s.modCrew x.c (fun cr => { cr with waits := cr.waits ++ [w] })).advance x.c (uSize a b))

/-- Completes the waits of a crew that its core's announced frontiers have passed (R240). -/
def State.serveWaits (s : State) (c : Nat) : State :=
  let core := s.coreOf c
  let launch := s.launchIdOf c
  let done (w : FtWait) : Bool := frontPast (s.front core launch (BitVec.ofNat 4 w.stage)) w.time
  let ws := (s.crew c).waits.filter done
  let s := s.modCrew c (fun cr => { cr with waits := cr.waits.filter (fun w => !done w) })
  ws.foldl (fun s w => s.flagSub c w.lanes (some w.flag)) s

/-- FTPOLL (R241). -/
def execFtpoll (d b : UOp) (s : State) : Host.Outcome State Fault Refusal :=
  withRun s (fun x s =>
    let v := x.cr.readU b
    match quadReg? d with
    | none => s.raise x .illegalOperand 0#64
    | some r =>
      electGate (uSrcOk 1 b) (stageChecks s x v) d [] x s (fun s =>
        let regs := [r, r + 1, r + 2, r + 3]
        ((s.supersede x.c regs).startOp (x.newOp s (.ftpoll v.toNat) x.lanes x.seta (.uni regs) 0 4 0 [])).advance x.c
          (1 + b.lits.length)))

/-- The four words that `ftpoll` writes (R241). -/
def pollWords (f : Option DWord) (stage : Nat) : List Word :=
  match f with
  | none => [0xFFFFFFFF#32, 0xFFFFFFFF#32, BitVec.ofNat 32 (2 ^ 31 + stage), 0#32]
  | some t => [t.lo, t.hi, BitVec.ofNat 32 stage, 0#32]

/-- FTPOLL_COMPLETE (R241). -/
def execFtpollComplete (id : Nat) (s : State) : Host.Outcome State Fault Refusal :=
  .next (match s.opAt id with
    | none => s
    | some op => match op.kind with
      | .ftpoll g =>
        (s.land op (pollWords (s.front (s.coreOf op.crew) (s.launchIdOf op.crew) (BitVec.ofNat 4 g)) g)).endOp op
      | _ => s)

/-! ### Path summaries (R242) -/

/-- A summary is greater than another (R228). -/
def sumGreater (a b : Word) : Bool :=
  let na := bitsOf a.toNat 0 16
  let nb := bitsOf b.toNat 0 16
  let ka := bitsOf a.toNat 16 2
  let kb := bitsOf b.toNat 16 2
  if na = 0 then false else if nb = 0 then true else if ka = kb then decide (nb < na) else decide (ka < kb)

/-- A launch of a partition that has been accepted and has not ended, by its handle. -/
def State.byHandle (s : State) (part : Nat) (handle : BitVec 16) : Option Nat :=
  (s.launches.find? (fun (p : Nat × Launch) => p.2.part == part && p.2.handle == handle && handle != 0#16 && !p.2.ended)).map Prod.fst

/-- The status of `ltsum` for a launch (R242). -/
def Launch.sumStatus (k : Launch) (a b : BitVec 4) (w : Word) : Nat :=
  let old := k.summary a b
  if a = b ∨ (old.msb ∧ !w.msb) ∨ (old.msb ∧ sumGreater w old) ∨ (bitsOf w.toNat 16 2 ≠ 0 ∧ bitsOf w.toNat 0 16 = 0)
      ∨ !k.declares a ∨ !k.declares b then 1
  else 0

/-- LTSUM (R242). DESIGN CHOICE (log 74): where statuses 1 and 2 both apply it answers 2, as it finds the launch first. -/
def execLtsum (d a b : UOp) (s : State) : Host.Outcome State Fault Refusal :=
  withRun s (fun x s =>
    let v := (x.cr.readU a).toNat
    let w := x.cr.readU b
    electGate (d.reg?.isSome && uSrcOk 1 a && uSrcOk 1 b)
      [(s.systemAllowed x.c, .protection), (bitsOf v 8 8 == 0 && bitsOf w.toNat 18 13 == 0, .illegalOperand)] d [] x s (fun s =>
      let from_ := BitVec.ofNat 4 (bitsOf v 4 4)
      let to_ := BitVec.ofNat 4 (bitsOf v 0 4)
      let r : Nat × State := match s.byHandle (s.partOfCore (s.coreOf x.c)) (BitVec.ofNat 16 (bitsOf v 16 16)) with
        | none => (2, s)
        | some k =>
          let st := (s.launch k).sumStatus from_ to_ w
          (st, if st = 0 then s.modLaunch k (fun l => { l with sums := l.sums.put (16 * from_.toNat + to_.toNat) w }) else s)
      (r.2.statusNow x d (BitVec.ofNat 32 r.1)).advance x.c (uSize a b)))

/-! ### Events -/

/-- The launch of the capability that a drop is of. -/
def State.dropLaunch (s : State) (d : Drop) : Option Nat :=
  match d.image with
  | some r => some r.launch
  | none => ((s.core d.core).table.find d.entry).map CtEntry.launch

/-- The writes that a drop waits for have been applied in all four views (R141, R230), and increments in other tables that come before it are
acknowledged (R235). -/
def State.dropReady (s : State) (d : Drop) : Bool :=
  (d.squad :: d.also).all (fun q => s.mem.appliedBefore q d.writes d.before &&
      s.ops.all (fun op => !((s.crew op.crew).squad == q && decide (op.id < d.before) && op.kind.writes))) &&
    s.unacked.all (fun u => !(decide (u.id < d.id) && s.dropLaunch d == some u.launch && u.left != 0))

/-- CAPABILITY_DROP (R230): the entry's count falls, or the image record's, and the time word that caused the drop may end (R237). -/
def execCapabilityDrop (drop : Nat) (s : State) : Host.Outcome State Fault Refusal :=
  .next (match s.drops.find? (fun d => d.id == drop) with
    | none => s
    | some d =>
      if s.dropReady d then
        let s := { s with drops := s.drops.filter (fun e => e.id != drop) }
        let s := match d.image with
          | some r => s.chipCount r
          | none => s.ctDec d.core d.entry
        match d.op with
        | some op => s.settleTimeWord op
        | none => s
      else s)

/-- The increments of a launch on a core have reached the chip aggregator. -/
def State.reported (s : State) (core launch : Nat) : Bool := !(s.core core).reports.any (fun r => r.launch == launch)

/-- CAPABILITY_HANDOFF (R235): the increment is acknowledged, so the giving table decrements. -/
def execCapabilityHandoff (handoff : Nat) (s : State) : Host.Outcome State Fault Refusal :=
  .next (match s.handoffs.find? (fun h => h.id == handoff) with
    | none => s
    | some h =>
      if 576 ≤ h.receiver ∨ s.reported h.receiver h.launch then
        let s := { s with handoffs := s.handoffs.filter (fun e => e.id != handoff) }
        if 576 ≤ h.giver then s.chipCount ⟨h.launch, h.stage, h.time, -1⟩ else s.ctDec h.giver h.entry
      else s)

/-- Every squad of a launch has been placed (R230, R306). -/
def Launch.allPlaced (k : Launch) : Bool := k.bound && k.unhanded.isEmpty && k.ranges.all (fun (p : Nat × List Nat) => p.2.isEmpty)

/-- The launch's starting capability is dropped once its last squad is placed, after the placements' own increments (R230, R232). -/
def State.settleStart (s : State) (launch : Nat) : State :=
  let k := s.launch launch
  if k.startCap && k.allPlaced && s.cores.all (fun (p : Nat × Core) => !p.2.reports.any (fun r => r.launch == launch)) then
    s.modLaunch launch (fun k => { k with startCap := false })
  else s

/-- One more of a core's reports has arrived: what waits for no more is acknowledged (R235). -/
def State.acknowledge (s : State) (core : Nat) : State :=
  { s with unacked := (mapIf (fun u => u.core == core) (fun u => { u with left := u.left - 1 }) s.unacked).filter (fun u => u.left != 0) }

/-- COUNT_REPORT (R234): the oldest change of a core's table reaches the aggregator. -/
def execCountReport (core : Nat) (s : State) : Host.Outcome State Fault Refusal :=
  .next (match (s.core core).reports with
    | [] => s
    | r :: rest =>
      let s := (s.acknowledge core).modCore core (fun k => { k with reports := rest })
      if (s.launches.find r.launch).isSome then (s.chipCount r).settleStart r.launch else s)

/-- A frontier has risen. -/
def frontRisen (old new : Option DWord) : Bool :=
  match old, new with
  | some _, none => true
  | some x, some y => x.ult y
  | none, _ => false

/-- The resident squads of a launch on a core. -/
def State.squadsHere (s : State) (launch core : Nat) : List Nat :=
  (s.squads.filter (fun (p : Nat × Squad) => p.2.launch == launch && p.2.core == core && (p.2.st == .resident || p.2.st == .stopping))).map
    Prod.fst

/-- An announcement advances the rings of the identifiers of its stage (R99). -/
def State.advanceRings (s : State) (q : Nat) (stage : BitVec 4) : State :=
  s.modSquad q (fun r => { r with tx := r.tx.map (fun (p : Nat × Tensor) =>
    (p.1, if p.2.stage = stage then p.2.advance else p.2)) })

/-- The frontier of a stage as last sent to a core: the last on its way there, or what the core keeps. -/
def State.sent (s : State) (core launch : Nat) (stage : BitVec 4) : Option DWord :=
  match ((s.core core).announces.filter (fun a => a.launch == launch && a.stage == stage)).getLast? with
  | some a => a.front
  | none => s.front core launch stage

/-- The launches that hold squads on a core. -/
def State.launchesOn (s : State) (core : Nat) : List Nat :=
  s.launches.keys.filter (fun k => !(s.launch k).ended && !(s.squadsHere k core).isEmpty)

/-- The chip aggregator announces a frontier that has risen to a core (R234). -/
def State.announceStage (s : State) (core launch : Nat) (stage : BitVec 4) : State :=
  let f := (s.launch launch).frontier stage
  if frontRisen (s.sent core launch stage) f then
    s.modCore core (fun k => { k with announces := k.announces ++ [{ launch := launch, stage := stage, front := f }] })
  else s

/-- The frontiers that have risen are announced to every core that holds a squad of their launch, in ascending stage (R234, log 63). -/
def State.announceRises (s : State) : State :=
  s.cores.keys.foldl (fun s core => (s.launchesOn core).foldl (fun s k =>
    (List.range 16).foldl (fun s g => s.announceStage core k (BitVec.ofNat 4 g)) s) s) s

/-- FRONTIER_ANNOUNCE (R234): the oldest announcement under way to a core reaches it, in the order sent (R314). -/
def execFrontierAnnounce (launch stage core : Nat) (s : State) : Host.Outcome State Fault Refusal :=
  .next (match (s.core core).announces with
    | [] => s
    | a :: rest =>
      if a.launch = launch ∧ a.stage.toNat = stage then
        let s := s.modCore core (fun k => { k with announces := rest, fronts := k.fronts.set (16 * launch + stage) a.front })
        (s.squadsHere launch core).foldl (fun s q => (s.squad q).crews.foldl State.serveWaits (s.advanceRings q a.stage)) s
      else s)

end Sys2Proof.Machine
end

