-- ==== Sys2Proof/Machine/Slots.lean ====
section
/-! DEFINITION. Placing squads and crews on a core (R50-R53, R68, R116-R118, R181, R302, R303, R306), the retirement of a squad (R53), and
fault-service crews (R279). -/

namespace Sys2Proof.Machine

/-! ### Slots -/

/-- A slot takes a newcomer: it is free or evicting (R51). -/
def SlotState.available : SlotState → Bool
  | .free => true
  | .evicting _ => true
  | _ => false

/-- The fault-service slot of a cluster, in hardware mode (R279). -/
def State.serviceSlot (s : State) (core slot : Nat) : Bool :=
  (s.part (s.partOfCore core)).hwFault && core % 12 == 0 && slot == 15

/-- The reservation of a launch on a core (R306). -/
def Core.reserve (k : Core) (launch : Nat) : Option Reserve := k.reserves.find? (fun r => r.launch == launch)

/-- A slot is kept for the pair crews and handlers of some launch. -/
def Core.reserved (k : Core) (slot : Nat) : Bool := k.reserves.any (fun r => r.pair.contains slot || r.handler.contains slot)

/-- The state of a slot. -/
def Core.slot (k : Core) (n : Nat) : SlotState := k.slots.getD n .free

/-- The slots that a core can give to a squad, in the order of R51. -/
def State.openSlots (s : State) (core : Nat) : List Nat :=
  slotOrder.filter (fun n => ((s.core core).slot n).available && !s.serviceSlot core n && !(s.core core).reserved n)

/-- The free slots of a core (R305). -/
def State.freeSlots (s : State) (core : Nat) : Nat :=
  (slotOrder.filter (fun n => (s.core core).slot n == .free && !s.serviceSlot core n && !(s.core core).reserved n)).length

/-- A core takes work: it is exposed and powered (R291, R322). -/
def State.inService (s : State) (core : Nat) : Bool := !s.offline.contains core && !s.gated.contains core

/-- A slot reserved on a core for a launch's pair crews, or its handlers, that holds no crew. -/
def State.keptSlot (s : State) (core launch : Nat) (handler : Bool) : Option Nat :=
  match (s.core core).reserve launch with
  | none => none
  | some r => (if handler then r.handler else r.pair).find? (fun n => ((s.core core).slot n).available)

/-! ### Frames, units, identifiers -/

/-- The bytes of the image frame of a launch (R302). -/
def Packet.frameBytes (p : Packet) : Nat := 348160 + (p.scratch + 4095) / 4096 * 4096 + p.crews * 90112

/-- The rounded allotment (R116). -/
def Packet.allot (p : Packet) : Nat := (p.scratch + 4095) / 4096 * 4096

/-- The address of a frame. -/
def Packet.frameAddr (p : Packet) (k : Nat) : DWord := p.imgBase + BitVec.ofNat 64 (k * p.frameBytes)

/-- The address of a crew's context image in a frame (R302). -/
def Packet.crewAddr (p : Packet) (k c : Nat) : DWord := p.frameAddr k + BitVec.ofNat 64 (348160 + p.allot + 90112 * c)

/-- The lowest free frame of a launch (R302). -/
def Launch.freeFrame (k : Launch) : Option Nat := (List.range k.pkt.nImg).find? (fun i => !k.frames.contains i)

/-- Scratch units of a core in use by its squads. -/
def State.unitsUsed (s : State) (core : Nat) : List Nat :=
  (s.squads.filter (fun (p : Nat × Squad) => p.2.core == core && p.2.st != .retired)).flatMap (fun (p : Nat × Squad) => p.2.units)

/-- The free units of a core, lowest first: in this order squads take them. DESIGN CHOICE (log 61): any free units serve (R116). -/
def State.freeUnits (s : State) (core : Nat) : List Nat :=
  let used := s.unitsUsed core
  (List.range 256).filter (fun u => !used.contains u)

/-- The initial identifiers of a launch, by name (R181, R299). -/
def Launch.initialTx (k : Launch) (uid : Nat) : AList Tensor :=
  k.txWords.map (fun (p : Nat × List Word) => (p.1, { words := p.2, uid := uid + p.1 : Tensor }))

/-- The slots that a placement on a core needs: the crews, and the reserved slots where the launch has none there (R51, R306). -/
def State.slotNeed (s : State) (launch core : Nat) : Nat :=
  let p := (s.launch launch).pkt
  p.crews + (if ((s.core core).reserve launch).isSome then 0 else p.pairSlots + p.hslots)

/-- A core has room for a squad of a launch with `ids` identifiers: slots, allotment and identifier entries (R51, R116, R181). -/
def State.coreRoom (s : State) (launch core ids : Nat) : Bool :=
  s.inService core && decide (s.slotNeed launch core ≤ (s.openSlots core).length)
    && decide ((s.launch launch).pkt.allot / 4096 ≤ (s.freeUnits core).length) && decide (s.txUsed core + ids ≤ 64)

/-- The slots that a restore needs: one for each crew (R289). -/
def State.restoreNeed (s : State) (q : Nat) : Nat := (s.squad q).crews.length

/-- A core can take a held squad back (R289): on its own cluster, with the engine or the expand unit free where its image needs one. -/
def State.restoreRoom (s : State) (q core : Nat) : Bool :=
  let r := s.squad q
  r.st == .held && !r.pinned && decide (clusterOfCore core = r.cluster) && s.inService core
    && decide (s.restoreNeed q ≤ (s.openSlots core).length) && decide (r.allot / 4096 ≤ (s.freeUnits core).length)
    && decide (s.txUsed core + r.tx.length ≤ 64)
    && (r.savedEngine.isNone || (s.core core).engine.holder.isNone) && (r.savedSession.isNone || (s.core core).session.isNone)

/-- A core has room for an unplaced squad of a launch (R306). -/
def State.room (s : State) (launch core : Nat) : Bool :=
  s.coreRoom launch core (s.launch launch).txWords.length && (s.launch launch).freeFrame.isSome

/-! ### A crew -/

/-- A new crew as placement leaves it: registers 0 but for the words preloaded, every thread running at a header whose E is tested (R15,
R68, R303). -/
def newCrew (squad index slot core : Nat) (image : DWord) (entry : DWord) (stage : BitVec 4) (time : DWord) (words : List Word)
    (thread : Nat → Thread → Thread) : Crew :=
  let t : Thread := { pc := entry, arrival := .entry, stage := stage, time := time }
  let cr : Crew :=
    { squad := squad, index := index, slot := slot, resident := true, portIsland := islandOfCore core
      portCluster := clusterOfCore core % 12, portCore := core % 12, portSlot := slot, image := image
      threads := (List.range 32).map (fun l => thread l t) }
  cr.writeUs 0 words

/-- A slot holds a crew. -/
def State.takeSlot (s : State) (core slot crew : Nat) : State :=
  s.modCore core (fun k => { k with slots := k.slots.set slot (.resident crew) })

/-- Places new crews of a squad, one for each slot, numbered from the next number on. -/
def State.addCrews (s : State) (crews : List (Nat × Crew)) (core : Nat) : State :=
  crews.foldl (fun s c => (s.setCrew c.1 c.2).takeSlot core c.2.slot c.1) s

/-- Reserves the slots of a launch on a core at its first squad there, from the slots left (R306). A restore, which needs no more than the
slots of its crews (R289), reserves those of them that are left (log 20). -/
def State.reserveSlots (s : State) (launch core : Nat) (rest : List Nat) : State :=
  if ((s.core core).reserve launch).isSome then s
  else
    let p := (s.launch launch).pkt
    let r : Reserve := { launch := launch, pair := rest.take p.pairSlots, handler := (rest.drop p.pairSlots).take p.hslots }
    s.modCore core (fun k => { k with reserves := k.reserves ++ [r] })

/-- A cluster distributor's event record of a squad (R325). DESIGN CHOICE (log 82): of a squad that no distributor places, a pair crew's, a
handler's or the fault service's, neither its start nor its retirement is recorded. -/
def State.squadEvent (s : State) (q type : Nat) : State :=
  let r := s.squad q
  s.event (s.partOfCore r.core) 4 type r.core (s.crew (r.crews.headD 0)).slot r.launch r.index

/-- PLACES a squad of a launch on a core that has room for it (R51, R118, R181, R230, R302, R303, R306). Without room in the count table
nothing happens. -/
def State.placeSquad (s : State) (q core : Nat) : State :=
  let launch := (s.squad q).launch
  let k := s.launch launch
  let p := k.pkt
  match k.freeFrame, s.ctInc core launch p.stStage p.stTime with
  | some f, some (entry, s) =>
    let slots := s.openSlots core
    let mine := slots.take p.crews
    let ids := (List.range p.crews).map (s.nextId + ·)
    let crews := (ids.zip (mine.zipIdx)).map (fun c =>
      (c.1, newCrew q c.2.2 c.2.1 core (p.crewAddr f c.2.2) p.entry p.stStage p.stTime k.argWords (fun _ t => t)))
    let uid := s.nextId + p.crews
    let s := { s with nextId := uid + 64 }
    let s := s.modLaunch launch (fun k => { k with frames := insertSorted f k.frames })
    let s := s.reserveSlots launch core (slots.drop p.crews)
    let units := (s.freeUnits core).take (p.allot / 4096)
    let s := s.modSquad q (fun r => { r with
      core := core, home := core, st := .resident, out := false, frame := f, image := p.frameAddr f, trapVec := p.trapVec, crews := ids
      allot := p.allot, units := units, scratch := Memory.write [] 0 k.simgBytes, tx := k.initialTx uid
      caps := [{ stage := p.stStage, time := p.stTime, entry := entry }], placedAt := uid })
    (s.addCrews crews core).squadEvent q 2
  | _, _ => s

/-! ### Retirement (R53) -/

/-- Every asynchronous operation that a squad's threads issued has completed: those that R16 counts on a flag are, outstanding `ftwait`s and
peeks among them, unless the launch is ending (R285). -/
def State.squadQuiet (s : State) (q : Nat) : Bool :=
  s.ops.all (fun op => !((s.crew op.crew).squad == q)) && s.jobs.all (fun j => !(j.squad == q))
    && s.pairLaunches.all (fun (p : Nat × PairLaunch) => !(p.2.squad == q))
    && ((s.squad q).crews.all (fun c => (s.crew c).threads.all (fun t => t.parked.isNone && t.deferred.isEmpty)))
    && ((s.launch (s.squad q).launch).ending.isSome ||
      (s.squad q).crews.all (fun c => (s.crew c).waits.isEmpty && (s.crew c).threads.all (fun t => t.peeks.isEmpty)))
    && ((s.core (s.squad q).core).engine.release.all (fun w => !(w.squad == q)))

/-- A squad's threads have all exited, and all that they started has completed (R53): it may be held then, or on its way there. -/
def State.squadDone (s : State) (q : Nat) : Bool :=
  let r := s.squad q
  (r.st == .resident || r.st == .stopping || r.st == .held) && !r.crews.isEmpty &&
    r.crews.all (fun c => (s.crew c).retired && (s.crew c).tasks.isEmpty) && s.squadQuiet q

/-- The squads of a launch. -/
def State.squadsOf (s : State) (launch : Nat) : List Nat :=
  (s.squads.filter (fun (p : Nat × Squad) => p.2.launch == launch)).map Prod.fst

/-- A launch's part on a core. -/
def PairLaunch.part (p : PairLaunch) (core : Nat) : PairCore := (p.cores.find? (fun k => k.core == core)).getD { core := core }

/-- A pair needs nothing more of its core. -/
def Pair.settled (x : Pair) : Bool := x.st == .done || x.st == .waiting

/-- The part on a core is at its end: the core goes on to its next pair launch (R267). -/
def PairLaunch.over (p : PairLaunch) (core : Nat) : Bool := (p.part core).enumerated && (p.part core).pairs.all Pair.settled

/-- A pair launch of a launch has a part on a core that is not at its end. -/
def State.pairWorkOn (s : State) (launch core : Nat) : Bool :=
  s.pairLaunches.any (fun (p : Nat × PairLaunch) => p.2.launch == launch && p.2.cores.any (fun k => k.core == core) && !p.2.over core)

/-- Frees the reserved slots of a launch once its last squad has left the core and its last pair and handler crews there have retired
(R306). -/
def State.settleReserve (s : State) (launch core : Nat) : State :=
  if (s.squadsHere launch core).all (fun q => (s.squad q).out) && !s.pairWorkOn launch core then
    s.modCore core (fun k => { k with reserves := k.reserves.filter (fun r => r.launch != launch) })
  else s

/-- The capabilities that a squad still holds go: its threads' and its program's (R53, R239), and its queued tasks'. -/
def State.dropSquadCaps (s : State) (q : Nat) : State :=
  let r := s.squad q
  let s := r.caps.foldl (fun s c => s.dropCap q c.entry c.stage c.time) s
  let s := r.progCaps.foldl (fun s c => c.entries.foldl (fun s i => s.dropCap q i c.stage c.time) s) s
  r.tasks.foldl (fun s t => s.dropCap q t.cap t.stage t.time) s

/-- A message handler's capability is dropped as its crew retires (R313), once what the crew counted on its own core is acknowledged (R235). -/
def State.dropMessages (s : State) (q : Nat) : State :=
  let ms := s.messages.filter (fun m => m.running == some q)
  let s := { s with messages := s.messages.filter (fun m => m.running != some q) }
  ms.foldl (fun s m => (s.awaitAck m.launch m.target).addDrop m.core m.cap q) s

/-- RETIRES a squad: as one step its slots, units, identifier entries and frame become free, its engine and its session end, its
capabilities are dropped, and entries queued on its ports are discarded (R53). -/
def State.retireSquad (s : State) (q : Nat) : State :=
  let r := s.squad q
  let core := r.core
  let s := if r.kind = .ordinary then s.squadEvent q 3 else s
  let s := (s.dropSquadCaps q).dropMessages q
  let freeSlot (x : SlotState) : SlotState := match x with
    | .retiring c => if r.crews.contains c then .free else .retiring c
    | .evicting c => if r.crews.contains c then .free else .evicting c
    | x => x
  let s := { s with cores := s.cores.map (fun (p : Nat × Core) => (p.1, { p.2 with slots := p.2.slots.map freeSlot })) }
  let s := s.modCore core (fun k => { k with
    session := k.session.filter (fun x => x.squad != q)
    takes := k.takes.filter (fun w => w.squad != q)
    engine := if k.engine.holder = some q then {} else k.engine })
  let s := s.handEngine core
  let s := { s with flights := s.flights.filter (fun f => !r.crews.contains f.crew)
                    credits := s.credits.filter (fun f => !r.crews.contains f.crew) }
  let s := r.crews.foldl (fun s c => s.modCrew c (fun cr =>
    { cr with resident := false, waits := [], evictable := [], away := [], fetched := [], sliceIn := [], awayHeld := none
              threads := cr.threads.map (fun t => { t with ports := t.ports.map (fun p => { p with queue := [], peeks := [] }) }) })) s
  let s := s.modLaunch r.launch (fun k => { k with frames := k.frames.filter (· != r.frame) })
  let s := s.modSquad q (fun r => { r with
    st := .retired, units := [], scratch := [], scratchPoison := [], tx := [], caps := [], progCaps := [], tasks := []
    savedEngine := none, savedSession := none, savedTakes := [], pieces := [], saveHeld := none })
  s.settleReserve r.launch core

/-! ### Fault-service crews (R279) -/

/-- The crew in a core's fault-service slot. -/
def State.serviceCrew (s : State) (core : Nat) : Option Nat :=
  match (s.core core).slot 15 with
  | .resident c => if (s.squadOf c).kind = .service then some c else none
  | _ => none

/-- Starts the firmware's fault-service crew of a core (R279), where its slot is open. Its launch is firmware's own: it has no handle, and is
never bound or ended (log 38). DESIGN CHOICE (log 54): a cluster whose core 0 a degraded module does not expose has no such crew. -/
def State.startService (s : State) (core : Nat) : State :=
  if (s.serviceCrew core).isSome || !((s.core core).slot 15).available || s.offline.contains core then s
  else
    let k := s.nextId
    let q := k + 1
    let c := k + 2
    let s := { s with nextId := k + 3 }
    let pkt : Packet := { regs := 104, space := Config.serviceSpace, entry := Config.serviceEntry }
    let s := s.modLaunch k (fun _ => { part := s.partOfCore core, pkt := pkt, awaitStart := true, startCap := false })
    let s := s.modSquad q (fun _ => { launch := k, kind := .service, cluster := clusterOfCore core, core := core, home := core, st := .resident
                                      crews := [c] })
    (s.setCrew c (newCrew q 0 15 core 0#64 Config.serviceEntry 0#4 0#64 [] (fun _ t => t))).takeSlot core 15 c

/-- Takes a fault-service crew away: its threads exit, and its squad retires once all that they started has completed (R52, R53, log 38). -/
def State.stopService (s : State) (core : Nat) : State :=
  match s.serviceCrew core with
  | none => s
  | some c =>
    let q := (s.crew c).squad
    let s := (List.range (s.crew c).threads.length).foldl (fun s l => s.exitThread c l false) s
    if s.squadDone q then s.retireSquad q else s

/-- After a squad has retired: in hardware mode a fault-service slot that it leaves takes a new crew (R279, log 38). -/
def State.renewService (s : State) (q : Nat) : State :=
  let r := s.squad q
  if r.kind = .service ∧ (s.part (s.partOfCore r.core)).hwFault = true then s.startService r.core else s

/-- SQUAD_RETIRE (R53): a persistent squad retires only as its launch ends, once every squad of it is done. DESIGN CHOICE (log 55): its
squads then retire one by one, ahead of LAUNCH_END, as a launch ends when its last squad retires (R304). -/
def execSquadRetire (squad : Nat) (s : State) : Host.Outcome State Fault Refusal :=
  let k := s.launch (s.squad squad).launch
  let stays := k.pkt.persist && (s.squad squad).kind == .ordinary && k.ending.isNone &&
    !(k.allPlaced && (s.squadsOf (s.squad squad).launch).all (fun q => (s.squad q).st == .retired || s.squadDone q))
  .next (if s.squadDone squad && !stays then (s.retireSquad squad).renewService squad else s)

end Sys2Proof.Machine
end

