-- ==== Sys2Proof/Machine/Launches.lean ====
section
/-! DEFINITION. Launches: the packet and its acceptance (R299-R301), binding and placement (R305, R306), the end and its record (R304,
R328), and `lnch` (R309). -/

namespace Sys2Proof.Machine

/-! ### Reading and writing a space at system scope -/

/-- Bytes of a space, page by page; nothing where a page is not mapped or a line is poisoned (R301). -/
def State.readSpace (s : State) (part space : Nat) : Nat → Nat → Nat → Option (List Byte)
  | _, 0, _ => some []
  | _, _ + 1, 0 => none
  | va, n + 1, fuel + 1 =>
    let m := min (n + 1) (65536 - va % 65536)
    if canonical va = false then none
    else
      match s.pageTable part space va with
      | none => none
      | some e =>
        if s.mem.poisoned (e.phys va) m then none
        else (State.readSpace s part space (va + m) (n + 1 - m) fuel).map (s.mem.home.read (e.phys va) m ++ ·)

/-- Every page of a range of a space is writable (R301). -/
def State.writableRange (s : State) (part space : Nat) : Nat → Nat → Nat → Bool
  | _, 0, _ => true
  | _, _ + 1, 0 => false
  | va, n + 1, fuel + 1 =>
    let m := min (n + 1) (65536 - va % 65536)
    canonical va && (match s.pageTable part space va with
      | none => false
      | some e => e.w && State.writableRange s part space (va + m) (n + 1 - m) fuel)

/-- The part reads `n` bytes of a table. -/
def State.readTable (s : State) (part space va n : Nat) : Option (List Byte) := s.readSpace part space va n (n / 65536 + 2)

/-- The part may write a region. -/
def State.mayWrite (s : State) (part space va n : Nat) : Bool := s.writableRange part space va n (n / 65536 + 2)

/-! ### The packet (R299) -/

/-- A field of `n` bytes at an offset. -/
def byteField (bs : List Byte) (off n : Nat) : Nat := natOfBytes ((bs.drop off).take n)

/-- A 64-bit field. -/
def dField (bs : List Byte) (off : Nat) : DWord := BitVec.ofNat 64 (byteField bs off 8)

/-- The fields of a packet. -/
def Packet.ofBytes (bs : List Byte) : Packet :=
  let w0 := byteField bs 0 4
  let w1 := byteField bs 4 4
  let w3 := byteField bs 0xC 4
  let hi := byteField bs 0x70 4
  let st := byteField bs 0x74 4
  { crews := bitsOf w0 28 4 + 1, producer := bitsOf w0 24 4, regs := bitsOf w0 17 7, pairSlots := bitsOf w0 12 5
    hslots := bitsOf w0 8 4, prio := bitsOf w0 5 3, persist := bitsOf w0 4 1 = 1, sys := bitsOf w0 3 1 = 1
    sqpc := bitsOf w1 16 16 + 1, cpb := bitsOf w1 12 2 + 1, bps := bitsOf w1 10 2 + 1, spans := bitsOf w1 8 2 + 1
    scratch := bitsOf (byteField bs 8 4) 0 21, space := bitsOf w3 16 16, stStage := BitVec.ofNat 4 (bitsOf w3 12 4)
    entry := dField bs 0x10, stTime := dField bs 0x18, trapVec := dField bs 0x20, sumTab := dField bs 0x28, txTab := dField bs 0x30
    txMask := dField bs 0x38, hTab := dField bs 0x40, simg := dField bs 0x48, flist := dField bs 0x50, imgBase := dField bs 0x58
    args := dField bs 0x60, simgLen := byteField bs 0x68 4, flCap := byteField bs 0x6C 4, nHand := bitsOf hi 16 16
    nImg := bitsOf hi 0 16, stMask := BitVec.ofNat 16 (bitsOf st 16 16), nArgs := bitsOf st 0 8, compl := dField bs 0x78 }

/-- The reserved bits of a packet are 0. -/
def packetReserved (bs : List Byte) : Bool :=
  bitsOf (byteField bs 0 4) 0 3 == 0 && bitsOf (byteField bs 4 4) 14 2 == 0 && bitsOf (byteField bs 4 4) 0 8 == 0
    && bitsOf (byteField bs 8 4) 21 11 == 0 && bitsOf (byteField bs 0xC 4) 0 12 == 0 && bitsOf (byteField bs 0x74 4) 8 8 == 0

/-- The fields of a packet lie within their limits (R299, R301). -/
def Packet.limits (p : Packet) : Bool :=
  decide (p.producer < p.crews ∧ 1 ≤ p.regs ∧ p.regs ≤ 104 ∧ p.pairSlots ≤ 16 ∧ p.scratch ≤ 0x100000 ∧ p.bps ≠ 4)
    && p.entry.toNat % 4 == 0 && decide (1 ≤ p.nImg ∧ p.nHand ≤ 256 ∧ p.nArgs ≤ 160) && p.imgBase.toNat % 65536 == 0
    && p.simgLen % 4 == 0 && p.compl.toNat % 16 == 0 && p.stMask.getLsbD p.stStage.toNat

/-- The initial identifiers that a packet names. -/
def Packet.txNames (p : Packet) : List Nat := bitsBelow 64 p.txMask.toNat

/-- A SUMTAB entry keeps the rules of R228. -/
def sumEntryOk (p : Packet) (a b : Nat) (w : Nat) : Bool :=
  bitsOf w 18 13 == 0 &&
    (if a = b then w == 2 ^ 31
     else if bitsOf w 31 1 = 0 then w == 0
     else (bitsOf w 0 16 != 0 || bitsOf w 16 2 == 0) && p.stMask.getLsbD a && p.stMask.getLsbD b)

/-- The tables of a packet as bytes; nothing for one that cannot be read. -/
structure Tables where
  sums : Option (List Byte)
  hand : Option (List Byte)
  tx : Option (List Byte)
  simg : Option (List Byte)
  args : Option (List Byte)
deriving DecidableEq, Repr

/-- Reads the tables that a packet names. -/
def State.readTables (s : State) (part : Nat) (p : Packet) : Tables :=
  let get (a : DWord) (n : Nat) : Option (List Byte) := s.readTable part p.space a.toNat n
  { sums := if p.sumTab = 0#64 then some [] else get p.sumTab 1024
    hand := get p.hTab (16 * p.nHand)
    tx := get p.txTab (128 * p.txNames.length)
    simg := get p.simg p.simgLen
    args := get p.args (4 * p.nArgs) }

/-- Every table could be read. -/
def Tables.read (t : Tables) : Bool := t.sums.isSome && t.hand.isSome && t.tx.isSome && t.simg.isSome && t.args.isSome

/-- The words of bytes. -/
def wordsOfBytes (bs : List Byte) (n : Nat) : List Word := (List.range n).map (fun i => BitVec.ofNat 32 (byteField bs (4 * i) 4))

/-- The handlers of a table (R300). -/
def handlersOf (bs : List Byte) (n : Nat) : List Handler :=
  (List.range n).map (fun i =>
    let w := byteField bs (16 * i + 8) 4
    { pc := dField bs (16 * i), msg := bitsOf w 17 1 = 1, task := bitsOf w 16 1 = 1, sunits := bitsOf w 8 8, hregs := bitsOf w 0 8 })

/-- The descriptors of the initial identifiers. -/
def Packet.descriptors (p : Packet) (bs : List Byte) : List (Nat × List Word) :=
  p.txNames.zipIdx.map (fun n => (n.1, wordsOfBytes (bs.drop (128 * n.2)) 32))

/-- The rules on the contents of the tables that REASON 1 covers (R301). -/
def Packet.tablesOk (p : Packet) (t : Tables) : Bool :=
  (match t.sums with
    | some bs => bs.isEmpty || (List.range 256).all (fun i => sumEntryOk p (i / 16) (i % 16) (byteField bs (4 * i) 4))
    | none => true) &&
  (match t.hand with
    | some bs => (List.range p.nHand).all (fun i =>
        byteField bs (16 * i) 8 % 4 == 0 && bitsOf (byteField bs (16 * i + 8) 4) 18 14 == 0 && byteField bs (16 * i + 12) 4 == 0)
    | none => true) &&
  (match t.tx with
    | some bs => (p.descriptors bs).all (fun d =>
        bitsOf (d.2.getD 0 0#32).toNat 14 18 == 0 && d.2.getD 1 0#32 == 0#32 && d.2.getD 15 0#32 == 0#32)
    | none => true)

/-- The islands of a partition (R317). -/
def State.islandsOf (s : State) (part : Nat) : List Nat :=
  match s.split with
  | .one => [0, 1, 2, 3]
  | .two => [2 * part, 2 * part + 1]
  | .four => [part]
  | .eight => [part / 2]

/-- The stacks of a partition on each of its islands (R317). -/
def State.stacksOf (s : State) (part : Nat) : List Nat :=
  match s.split with
  | .eight => if part % 2 = 0 then [0] else [1, 2]
  | _ => [0, 1, 2]

/-- The clusters of a stack of an island. -/
def stackClusters (island stack : Nat) : List Nat := (List.range 4).map (fun i => 12 * island + 4 * stack + i)

/-- The slots that a first squad of a launch needs on its core (R306). -/
def Packet.slots (p : Packet) : Nat := p.crews + p.pairSlots + p.hslots

/-- The slots of a core that placement may use at any time: all, but for a fault-service slot (R279). -/
def State.slotCount (s : State) (core : Nat) : Nat := ((List.range 16).filter (fun n => !s.serviceSlot core n)).length

/-- The clusters of a stack in which an exposed core has the slots for a squad of a launch (R11, R322). -/
def State.clustersFor (s : State) (p : Packet) (island stack : Nat) : List Nat :=
  (stackClusters island stack).filter (fun c =>
    (coresIn c).any (fun core => !s.offline.contains core && decide (p.slots ≤ s.slotCount core)))

/-- The stacks of an island that have clusters for a band of a launch. -/
def State.stacksFor (s : State) (part : Nat) (p : Packet) (island : Nat) : List Nat :=
  (s.stacksOf part).filter (fun k => decide (p.cpb ≤ (s.clustersFor p island k).length))

/-- The islands of a partition that have stacks for a span of a launch. -/
def State.islandsFor (s : State) (part : Nat) (p : Packet) : List Nat :=
  (s.islandsOf part).filter (fun i => decide (p.bps ≤ (s.stacksFor part p i).length))

/-- The shape can be placed in the partition (R11, R301). DESIGN CHOICE (log 54): a cluster counts only if a core
that it exposes has slots enough for a squad of the launch, the fault-service slot aside, and an island or a stack only if its clusters can take
a span or a band. -/
def State.shapeOk (s : State) (part : Nat) (p : Packet) : Bool :=
  decide (p.spans ≤ (s.islandsFor part p).length)

/-- The regions that the launch writes are writable (R301). -/
def State.regionsOk (s : State) (part : Nat) (p : Packet) : Bool :=
  s.mayWrite part p.space p.imgBase.toNat (p.nImg * p.frameBytes)
    && (p.flist == 0#64 || s.mayWrite part p.space p.flist.toNat (128 + 48 * p.flCap))
    && (p.compl == 0#64 || s.mayWrite part p.space p.compl.toNat 16)

/-- The lowest REASON for which a launch is refused; 0 where there is none (R301). `sysOk`: SYS may be set (R309). -/
def State.refusal (s : State) (part : Nat) (p : Packet) (reserved sysOk : Bool) (t : Tables) : Nat :=
  if !(reserved && p.limits && p.tablesOk t && (sysOk || !p.sys)) then 1
  else if !s.shapeOk part p then 2
  else if p.allot < p.simgLen then 3
  else if !(t.read && s.regionsOk part p) then 4
  else if !((p.descriptors (t.tx.getD [])).all (fun d =>
      let x : Tensor := { words := d.2 }
      x.legal && x.within p.allot)) then 5
  else 0

/-! ### Acceptance (R301, R304, R309) -/

/-- The completion record (R304). -/
def completionRecord (end_ reason handle fcount fover : Nat) : List Byte :=
  bytesOfNat 4 (2 ^ 31 + end_ * 2 ^ 28 + reason * 2 ^ 24 + handle) ++ bytesOfNat 4 fcount ++ bytesOfNat 4 fover ++ bytesOfNat 4 0

/-- A write of the chip distributor in a space, through the page tables. -/
def State.chipWrite (s : State) (part space : Nat) (va : Nat) (bs : List Byte) : DevWrite :=
  if canonical va = false then .denied s
  else
    match s.pageTable part space va with
    | none => .held s
    | some e => if e.w then .done (s.writeSys (e.phys va) bs) else .denied s

/-- Ends the `lnch` that submitted a packet with its status (R309). -/
def State.endLnch (s : State) (sub : Submission) (status : Nat) : State :=
  match sub.op.bind s.opAt with
  | none => s
  | some op => (s.land op [BitVec.ofNat 32 (2 ^ 31 + status)]).endOp op

/-- A handle that no running launch of the partition has, from one on (R304). -/
def State.freeHandle (s : State) (part : Nat) : Nat → BitVec 16 → BitVec 16
  | 0, h => h
  | n + 1, h => if h = 0#16 ∨ (s.byHandle part h).isSome then State.freeHandle s part n (h + 1#16) else h

/-- Refuses a packet: its record is written at once, and nothing is held (R301, R304). -/
def State.refuse (s : State) (sub : Submission) (p : Packet) (reason : Nat) : State :=
  let s : State := if p.compl = 0#64 then s
    else (s.chipWrite sub.part p.space p.compl.toNat (completionRecord 1 reason 0 0 0)).state
  (s.event sub.part 2 1 0 0 0 reason).endLnch sub (2 ^ 28 + reason * 2 ^ 24)

/-- Clears the header of a launch's fault list, whose words are 0 from acceptance on (R284); its pages were found writable (R301). -/
def State.clearHeader (s : State) (part : Nat) (p : Packet) : State :=
  let va := p.flist.toNat
  let n := min 128 (65536 - va % 65536)
  let put (s : State) (va n : Nat) : State :=
    if n = 0 then s else (s.chipWrite part p.space va (List.replicate n 0#8)).state
  if p.flist = 0#64 then s else put (put s va n) (va + n) (128 - n)

/-- Accepts a packet (R301, R303, R304). -/
def State.accept (s : State) (sub : Submission) (p : Packet) (t : Tables) : State :=
  let h := s.freeHandle sub.part 65536 (s.part sub.part).nextHandle
  let sums := (List.range 256).foldl (fun (m : Store 32) i => m.put i (BitVec.ofNat 32 (byteField (t.sums.getD []) (4 * i) 4))) []
  let k : Launch :=
    { handle := h, part := sub.part, pkt := p, sums := sums, startSums := sums, handlers := handlersOf (t.hand.getD []) p.nHand
      simgBytes := t.simg.getD [], txWords := p.descriptors (t.tx.getD []), argWords := wordsOfBytes (t.args.getD []) p.nArgs
      awaitStart := !(s.part sub.part).hwSched, accepted := s.nextId }
  let id := s.nextId
  let s := { s with nextId := id + 1, launches := s.launches.set id k }
  let s := s.modPart sub.part (fun x => { x with nextHandle := h + 1#16 })
  ((s.clearHeader sub.part p).event sub.part 2 0 0 0 id 0).endLnch sub h.toNat

/-- The 128 bytes of a submitted packet (R299, R318). -/
def State.packetBytes (s : State) (sub : Submission) : Option (List Byte) :=
  match sub.space with
  | some sp => s.readTable sub.part sp sub.addr.toNat 128
  | none => if s.mem.poisoned sub.addr.toNat 128 then none else some (s.mem.home.read sub.addr.toNat 128)

/-- The queue that is served next: from the round-robin place on, the first with a submission (R308). -/
def State.nextQueue (s : State) (part : Nat) : Option Nat :=
  ((List.range 8).map (fun i => ((s.part part).rr + i) % 8)).find? (fun q =>
    s.submissions.any (fun u => u.part == part && u.queue == some q) && !((s.part part).queues.getD q {}).err)

/-- A submission may be read now: a queue's in ring order and in turn (R308), a device's once every earlier access of the issuing lane is
visible at system scope (R309). -/
def State.submissionReady (s : State) (u : Submission) : Bool :=
  match u.queue with
  | some q => s.nextQueue u.part == some q &&
      (s.submissions.find? (fun v => v.part == u.part && v.queue == some q)).map Submission.id == some u.id
  | none =>
    match u.op.bind s.opAt with
    | none => true
    | some op =>
      s.ops.all (fun e => !(e.crew == op.crew && decide (e.id < op.id) && e.lanes.contains (op.lanes.headD 0)
        && (e.kind.reads || e.kind.writes)))
      && s.mem.appliedBefore (s.crew op.crew).squad s.mem.seq 0 && s.mem.canWriteAll (s.islandOf op.crew)

/-- LAUNCH_ACCEPTANCE (R301). -/
def execLaunchAcceptance (submission : Nat) (s : State) : Host.Outcome State Fault Refusal :=
  .next (match s.submissions.find? (fun u => u.id == submission) with
    | none => s
    | some u =>
      if !s.submissionReady u then s
      else
        let s := { s with submissions := s.submissions.filter (fun v => v.id != submission) }
        let s : State := match u.queue with
          | some q => s.modPart u.part (fun p =>
              let qs := p.queues.modify q (fun x => { x with head := x.head + 1#32 })
              { p with rr := (q + 1) % 8, queues := qs })
          | none => s
        match s.packetBytes u with
        | none => s.refuse u {} 4
        | some bs =>
          let p := Packet.ofBytes bs
          let t := s.readTables u.part p
          let r := s.refusal u.part p (packetReserved bs) u.sys t
          if r = 0 then s.accept u p t else s.refuse u p r)

/-- LNCH (R309). -/
def execLnch (d a : UOp) (s : State) : Host.Outcome State Fault Refusal :=
  withRun s (fun x s =>
    let addr := x.cr.readUD a
    electGate (electDstOk d && a.pair?.isSome) [(addr.toNat % 64 == 0, .misaligned)] d [] x s (fun s =>
      let id := s.nextId
      let s := (s.supersede x.c d.reg?.toList).startOp
        (x.newOp s .lnch x.lanes (x.electFlag d) (.uni d.reg?.toList) addr.toNat 4 0 [])
      let u : Submission := { id := s.nextId, part := s.partOfCore (s.coreOf x.c), queue := none, space := some (s.spaceOf x.c)
                              addr := addr, sys := (s.launchOf x.c).pkt.sys, op := some id }
      ({ s with nextId := s.nextId + 1, submissions := s.submissions ++ [u] }).advance x.c 1))

/-! ### Binding and handing down (R305, R306) -/

/-- Puts a number before those with fewer free slots, the lowest first on ties. -/
def insertBest (free : Nat → Nat) (x : Nat) : List Nat → List Nat
  | [] => [x]
  | y :: ys => if free y < free x ∨ (free y = free x ∧ x < y) then x :: y :: ys else y :: insertBest free x ys

/-- Numbers by most free slots, the lowest on ties. -/
def byFree (free : Nat → Nat) (l : List Nat) : List Nat := l.foldr (insertBest free) []

/-- The free slots of a cluster's exposed cores. -/
def State.clusterFree (s : State) (cluster : Nat) : Nat :=
  ((coresIn cluster).map (fun k => if s.inService k then s.freeSlots k else 0)).sum

/-- The clusters that a launch's cohorts are bound to, by cohort index (R305). -/
def State.bindCohorts (s : State) (part : Nat) (p : Packet) : List Nat :=
  let stackFree (i k : Nat) : Nat := ((stackClusters i k).map s.clusterFree).sum
  let held := s.stacksOf part
  let islands := (byFree (fun i => (held.map (stackFree i)).sum) (s.islandsFor part p)).take p.spans
  islands.flatMap (fun i => ((byFree (stackFree i) (s.stacksFor part p i)).take p.bps).flatMap (fun k =>
    (byFree s.clusterFree (s.clustersFor p i k)).take p.cpb))

/-- Hands squads down in halves (R306): what each core gets. -/
def handDown : List Nat → List Nat → List (Nat × List Nat)
  | [], _ => []
  | [c], r => if r.isEmpty then [] else [(c, r)]
  | c :: cs, r => if r.isEmpty then [] else (c, r.take ((r.length + 1) / 2)) :: handDown cs (r.drop ((r.length + 1) / 2))

/-- Binds a launch: its squads exist from now on, not handed to a core yet. -/
def State.bind (s : State) (launch : Nat) : State :=
  let k := s.launch launch
  let p := k.pkt
  let cohorts := s.bindCohorts k.part p
  let base := s.nextId
  let n := p.sqpc * cohorts.length
  let new := (List.range n).map (fun i =>
    (base + i, { launch := launch, index := i, cluster := cohorts.getD (i / p.sqpc) 0 : Squad }))
  let un := (List.range cohorts.length).map (fun c => (c, (List.range p.sqpc).map (fun i => base + c * p.sqpc + i)))
  let s := { s with nextId := base + n, squads := new.foldl (fun (m : AList Squad) (x : Nat × Squad) => m.set x.1 x.2) s.squads }
  s.modLaunch launch (fun k => { k with bound := true, cohorts := cohorts, unhanded := un })

/-- Hands down the squads of the cohorts whose cluster has a core that can hold one (R306). -/
def State.handAll (s : State) (launch : Nat) : State :=
  let k := s.launch launch
  k.unhanded.foldl (fun s (u : Nat × List Nat) =>
    let cluster := k.cohorts.getD u.1 0
    let can := (coresIn cluster).filter (s.room launch)
    if can.isEmpty then s
    else
      s.modLaunch launch (fun k => { k with
        unhanded := k.unhanded.del u.1
        ranges := (handDown can u.2).foldl (fun (r : AList (List Nat)) h => r.set h.1 (((r.find h.1).getD []) ++ h.2)) k.ranges })) s

/-- A launch is running: accepted, released by the driver, and not ending. -/
def State.launchLive (s : State) (launch : Nat) : Bool :=
  (s.launches.find launch).isSome && !(s.launch launch).awaitStart && (s.launch launch).ending.isNone && !(s.launch launch).ended

/-- DISTRIBUTOR_BINDING (R305). -/
def execDistributorBinding (launch : Nat) (s : State) : Host.Outcome State Fault Refusal :=
  .next (if !s.launchLive launch then s
    else (if (s.launch launch).bound then s else s.bind launch).handAll launch)

/-! ### Placement (R306, R307) -/

/-- The rank of a squad that waits for a core: priority, held squads first, order of acceptance, index (R307). A lower list comes first. -/
def State.waitRank (s : State) (q : Nat) : List Nat :=
  let r := s.squad q
  let k := s.launch r.launch
  [7 - k.pkt.prio, if r.st = .held then 0 else 1, k.accepted, r.index]

/-- The head of a launch's range on a core. -/
def Launch.headOn (k : Launch) (core : Nat) : Option Nat := ((k.ranges.find core).getD []).head?

/-- A held squad's launch still runs, if only to let what its squads started complete. -/
def State.launchThere (s : State) (launch : Nat) : Bool :=
  (s.launches.find launch).isSome && !(s.launch launch).awaitStart && !(s.launch launch).ended

/-- The next squad of a launch's cohort on a cluster that is handed to no core yet (R306). -/
def Launch.unhandedIn (k : Launch) (cluster : Nat) : Option Nat :=
  (k.unhanded.find? (fun (u : Nat × List Nat) => k.cohorts.getD u.1 0 == cluster)).bind (fun u => u.2.head?)

/-- A core can steal squads of a launch: room, and nothing unplaced in its own range (R306). -/
def State.canSteal (s : State) (launch core : Nat) : Bool :=
  (((s.launch launch).ranges.find core).getD []).isEmpty && s.room launch core

/-- The core of a cluster whose unplaced part is largest, the lowest on ties (R306). -/
def Launch.largest (k : Launch) (cluster : Nat) : Option (Nat × List Nat) :=
  (k.ranges.filter (fun (p : Nat × List Nat) => clusterOfCore p.1 == cluster && !p.2.isEmpty)).foldl (fun (b : Option (Nat × List Nat)) p =>
    match b with
    | none => some p
    | some y => if y.2.length < p.2.length then some p else some y) none

/-- What a thief takes of an unplaced part: its upper half (R306). -/
def upperHalf (part : List Nat) : List Nat := part.drop (part.length - (part.length + 1) / 2)

/-- The squad of a launch that a core may place next: the head of its range there, of its cohort before the hand-down, or of what the core
could steal (R306). -/
def State.nextFor (s : State) (launch core : Nat) : Option Nat :=
  let k := s.launch launch
  let cl := clusterOfCore core
  if !(s.launchLive launch && s.room launch core) then none
  else
    match k.headOn core, k.unhandedIn cl with
    | some q, _ => some q
    | none, some q => some q
    | none, none => (k.largest cl).bind (fun v => (upperHalf v.2).head?)

/-- The squads that could go to a core now: unplaced ones that it may place next, and held ones. -/
def State.candidates (s : State) (core : Nat) : List Nat :=
  s.launches.filterMap (fun (p : Nat × Launch) => s.nextFor p.1 core) ++
  (s.squads.filter (fun (p : Nat × Squad) => p.2.st == .held && s.launchThere p.2.launch && s.restoreRoom p.1 core)).map Prod.fst

/-- A squad waits for a core (R307). -/
def State.waiting (s : State) (q : Nat) : Bool :=
  let r := s.squad q
  (s.squads.find q).isSome && ((r.st == .unplaced && s.launchLive r.launch) || (r.st == .held && !r.pinned && s.launchThere r.launch))

/-- A core that a distributor frees for a squad goes to it, or to another unplaced squad of its launch, before any other (R307). -/
def State.claimAllows (s : State) (q core : Nat) : Bool :=
  match (s.core core).claim with
  | none => true
  | some w => w == q || !s.waiting w ||
      ((s.squad w).st == .unplaced && (s.squad q).st == .unplaced && (s.squad w).launch == (s.squad q).launch)

/-- A squad comes before every other squad that could go to a core (R307). -/
def State.firstIn (s : State) (q core : Nat) : Bool :=
  let cs := (s.candidates core).filter (fun c => s.claimAllows c core)
  cs.contains q && cs.all (fun c => !decide (s.waitRank c < s.waitRank q))

/-- A core is no longer kept for a squad. -/
def State.unclaim (s : State) (core : Nat) : State := s.modCore core (fun k => { k with claim := none })

/-- SQUAD_PLACED (R306). -/
def execSquadPlaced (squad core : Nat) (s : State) : Host.Outcome State Fault Refusal :=
  let launch := (s.squad squad).launch
  .next (if (s.launch launch).headOn core == some squad && s.firstIn squad core then
      let s' := s.placeSquad squad core
      if (s'.squad squad).st = .resident then
        (s'.unclaim core).modLaunch launch (fun k => { k with ranges := k.ranges.set core (((k.ranges.find core).getD []).drop 1) })
      else s
    else s)

/-- The squads of a launch resident on a core, pair and handler crews aside. -/
def State.heldHere (s : State) (launch core : Nat) : Nat :=
  ((s.squadsHere launch core).filter (fun q => (s.squad q).kind == .ordinary)).length

/-- SQUAD_STEAL (R306, R325): thieves are served one at a time, those that hold fewest squads first, once what earlier steals moved is placed. -/
def execSquadSteal (launch thief : Nat) (s : State) : Host.Outcome State Fault Refusal :=
  let k := s.launch launch
  let cl := clusterOfCore thief
  let cores := coresIn cl
  let key (c : Nat) : Nat := 1000 * s.heldHere launch c + c
  .next (if s.launchLive launch && k.cohorts.contains cl && s.canSteal launch thief
      && cores.all (fun c => !(s.canSteal launch c && decide (key c < key thief)))
      && cores.all (fun c => !((k.headOn c).isSome && s.room launch c)) then
      match k.largest cl with
      | none => s
      | some (v, part) =>
        let took := upperHalf part
        let s := s.modLaunch launch (fun k => { k with ranges := (k.ranges.set v (part.take (part.length - took.length))).set thief took })
        took.foldl (fun s q => s.event (s.partOfCore thief) 4 6 thief 0 launch (s.squad q).index) s
    else s)

/-! ### The end of a launch (R304) -/

/-- The record of a thread that the end of its launch kills: its parking cause, or none that spec/ names (log 2). -/
def State.endRecord (s : State) (c l : Nat) : FaultRec :=
  match (s.thread c l).parked with
  | some p => s.faultRec c l p.cause p.addr p.defer p.eng true
  | none => { s.faultRec c l .trap 0#64 false false true with cause := BitVec.ofNat 6 (Config.choice s.fresh) }

/-- Kills every live thread of a crew (R285). -/
def State.killCrew (s : State) (c : Nat) : State :=
  (List.range (s.crew c).threads.length).foldl (fun s l =>
    if (s.thread c l).st = .exited then s
    else ({ s with fresh := s.fresh + 1 }).killThread c l (s.endRecord c l)) s

/-- The pair launches of a launch that ends early create no further pair, and a pair without a thread yet is killed as the threads are (R285,
log 37). -/
def State.stopPairs (s : State) (launch : Nat) : State :=
  let kill (x : Pair) : Pair := if x.st = .accepted then { x with st := .killed } else x
  let stop (p : PairLaunch) : PairLaunch :=
    { p with stop := true, cores := p.cores.map (fun k => { k with pairs := k.pairs.map kill }) }
  { s with pairLaunches := s.pairLaunches.map (fun (p : Nat × PairLaunch) => (p.1, if p.2.launch = launch then stop p.2 else p.2)) }

/-- ENDS a launch before its time with an END code: every live thread is killed, squads not placed are given up, and pulls that wait end
(R285, R304). -/
def State.endLaunch (s : State) (launch end_ : Nat) : State :=
  if !((s.launch launch).ending.isNone && !(s.launch launch).ended && (s.launches.find launch).isSome) then s
  else
    let s := (s.stopPairs launch).modLaunch launch (fun k => { k with ending := some end_, ranges := [], unhanded := [], startCap := false })
    let qs := s.squadsOf launch
    let s := qs.foldl (fun s q =>
      if (s.squad q).st = .unplaced then s.modSquad q (fun r => { r with st := .retired })
      else (s.squad q).crews.foldl State.killCrew s) s
    let mine (op : Op) : Bool := (match op.kind with
      | .qpull _ => true
      | _ => false) && qs.contains (s.crew op.crew).squad
    (s.ops.filter mine).foldl State.endOp s

/-- Every squad of a launch has retired, its writes are applied in all four views, and its fault list is final (R304). -/
def State.launchOver (s : State) (launch : Nat) : Bool :=
  let k := s.launch launch
  let qs := s.squadsOf launch
  (s.launches.find launch).isSome && !k.ended && (k.allPlaced || k.ending.isSome) && qs.all (fun q => (s.squad q).st == .retired)
    && qs.all (fun q => s.mem.appliedBefore q s.mem.seq 0) && s.listEntries.all (fun e => e.launch != launch)
    && s.messages.all (fun m => m.launch != launch)

/-- Writes the completion record of a launch that has ended, or holds it (R304, R328). -/
def State.writeCompletion (s : State) (launch : Nat) : State :=
  let k := s.launch launch
  if k.pkt.compl = 0#64 then s
  else
    match s.chipWrite k.part k.pkt.space k.pkt.compl.toNat
      (completionRecord (k.ending.getD 0) 0 k.handle.toNat k.fcount (min k.fover 0xFFFFFFFF)) with
    | .done s => s.modLaunch launch (fun k => { k with complHeld := false })
    | .held s => (s.modLaunch launch (fun k => { k with complHeld := true })).addWalk (.compl launch)
    | .denied s => s.modLaunch launch (fun k => { k with complHeld := false })

/-- Unbinds the cell tables of a launch: every sweep and entry is discarded (R244). -/
def State.dropTables (s : State) (launch : Nat) : State :=
  { s with clusters := s.clusters.map (fun (p : Nat × Cluster) =>
      (p.1, { p.2 with tables := p.2.tables.map (fun t => if t.bound = some launch then {} else t) })) }

/-- LAUNCH_END (R304). -/
def execLaunchEnd (launch : Nat) (s : State) : Host.Outcome State Fault Refusal :=
  let k := s.launch launch
  .next (if s.launchOver launch then
      let s := (s.dropTables launch).modLaunch launch (fun k => { k with ended := true })
      let s := s.event k.part 2 7 0 0 launch (k.ending.getD 0)
      s.writeCompletion launch
    else s)

end Sys2Proof.Machine
end

