-- ==== Sys2Proof/Machine/Tasks.lean ====
section
/-! DEFINITION. Task queues, steals and active messages (R290, R291, R310-R313), and the reset of a core (R291). -/

namespace Sys2Proof.Machine

/-! ### Entries (R310) -/

/-- HANDLER of an entry. -/
def TaskEntry.handler (t : TaskEntry) : Nat := bitsOf (t.words.getD 0 0#32).toNat 16 16

/-- STEAL of an entry. -/
def TaskEntry.steal (t : TaskEntry) : Bool := bitsOf (t.words.getD 0 0#32).toNat 1 1 = 1

/-- IDEM of an entry. -/
def TaskEntry.idem (t : TaskEntry) : Bool := bitsOf (t.words.getD 0 0#32).toNat 0 1 = 1

/-- The entries of one queue, oldest first, those offered to a thief aside. -/
def Squad.queue (q : Squad) (n : Nat) : List TaskEntry := q.tasks.filter (fun t => t.queue == n && t.offer.isNone)

/-- The persistent squads of a squad's cohort that are resident, in ascending `sr.squad`: a cluster holds one cohort of a launch (R305), which
is that of the pair crews and handlers on it too (log 34). -/
def State.cohortSquads (s : State) (q : Nat) : List Nat :=
  let r := s.squad q
  (s.squads.filter (fun (p : Nat × Squad) =>
    p.2.launch == r.launch && p.2.kind == .ordinary && p.2.st == .resident && p.2.cluster == r.cluster)).map Prod.fst

/-- The resident squad of the cohort with the fewest entries in a queue, the lowest index on ties (R311). -/
def State.fewest (s : State) (q n : Nat) : Option Nat :=
  let size (i : Nat) : Nat := ((s.squad i).tasks.filter (fun t => t.queue == n)).length
  (s.cohortSquads q).foldl (fun (b : Option Nat) i =>
    match b with
    | none => some i
    | some y => if size i < size y then some i else some y) none

/-! ### qpush (R311) -/

/-- The handler of an entry may be enqueued (R311). -/
def Launch.taskOk (k : Launch) (h : Nat) : Bool :=
  match k.handlers[h]? with
  | none => false
  | some x => h != 0xFFFF && x.task && decide (x.hregs ≤ 104 ∧ x.sunits ≤ 16)

/-- The squad to which a run pushes: its own, or with ANY the one with the fewest entries. A pair crew or handler has no queues of its own (R310,
log 34). -/
def State.pushTo (s : State) (x : Issuer) (v : Nat) : Option Nat :=
  if bitsOf v 3 1 = 1 then s.fewest x.cr.squad (v % 8)
  else if (s.squad x.cr.squad).kind = .ordinary then some x.cr.squad
  else none

/-- The status of a push (R311). DESIGN CHOICE (log 34): where no squad with queues is there to take it, that of a full one. -/
def State.pushStatus (s : State) (k : Launch) (e : TaskEntry) (to_ : Option Nat) : Nat :=
  if !k.pkt.persist then 3
  else if !k.taskOk e.handler then 1
  else
    match to_ with
    | none => 2
    | some q => if 64 ≤ (s.squad q).tasks.length then 2 else 0

/-- Appends an entry to a squad's queue, where it is counted in its core's table: what another table counts for the pusher stays until that is
acknowledged (R235). -/
def State.push (s : State) (x : Issuer) (to_ : Nat) (e : TaskEntry) : State :=
  let core := (s.squad to_).core
  match s.ctInc core (s.launchIdOf x.c) e.stage e.time with
  | none => s
  | some (i, s) =>
    let s := s.modSquad to_ (fun q => { q with tasks := q.tasks ++ [{ e with cap := i }] })
    if to_ = x.cr.squad then s else s.awaitAck (s.launchIdOf x.c) core

/-- QPUSH (R311). -/
def execQpush (d a b : UOp) (s : State) : Host.Outcome State Fault Refusal :=
  withRun s (fun x s =>
    let v := (x.cr.readU a).toNat
    let ws := (x.cr.block b 8 152).getD []
    let e : TaskEntry := { queue := v % 8, words := ws, cap := 0 }
    let w0 := (ws.getD 0 0#32).toNat
    let g := s.runTime x
    let launch := s.launchIdOf x.c
    let to_ := s.pushTo x v
    let core := (s.squad (to_.getD x.cr.squad)).core
    let st := s.pushStatus (s.launchOf x.c) e to_
    electGate (electDstOk d && uSrcOk 1 a && !ws.isEmpty)
      [(decide (v < 16) && bitsOf w0 2 6 == 0 && decide (bitsOf w0 8 8 < 16), .illegalOperand),
        (s.incOk (s.coreOf x.c) launch g.1 g.2 e.stage e.time, .timeOrder)] d
      [(st == 0 && !s.ctRoom core launch e.stage e.time, .countTable core launch e.stage e.time)] x s (fun s =>
      let s : State := if st = 0 then (to_.map (fun q => s.push x q e)).getD s else s
      ((s.noteEffect x.c).statusNow x d (BitVec.ofNat 32 (2 ^ 31 + st))).advance x.c (1 + a.lits.length)))

/-! ### qpull (R312) -/

/-- The queues of a mask, lowest first. -/
def maskQueues (mask : Nat) : List Nat := bitsBelow 8 mask

/-- The entry that a pull takes in its own squad: the head of the lowest nonempty queue of its mask. -/
def Squad.ownTask (q : Squad) (mask : Nat) : Option TaskEntry := (maskQueues mask).findSome? (fun n => (q.queue n).head?)

/-- The task of a crew that pulls ends: the threads of the run hold nothing any more at its time, and the squad drops its capability there
where they were its last holders (R230, R312). A failed task is not ended so (R290). -/
def State.endTask (s : State) (c : Nat) (lanes : List Nat) : State :=
  let done := (s.crew c).tasks.filter (fun t => !t.failed)
  let places := (done.map Task.place).eraseDups
  let s := s.endTasks c done
  let s := s.modThreads c lanes (fun _ t => if places.contains (t.stage, t.time) then { t with freed := true } else t)
  s.leaveTimes (s.crew c).squad places none

/-- Completes a pull with an entry: its words are written, the run's threads move to its stage and time, its capability becomes the squad's,
or is held beside the one that the squad has there (R230), and the task begins (R312). -/
def State.giveTask (s : State) (op : Op) (t : TaskEntry) : State :=
  let q := (s.crew op.crew).squad
  let g := (t.stage, t.time)
  let own := s.capAt q g
  let left := ((op.lanes.map (s.thread op.crew)).filter (fun u => !u.freed)).map (fun u => (u.stage, u.time))
  let s := s.modSquad q (fun r => { r with
    tasks := removeOne t r.tasks, caps := if own then r.caps else r.caps ++ [{ stage := t.stage, time := t.time, entry := t.cap }] })
  let s := s.modCrew op.crew (fun cr => { cr with tasks := cr.tasks ++ [{ entry := t, own := own }] })
  let s := s.modThreads op.crew op.lanes (fun l u =>
    if u.st = .exited then u else { u.mark [121 + l / 16, 123] with stage := t.stage, time := t.time, freed := false })
  let s := s.leaveTimes q (left.eraseDups.filter (· != g)) none
  (s.land op t.words).endOp op

/-- The registers of `sD` up, eight of them. -/
def oct? (d : UOp) : Option Nat :=
  match d with
  | .s r => if r.val % 8 = 0 ∧ r.val ≤ 152 then some r.val else none
  | _ => none

/-- QPULL (R312). -/
def execQpull (d a : UOp) (s : State) : Host.Outcome State Fault Refusal :=
  withRun s (fun x s =>
    let v := (x.cr.readU a).toNat
    let r := (oct? d).getD 0
    electGate ((oct? d).isSome && uSrcOk 1 a) [(decide (v ≠ 0 ∧ v < 256), .illegalOperand)] d [] x s (fun s =>
      let regs := (List.range 8).map (r + ·)
      let s := s.endTask x.c x.lanes
      let id := s.nextId
      let s := (s.supersede x.c regs).startOp (x.newOp s (.qpull v) x.lanes x.seta (.uni regs) 0 4 0 [])
      let s : State := match s.opAt id, (s.squadOf x.c).ownTask v with
        | some op, some t => s.giveTask op t
        | _, _ => s
      s.advance x.c (1 + a.lits.length)))

/-- The waiting pulls of a crew with their masks, oldest first. -/
def State.pullsOf (s : State) (c : Nat) : List (Op × Nat) :=
  s.ops.filterMap (fun op => match op.kind with
    | .qpull m => if op.crew = c then some (op, m) else none
    | _ => none)

/-- QPULL_ENTRY_ARRIVES (R312): the oldest waiting pull for which its squad has an entry takes it. The pulls of a retired crew end. -/
def execQpullEntryArrives (crew : Nat) (s : State) : Host.Outcome State Fault Refusal :=
  let cr := s.crew crew
  .next (if cr.retired then (s.pullsOf crew).foldl (fun s p => s.endOp p.1) s
    else if !cr.resident then s
    else
      match (s.pullsOf crew).findSome? (fun p => ((s.squadOf crew).ownTask p.2).map (fun t => (p.1, t))) with
      | none => s
      | some (op, t) => s.giveTask op t)

/-- The launch is quiescent: every task queue empty, no task running, no message on its way, queued or running (R312). -/
def State.quiescent (s : State) (launch : Nat) : Bool :=
  let qs := s.squadsOf launch
  qs.all (fun q => (s.squad q).tasks.isEmpty && (s.squad q).crews.all (fun c => (s.crew c).tasks.isEmpty))
    && s.messages.all (fun m => m.launch != launch)
    && s.steals.all (fun t => !qs.contains (s.crew t.crew).squad || t.phase != .confirmed)

/-- QUIESCENCE (R312): every waiting pull completes with the end value. -/
def execQuiescence (launch : Nat) (s : State) : Host.Outcome State Fault Refusal :=
  .next (if (s.launches.find launch).isSome && s.quiescent launch then
      let mine (op : Op) : Bool := (match op.kind with
        | .qpull _ => true
        | _ => false) && s.launchIdOf op.crew == launch
      (s.ops.filter mine).foldl (fun s op => (s.land op (0xFFFF0000#32 :: List.replicate 7 0#32)).endOp op) s
    else s)

/-! ### Tasks that fail (R290) -/

/-- The capability of a failed task goes back with its entry: its own, the squad's where nothing else holds that, or one counted beside it;
nothing where the count table has no room for that (R233, R290). -/
def State.entryCap (s : State) (q : Nat) (t : Task) : Option (Nat × State) :=
  let mine (k : SquadCap) : Bool := k.stage == t.entry.stage && k.time == t.entry.time
  if t.own then some (t.entry.cap, s)
  else
    match (s.squad q).caps.find? mine with
    | none => some (t.entry.cap, s)
    | some k =>
      let r := s.squad q
      if s.holds q t.entry.stage t.entry.time then
        if r.out then some (0, s.chipCount ⟨r.launch, t.entry.stage, t.entry.time, 1⟩) else s.ctInc r.core r.launch t.entry.stage t.entry.time
      else some (k.entry, s.modSquad q (fun r => { r with caps := r.caps.filter (fun k => !mine k) }))

/-- One failed task of a crew: its entry goes back to its queue, at most three times, or it is reported on the fault list (R290). DESIGN CHOICE
(log 34): it goes back to a queue of 64 entries too. -/
def State.failTask (s : State) (c : Nat) (t : Task) : State :=
  let q := (s.crew c).squad
  if (t.entry.idem || !t.effects) && decide (t.entry.fails < 3) then
    match (s.modCrew c (fun cr => { cr with tasks := removeOne t cr.tasks })).entryCap q t with
    | none => s
    | some (i, s) =>
      s.modSquad q (fun r => { r with tasks := r.tasks ++ [{ t.entry with cap := i, fails := t.entry.fails + 1, offer := none }] })
  else (s.addList (s.launchIdOf c) (s.coreOf c) { t.record with kill := true } t.time none).endTasks c [t]

/-- TASK_FAILURE (R290). -/
def execTaskFailure (crew : Nat) (s : State) : Host.Outcome State Fault Refusal :=
  .next (((s.crew crew).tasks.filter Task.failed).foldl (fun s t => s.failTask crew t) s)

/-! ### Stealing (R291, R312) -/

/-- The last entry of a list. -/
def lastTask : List TaskEntry → Option TaskEntry
  | [] => none
  | [t] => some t
  | _ :: ts => lastTask ts

/-- Marks the last entry that equals one as offered to a steal. -/
def offerLast (e : TaskEntry) (steal : Nat) : List TaskEntry → List TaskEntry
  | [] => []
  | x :: xs => if x = e ∧ xs.contains e = false then { x with offer := some steal } :: xs else x :: offerLast e steal xs

/-- The entry that a thief takes of a squad: the tail, with STEAL set, of the lowest such masked queue. -/
def Squad.stealable (q : Squad) (mask : Nat) : Option TaskEntry :=
  (maskQueues mask).findSome? (fun n => (lastTask (q.queue n)).filter TaskEntry.steal)

/-- The squad that a thief asks: the first of its cohort with an entry to steal (R312). -/
def State.victimOf (s : State) (q mask : Nat) : Option Nat :=
  (s.cohortSquads q).find? (fun v => v != q && ((s.squad v).stealable mask).isSome)

/-- STEAL_REQUEST (R291). -/
def execStealRequest (crew victim : Nat) (s : State) : Host.Outcome State Fault Refusal :=
  let q := (s.crew crew).squad
  .next (match (s.pullsOf crew).find? (fun p => ((s.squad q).ownTask p.2).isNone && s.victimOf q p.2 == some victim) with
    | none => s
    | some (_, m) =>
      if (s.squad q).st == .resident && !(s.crew crew).retired && s.steals.all (fun t => t.crew != crew || t.discarded) then
        { s with nextId := s.nextId + 1
                 steals := s.steals ++ [{ id := s.nextId, crew := crew, victim := victim, entry := none, mask := m }] }
      else s)

/-- A steal by number. -/
def State.stealAt (s : State) (id : Nat) : Option Steal := s.steals.find? (fun t => t.id == id)

/-- Removes a steal. -/
def State.dropSteal (s : State) (id : Nat) : State := { s with steals := s.steals.filter (fun t => t.id != id) }

/-- Changes a steal. -/
def State.modSteal (s : State) (id : Nat) (f : Steal → Steal) : State := { s with steals := mapIf (fun t => t.id == id) f s.steals }

/-- STEAL_REPLY (R291): the victim replies with a copy and keeps its own; with nothing left to steal the request ends. -/
def execStealReply (steal : Nat) (s : State) : Host.Outcome State Fault Refusal :=
  .next (match s.stealAt steal with
    | none => s
    | some t =>
      if t.phase ≠ .requested then s
      else
        match if (s.squad t.victim).st = .resident then (s.squad t.victim).stealable t.mask else none with
        | none => s.dropSteal steal
        | some e =>
          let s := s.modSquad t.victim (fun q => { q with tasks := offerLast e steal q.tasks })
          s.modSteal steal (fun t => { t with phase := .replied, entry := some e, age := 0 }))

/-- The thief still waits for its steal: it has not been stopped, reset or gated (R291). -/
def State.thiefThere (s : State) (t : Steal) : Bool :=
  (s.squadOf t.crew).st == .resident && s.inService (s.coreOf t.crew)

/-- The capability of an entry passes from the victim's table to the thief's (R235): its entry there, or nothing for want of room. -/
def State.passCap (s : State) (from_ to_ launch : Nat) (e : TaskEntry) : Option (Nat × State) :=
  if from_ = to_ then some (e.cap, s)
  else
    match s.ctInc to_ launch e.stage e.time with
    | none => none
    | some (i, s) =>
      let h : Handoff := { id := s.nextId, giver := from_, entry := e.cap, receiver := to_, launch := launch, stage := e.stage, time := e.time }
      some (i, { s with nextId := s.nextId + 1, handoffs := s.handoffs ++ [h] })

/-- STEAL_ACKNOWLEDGE (R291): the victim deletes its copy and confirms, or answers that the entry is stale. -/
def execStealAcknowledge (steal : Nat) (s : State) : Host.Outcome State Fault Refusal :=
  .next (match s.stealAt steal with
    | none => s
    | some t =>
      match t.entry with
      | none => s
      | some e =>
        if t.phase ≠ .replied ∨ t.discarded = true ∨ s.thiefThere t = false then s
        else if t.reclaimed ∨ !(s.squad t.victim).tasks.any (fun x => x.offer == some steal) then
          s.modSteal steal (fun t => { t with phase := .stale })
        else
          match s.passCap (s.squad t.victim).core (s.coreOf t.crew) (s.launchIdOf t.crew) e with
          | none => s
          | some (i, s) =>
            let s := s.modSquad t.victim (fun q => { q with tasks := q.tasks.filter (fun x => x.offer != some steal) })
            s.modSteal steal (fun t => { t with phase := .confirmed, entry := some { e with cap := i } }))

/-- STEAL_CONFIRM (R291): the thief queues the entry, or discards its copy where it is stale or the thief is gone. DESIGN CHOICE
(log 34): it is queued beside 64 entries too. -/
def execStealConfirm (steal : Nat) (s : State) : Host.Outcome State Fault Refusal :=
  .next (match s.stealAt steal with
    | none => s
    | some t =>
      match t.phase, t.entry with
      | .stale, _ => s.dropSteal steal
      | .confirmed, some e =>
        let q := (s.crew t.crew).squad
        let s' := s.dropSteal steal
        if s.thiefThere t then s'.modSquad q (fun r => { r with tasks := r.tasks ++ [{ e with offer := none }] })
        else s'.addDrop (s.coreOf t.crew) e.cap q
      | _, _ => s)

/-- STEAL_RECLAIM (R291): no acknowledgement for 2^16 cycles. -/
def execStealReclaim (steal : Nat) (s : State) : Host.Outcome State Fault Refusal :=
  .next (match s.stealAt steal with
    | none => s
    | some t =>
      if t.phase = .replied ∧ t.reclaimed = false ∧ 65536 ≤ t.age then
        let free (x : TaskEntry) : TaskEntry := if x.offer = some steal then { x with offer := none } else x
        let s := s.modSquad t.victim (fun q => { q with tasks := q.tasks.map free })
        if t.discarded then s.dropSteal steal else s.modSteal steal (fun t => { t with reclaimed := true })
      else s)

/-- A thief that is reset, power-gated or stopped discards its copy before the confirmation (R291): a request is gone; of a reply, the
victim's own entry is left, to be reclaimed; and what the victim had confirmed is lost. -/
def State.discardSteals (s : State) (gone : Steal → Bool) : State :=
  let lost := s.steals.filter (fun t => gone t && t.phase == .confirmed)
  let kept := s.steals.filter (fun t => !(gone t && (t.phase != .replied || t.reclaimed)))
  let s := { s with steals := mapIf gone (fun t => { t with discarded := true }) kept }
  lost.foldl (fun s t => match t.entry with
    | some e => s.addDrop (s.coreOf t.crew) e.cap (s.crew t.crew).squad
    | none => s) s

/-! ### The reset of a core (R291) -/

/-- LOST of a stage is on its way to a launch's fault-list header, where there is one (R284, R328). -/
def State.writeLost (s : State) (launch core stage : Nat) : State :=
  if (s.launch launch).pkt.flist = 0#64 then s
  else
    { s with nextId := s.nextId + 1
             listEntries := s.listEntries ++ [{ id := s.nextId, launch := launch, core := core, record := {}, time := 0#64, permit := none
                                                phase := .lost stage }] }

/-- The queued entries of a squad on a reset core are lost: counted by stage, and their capabilities dropped. -/
def State.loseTasks (s : State) (q : Nat) : State :=
  let r := s.squad q
  let s := s.modSquad q (fun r => { r with tasks := [] })
  r.tasks.foldl (fun s t =>
    let g := t.stage.toNat
    let s := s.modLaunch r.launch (fun k => { k with lost := k.lost.put g (k.lost.get g + 1#32) })
    (s.writeLost r.launch r.core g).addDrop r.core t.cap q) s

/-- The squads that stand on a core. -/
def State.squadsOn (s : State) (core : Nat) : List Nat :=
  (s.squads.filter (fun (p : Nat × Squad) => p.2.core == core && p.2.kind != .service && !p.2.out && (p.2.st == .resident || p.2.st == .stopping))).map Prod.fst

/-- CORE_RESET (R291): queued entries are lost, tasks running there fail, and the launches end. The core's clock restarts and its TLB is
empty. -/
def execCoreReset (core : Nat) (s : State) : Host.Outcome State Fault Refusal :=
  let qs := s.squadsOn core
  let s := qs.foldl State.loseTasks s
  let fail (cr : Crew) : Crew := { cr with tasks := cr.tasks.map (fun t => { t with failed := true }) }
  let s := qs.foldl (fun s q => (s.squad q).crews.foldl (fun s c => s.modCrew c fail) s) s
  let s := s.discardSteals (fun t => qs.contains (s.crew t.crew).squad)
  let s := (qs.map (fun q => (s.squad q).launch)).eraseDups.foldl (fun s k => s.endLaunch k 3) s
  .next (s.modCore core (fun k => { k with clock := 0#64, tlb := [], permits := 4 }))

/-! ### Active messages (R313) -/

/-- The core that a target word names, where it names one. -/
def targetCore (w : Nat) : Option Nat :=
  if bitsOf w 12 4 < 12 ∧ bitsOf w 8 4 < 12 then some (144 * bitsOf w 16 2 + 12 * bitsOf w 12 4 + bitsOf w 8 4) else none

/-- AMSG (R313). -/
def execAmsg (d a : UOp) (s : State) : Host.Outcome State Fault Refusal :=
  withRun s (fun x s =>
    let b := (x.cr.block a 14 146).getD []
    let w0 := (b.getD 0 0#32).toNat
    let w1 := (b.getD 1 0#32).toNat
    let len := bitsOf w1 0 6
    let g := s.runTime x
    electGate (electDstOk d && !b.isEmpty)
      [(bitsOf w0 0 8 == 0 && bitsOf w0 18 14 == 0 && bitsOf w1 6 10 == 0 && decide (len % 4 = 0 ∧ len ≤ 48), .illegalOperand),
        capCheck s x] d
      [capStall s x g.1 g.2] x s (fun s =>
      s.withCap x (fun cap s =>
        let id := s.nextId
        let s := (s.supersede x.c d.reg?.toList).startOp
          (x.newOp s (.amsg (id + 1)) x.lanes (x.electFlag d) (.uni d.reg?.toList) 0 4 0 [])
        let core := s.coreOf x.c
        let sender := 2 ^ 17 * islandOfCore core + 2 ^ 13 * (clusterOfCore core % 12) + 2 ^ 9 * (core % 12) + 2 ^ 5 * x.cr.slot
        let m : Message :=
          { id := s.nextId, launch := s.launchIdOf x.c, target := (targetCore w0).getD 1000, handler := bitsOf w1 16 16
            payload := (b.drop 2).take (len / 4), sender := BitVec.ofNat 32 sender, stage := g.1, time := g.2, core := core, cap := cap }
        ({ s with nextId := s.nextId + 1, messages := s.messages ++ [m] }).advance x.c 1)))

/-- Ends the `amsg` of a message with its status. -/
def State.messageStatus (s : State) (m : Message) (w : Word) : State :=
  match s.ops.find? (fun op => op.kind == .amsg m.id) with
  | none => s
  | some op => (s.land op [w]).endOp op

/-- A message is dropped at its target (R313). -/
def State.messageRefused (s : State) (m : Message) : Bool :=
  let k := s.launch m.launch
  (s.squadsHere m.launch m.target).isEmpty
    || ((((s.core m.target).reserve m.launch).map (fun r => r.handler.isEmpty)).getD true)
    || !((k.handlers[m.handler]?.map Handler.msg).getD false)

/-- MESSAGE_ARRIVAL (R313): messages between two cores arrive in the order sent, and between two stops in order with the other
requests (R314); a full queue holds the message. -/
def execMessageArrival (message : Nat) (s : State) : Host.Outcome State Fault Refusal :=
  .next (match s.messages.find? (fun m => m.id == message) with
    | none => s
    | some m =>
      if m.queued || m.running.isSome || s.messages.any (fun e => e.core == m.core && e.target == m.target && !e.queued && e.running.isNone
          && decide (e.id < m.id)) || !s.mayArrive message (clusterOfCore m.core) (clusterOfCore m.target) then s
      else if s.messageRefused m then
        let s := { s with messages := s.messages.filter (fun e => e.id != message) }
        (s.messageStatus m 0x90000000#32).addDropAt m.core m.cap 0 0
      else if 64 ≤ (s.core m.target).messages.length then s
      else
        let s := { s with messages := mapIf (fun e => e.id == message) (fun e => { e with queued := true }) s.messages }
        (s.modCore m.target (fun k => { k with messages := k.messages ++ [message] })).messageStatus m 0x80000000#32)

/-- MESSAGE_HANDLER_START (R313): the oldest accepted message starts as a handler crew in a free handler slot of its launch. One whose
launch has left the core is given up, and its capability with it. -/
def execMessageHandlerStart (core : Nat) (s : State) : Host.Outcome State Fault Refusal :=
  .next (match (s.core core).messages with
    | [] => s
    | id :: rest =>
      match s.messages.find? (fun m => m.id == id) with
      | none => s.modCore core (fun k => { k with messages := rest })
      | some m =>
        let k := s.launch m.launch
        if k.ending.isSome || ((s.core core).reserve m.launch).isNone then
          let s := { s with messages := s.messages.filter (fun e => e.id != id) }
          (s.modCore core (fun k => { k with messages := rest })).addDropAt m.core m.cap 0 0
        else
          match s.keptSlot core m.launch true, k.freeFrame, k.handlers[m.handler]? with
          | some slot, some f, some h =>
            let q := s.nextId
            let c := s.nextId + 1
            let words := m.payload ++ List.replicate (12 - m.payload.length) 0#32 ++ [m.sender, BitVec.ofNat 32 m.handler]
              ++ k.argWords.drop 14
            let cr := newCrew q 0 slot core (k.pkt.crewAddr f 0) h.pc m.stage m.time words (fun _ t => t)
            let r : Squad := { launch := m.launch, kind := .handler, index := 0xFFFFFFFF, cluster := clusterOfCore core, core := core
                               st := .resident, home := core, frame := f, image := k.pkt.frameAddr f, trapVec := k.pkt.trapVec, crews := [c]
                               placedAt := q }
            let s := { s with nextId := s.nextId + 2, squads := s.squads.set q r }
            let s := s.modLaunch m.launch (fun k => { k with frames := insertSorted f k.frames })
            let s := { s with messages := mapIf (fun e => e.id == id) (fun e => { e with queued := false, running := some q }) s.messages }
            let s := s.modCore core (fun k => { k with messages := rest })
            s.addCrews [(c, cr)] core
          | _, _, _ => s)

end Sys2Proof.Machine
end

