-- ==== Sys2Proof/Machine/Cells.lean ====
section
/-! DEFINITION. Cell tables and their sweeps: voxels (R246), `cins` and its build (R244-R251), `cfind` (R252) and `cclr` (R253). -/

namespace Sys2Proof.Machine

/-! ### Voxels (R246) -/

/-- The floor of the exact quotient of a value and a positive finite one; `none` for NaN and infinity. -/
def floorDiv (x h : FVal) : Option Int :=
  match x, h with
  | .fin neg m e, .fin _ mh eh =>
    let d := e - eh
    let num : Int := signedInt neg (m * pow2 d)
    some (num / ((mh * pow2 (-d) : Nat) : Int))
  | _, _ => none

/-- The voxel index of one axis: within the signed 20-bit range, and within a periodic box of `n` cells (R246). -/
def axisIndex (periodic : Bool) (n : Nat) (h x : Word) : Option Int :=
  match floorDiv (fval x) (fval h) with
  | none => none
  | some i =>
    if i < -524288 ∨ 524287 < i then none
    else if periodic && (decide (i < 0) || decide ((n : Int) ≤ i)) then none
    else some i

/-- The voxel of a position in a sweep; `none` is the catch-all list. -/
def Sweep.voxel (w : Sweep) (x y z : Word) : Option (Int × Int × Int) :=
  match axisIndex w.periodic w.nx w.h x, axisIndex w.periodic w.ny w.h y, axisIndex w.periodic w.nz w.h z with
  | some ix, some iy, some iz => some (ix, iy, iz)
  | _, _, _ => none

/-! ### Tables -/

/-- A table of a cluster. -/
def State.table (s : State) (cluster n : Nat) : CellTable := (s.cluster cluster).tables.getD n {}

/-- Changes a table. -/
def State.modTable (s : State) (cluster n : Nat) (f : CellTable → CellTable) : State :=
  s.modCluster cluster (fun k => { k with tables := k.tables.modify n f })

/-- Changes a sweep record. -/
def CellTable.modSweep (t : CellTable) (i : Nat) (f : Sweep → Sweep) : CellTable := { t with sweeps := t.sweeps.modify i f }

/-- The sweep record of a time. -/
def CellTable.sweepAt (t : CellTable) (time : DWord) : Option Nat := t.sweeps.findIdx? (fun w => w.st != .free && w.time == time)

/-- The entries of a sweep, in ascending rank. -/
def CellTable.cellsOf (t : CellTable) (i : Nat) : List Cell := t.entries.filter (fun e => e.sweep == i)

/-- One entry ranks before another (R247). -/
def cellBefore (a b : Cell) : Bool :=
  decide (a.iz < b.iz ∨ (a.iz = b.iz ∧ (a.iy < b.iy ∨ (a.iy = b.iy ∧ a.ix < b.ix))))

/-! ### cins (R250, R251) -/

/-- The voxel lists of a build: entries with their record indices in ascending order, the catch-all list, and whether the table was full
and some record out of range. -/
structure Build where
  groups : List (Cell × List Nat)
  catchAll : List Nat
  full : Bool
  range : Bool
deriving DecidableEq, Repr

/-- Adds a record to the entry of its voxel; `none` where the voxel has none. -/
def joinGroup (first : Bool) (v : Int × Int × Int) (i : Nat) : List (Cell × List Nat) → Option (List (Cell × List Nat))
  | [] => none
  | g :: gs =>
    if g.1.ix = v.1 ∧ g.1.iy = v.2.1 ∧ g.1.iz = v.2.2 then some ((if first then g else (g.1, g.2 ++ [i])) :: gs)
    else (joinGroup first v i gs).map (g :: ·)

/-- One record of a build (R247); `free` entries are left in the table for the whole sweep. -/
def Build.add (b : Build) (first : Bool) (sweep free i : Nat) (v : Option (Int × Int × Int)) : Build :=
  match v with
  | none => { b with catchAll := b.catchAll ++ [i], range := true }
  | some v =>
    match joinGroup first v i b.groups with
    | some gs => { b with groups := gs }
    | none =>
      if b.groups.length < free then
        { b with groups := b.groups ++ [({ ix := v.1, iy := v.2.1, iz := v.2.2, sweep := sweep, start := 0, count := 0 }, [i])] }
      else { b with catchAll := b.catchAll ++ [i], full := true }

/-- Puts an entry in ascending rank. -/
def insertGroup (g : Cell × List Nat) : List (Cell × List Nat) → List (Cell × List Nat)
  | [] => [g]
  | x :: xs => if cellBefore g.1 x.1 then g :: x :: xs else x :: insertGroup g xs

/-- START and COUNT of ranked entries. -/
def startGroups : List (Cell × List Nat) → Nat → List (Cell × List Nat)
  | [], _ => []
  | g :: gs, n => ({ g.1 with start := n, count := g.2.length }, g.2) :: startGroups gs (n + g.2.length)

/-- A build with its entries ranked (R247). -/
def Build.ranked (b : Build) : Build := { b with groups := startGroups (b.groups.foldr insertGroup []) 0 }

/-- Builds a sweep from the coordinates read, three words a record. -/
def buildFrom (w : Sweep) (sweep free firstIndex : Nat) (first : Bool) : List Word → Nat → Build → Build
  | x :: y :: z :: rest, n, b => buildFrom w sweep free firstIndex first rest (n + 1) (b.add first sweep free (firstIndex + n) (w.voxel x y z))
  | _, _, b => b

/-- An FP32 word is finite and greater than +0. -/
def positiveFinite (w : Word) : Bool := decide (0 < w.toNat ∧ w.toNat < 0x7F800000)

/-- An FP32 word is finite and not negative; either zero is. -/
def notNegative (w : Word) : Bool := decide (w.toNat < 0x7F800000) || w == 0x80000000#32

/-- The checks of the `cins` block (R250). -/
def cinsBlockOk (b : List Word) : Bool :=
  let periodic := blk b 0 2 1 = 1
  blkZero b 0 3 29 && blkZero b 1 6 26 && blkZero b 2 6 26 && blkZero b 3 6 26 && decide (blk b 5 0 32 ≤ 0xFFFFFF)
    && positiveFinite (b.getD 6 0#32) && blkZero b 7 16 16 && blkZero b 11 0 32
    && [8, 9, 10].all (fun k => if periodic then decide (1 ≤ blk b k 0 32 ∧ blk b k 0 32 ≤ 0x80000) else blkZero b k 0 32)

/-- An identifier in a format, in global memory, with at least `n` elements in dimension 0. -/
def tensorIs (t : Option Tensor) (fmt n : Nat) : Bool :=
  match t with
  | none => false
  | some t => t.fmt == fmt && t.glob && decide (n ≤ t.size 0)

/-- Why `cins` is refused; 0 where it is not (R251). -/
def CellTable.refusal (t : CellTable) (launch : Nat) (time : DWord) : Nat :=
  if t.bound ≠ none ∧ t.bound ≠ some launch then 3
  else if (t.sweepAt time).isSome then 1
  else if t.sweeps.all (fun w => w.st != .free) then 2
  else 0

/-- CINS and CINS_FIRST (R250, R251). -/
def cinsIssue (first : Bool) (d a : UOp) (x : Issuer) (s : State) : State :=
  let b := (x.cr.block a 12 148).getD []
  let p := s.tensor x.cr.squad (blk b 1 0 6)
  let o := s.tensor x.cr.squad (blk b 2 0 6)
  let c := s.tensor x.cr.squad (blk b 3 0 6)
  let n := blk b 5 0 32
  let core := s.coreOf x.c
  let cl := clusterOfCore core
  let launch := s.launchIdOf x.c
  let g := s.runTime x
  let tb := blk b 0 0 2
  let t := s.table cl tb
  let refused := t.refusal launch g.2
  let go := refused == 0
  electGate (electDstOk d && (a.reg?.map (fun r => r % 4 == 0)).getD false && !b.isEmpty)
    [(cinsBlockOk b, .illegalOperand), (tensorIs p 0 (blk b 7 0 16 + 3) && tensorIs o 14 n && tensorIs c 14 n, .tensorId),
      capCheck s x] d
    [(go && (copyStall s x).1, .queueFull .copy), (go && (capStall s x g.1 g.2).1, .countTable core launch g.1 g.2)] x s (fun s =>
    match p, o, c with
    | some p, some o, some c =>
      if !go then (s.statusNow x d (BitVec.ofNat 32 (2 ^ 31 + refused * 2 ^ 24))).advance x.c 1
      else
        s.withCap x (fun cap s =>
          let i := (t.sweeps.findIdx? (fun w => w.st == .free)).getD 0
          let w : Sweep :=
            { st := .building, time := g.2, stage := g.1, periodic := blk b 0 2 1 = 1, h := b.getD 6 0#32, nx := blk b 8 0 32
              ny := blk b 9 0 32, nz := blk b 10 0 32, obase := BitVec.ofNat 64 o.base, cbase := BitVec.ofNat 64 c.base }
          let s := s.modTable cl tb (fun t => { t.modSweep i (fun _ => w) with bound := some launch })
          (s.queueJob x d (.cins b p o c tb i first) false cap).advance x.c 1)
    | _, _, _ => s)

/-- CINS (R251). -/
def execCins (d a : UOp) (s : State) : Host.Outcome State Fault Refusal := withRun s (cinsIssue false d a)

/-- CINS_FIRST (R251). -/
def execCinsFirst (d a : UOp) (s : State) : Host.Outcome State Fault Refusal := withRun s (cinsIssue true d a)

/-! ### The build (R247, R251) -/

/-- The indices of the coordinates of a record. -/
def recordIdx (xidx r : Nat) : List (List Nat) := [[xidx, r], [xidx + 1, r], [xidx + 2, r]]

/-- The bytes of a record's coordinates. -/
def Tensor.recordRanges (t : Tensor) (xidx r : Nat) : List Range := (recordIdx xidx r).flatMap (t.ranges false)

/-- The FP32 coordinates of a record, and whether one is poisoned. -/
def JobMem.position (m : JobMem) (t : Tensor) (xidx r : Nat) : List Word × Bool :=
  let es := (recordIdx xidx r).map (m.elem t)
  (es.map (cpytFloat t), es.any Read.bad)

/-- Reads the records of a build that it has not read yet, in ascending index, up to the first that it cannot read whole: the words,
the records that were poisoned, and what stopped it (R251). -/
def State.readRecords (s : State) (j : Job) (p : Tensor) (xidx : Nat) : List Nat → List Word × List Nat × Option (Nat × Bool × Xlate) × State
  | [] => ([], [], none, s)
  | r :: rs =>
    match s.openPages j.core (s.spaceOfSquad j.squad) (pagesOf (p.recordRanges xidx r)) with
    | (.error e, s) => ([], [], some e, s)
    | (.ok m, s) =>
      let v := (s.jobMem j.core j.squad m).position p xidx r
      let t := State.readRecords s j p xidx rs
      (v.1 ++ t.1, (if v.2 then [r] else []) ++ t.2.1, t.2.2.1, t.2.2.2)

/-- The index lists of a build as elements of its order and catch-all tensors, of the records that a test picks. -/
def Build.cellsOf (b : Build) (o c : Tensor) (which : Nat → Bool) : List MCell :=
  ((b.groups.flatMap Prod.snd).zipIdx.filter (fun p => which p.1)).flatMap (fun p => elemCells o [p.2] p.1)
    ++ (b.catchAll.zipIdx.filter (fun p => which p.1)).flatMap (fun p => elemCells c [p.2] p.1)

/-- The index lists of a build. -/
def Build.cells (b : Build) (o c : Tensor) : List MCell := b.cellsOf o c (fun _ => true)

/-- Places the records that a build has read: the entries stand in the table, and the index lists are to be written (R247); the index of a
record that was read from poison is poisoned (R224, R251). -/
def State.placeRecords (s : State) (j : Job) : State :=
  match j.kind with
  | .cins b _ o c tb i first =>
    let cl := clusterOfCore j.core
    let t := s.table cl tb
    let w := t.sweeps.getD i {}
    let bd := (buildFrom w i (65536 - t.entries.length) (blk b 4 0 32) first j.words 0 ⟨[], [], false, false⟩).ranked
    let s := s.modTable cl tb (fun t =>
      { t.modSweep i (fun w => { w with ccount := bd.catchAll.length, cells := bd.groups.length }) with
        entries := t.entries ++ bd.groups.map Prod.fst })
    s.modJob j.id (fun k => { k with
      readDone := true, cells := bd.cells o c, bad := (bd.cellsOf o c j.badRecords.contains).map MCell.addr
      done := (if bd.full then 2 ^ 27 else 0) + (if bd.range then 2 ^ 26 else 0) + bd.catchAll.length })
  | _ => s

/-- Reads the records of a build: it is held, or ends where it may not read, or has read them all. -/
def State.buildRead (s : State) (j : Job) : State :=
  match j.kind with
  | .cins b p _ _ _ _ _ =>
    let have_ := j.words.length / 3
    let rs := (List.range (blk b 5 0 32 - have_)).map (blk b 4 0 32 + have_ + ·)
    match s.readRecords j p (blk b 7 0 16) rs with
    | (ws, bad, stop, s) =>
      let errs (x : Xlate) : List Nat := (if bad.isEmpty then [] else [2]) ++ (if x = .denied then [3] else [])
      let x := (stop.map (fun e => e.2.2)).getD (.ok 0)
      let s := s.modJob j.id (fun k => { k with words := k.words ++ ws, badRecords := k.badRecords ++ bad, errs := k.errs ++ errs x })
      match stop, s.job j.id with
      | none, some j => s.placeRecords j
      | some (a, w, .unmapped), some j => s.holdJob j a w
      | some _, some j => s.placeRecords j
      | _, none => s
  | _ => s

/-- Ends a build: its sweep is complete, and its status is written (R248, R251). -/
def State.finishBuild (s : State) (j : Job) : State :=
  match j.kind with
  | .cins _ _ _ _ tb i _ =>
    (s.modTable (clusterOfCore j.core) tb (fun t => t.modSweep i (fun w => { w with st := .complete }))).finishJob j j.done
  | _ => s

/-- A build after its records have been placed: it writes its lists, and ends unless it is held. -/
def State.buildRest (s : State) (j : Job) : State :=
  if j.fault.isSome || !j.readDone then s
  else
    let s := s.copyWriteGlobal j
    match s.job j.id with
    | none => s
    | some j => if j.fault.isSome then s else s.finishBuild j

/-- CINS_JOB_COMPLETE (R251). A build ended by the fault service has placed the records that it read whole. -/
def execCinsJobComplete (job : Nat) (s : State) : Host.Outcome State Fault Refusal :=
  .next (match s.job job with
    | none => s
    | some j =>
      if !(j.isBuild && j.running) then s
      else if j.ended then
        let s := s.modJob job (fun k => { k with errs := k.errs ++ [1], fault := none, ended := false })
        match s.job job with
        | none => s
        | some j =>
          if j.readDone then s.finishBuild j
          else
            let s := s.placeRecords j
            match s.job job with
            | none => s
            | some j => s.buildRest j
      else
        let s := if j.readDone then s else s.buildRead j
        match s.job job with
        | none => s
        | some j => s.buildRest j)

/-! ### cfind (R252) -/

/-- The sweep that a lookup reads, of the launch that the table is bound to. -/
def CellTable.lookedUp (t : CellTable) (launch : Nat) (time : DWord) : Option Nat :=
  if t.bound = some launch then t.sweepAt time else none

/-- A lookup reads a sweep from its issue on (R245). -/
def CellTable.addUser (t : CellTable) (sweep : Option Nat) : CellTable :=
  match sweep with
  | some i => t.modSweep i (fun w => { w with users := w.users + 1 })
  | none => t

/-- A lookup or a pair launch no longer reads a sweep (R245). -/
def CellTable.dropUser (t : CellTable) (sweep : Option Nat) : CellTable :=
  match sweep with
  | some i => t.modSweep i (fun w => { w with users := w.users - 1 })
  | none => t

/-- A cell-table word may be performed: the accesses of its threads before it have been, and the builds that its core was given before it with
the same table are over (R268; that the table is its footprint is DEDUCED, log 53). -/
def State.tableReady (s : State) (op : Op) (table : Nat) : Bool :=
  let core := s.coreOf op.crew
  s.ops.all (fun e => !(e.crew == op.crew && decide (e.id < op.id) && e.lanes.any op.lanes.contains && (e.kind.reads || e.kind.writes)))
    && s.jobs.all (fun j => !(decide (j.id < op.id) && (j.home == core || j.core == core) && (match j.kind with
      | .cins _ _ _ _ tb _ _ => tb == table
      | _ => false)))

/-- CFIND (R252). -/
def execCfind (d a b : UOp) (s : State) : Host.Outcome State Fault Refusal :=
  withRun s (fun x s =>
    let ws := ((a.pair?.bind (fun _ => x.cr.block a 4 156))).getD []
    let t := (x.cr.readU b).toNat
    let r := (quadReg? d).getD 0
    electGate ((quadReg? d).isSome && !ws.isEmpty && uSrcOk 1 b) [(decide (t < 4), .illegalOperand)] d [] x s (fun s =>
      let regs := [r, r + 1, r + 2, r + 3]
      let key := BitVec.ofNat 64 (blkD ws 0)
      let time := BitVec.ofNat 64 (blkD ws 2)
      let cl := clusterOfCore (s.coreOf x.c)
      let sweep := (s.table cl t).lookedUp (s.launchIdOf x.c) time
      let s := s.modTable cl t (fun t => t.addUser sweep)
      ((s.supersede x.c regs).startOp (x.newOp s (.cfind t key time sweep) x.lanes x.seta (.uni regs) 0 4 0 [])).advance x.c
        (1 + b.lits.length)))

/-- A voxel index of a key: 20 bits, two's complement (R245). -/
def keyIndex (key : DWord) (k : Nat) : Int := (BitVec.ofNat 20 (bitsOf key.toNat (20 * k) 20)).toInt

/-- The four words that a lookup writes (R252). -/
def CellTable.lookup (t : CellTable) (launch : Nat) (key time : DWord) : List Word :=
  if t.bound ≠ some launch then List.replicate 4 0#32
  else
    match t.sweepAt time with
    | none => [0#32, 0#32, 8#32, 0#32]
    | some i =>
      let w := t.sweeps.getD i {}
      if w.st ≠ .complete then [0#32, 0#32, 9#32, 0#32]
      else
        match (t.cellsOf i).find? (fun e => e.ix == keyIndex key 0 && e.iy == keyIndex key 1 && e.iz == keyIndex key 2) with
        | none => [0#32, 0#32, 11#32, BitVec.ofNat 32 w.ccount]
        | some e => [BitVec.ofNat 32 e.start, BitVec.ofNat 32 e.count, 15#32, BitVec.ofNat 32 w.ccount]

/-- CFIND_COMPLETE (R252). -/
def execCfindComplete (id : Nat) (s : State) : Host.Outcome State Fault Refusal :=
  .next (match s.opAt id with
    | none => s
    | some op => match op.kind with
      | .cfind t key time sweep =>
        if !s.tableReady op t then s
        else
          let cl := clusterOfCore (s.coreOf op.crew)
          let ws := (s.table cl t).lookup (s.launchIdOf op.crew) key time
          ((s.modTable cl t (fun t => t.dropUser sweep)).land op ws).endOp op
      | _ => s)

/-! ### cclr (R249, R253) -/

/-- CCLR (R253). -/
def execCclr (d b : UOp) (s : State) : Host.Outcome State Fault Refusal :=
  withRun s (fun x s =>
    let t := (x.cr.readU b).toNat
    electGate (electDstOk d && uSrcOk 1 b) [(decide (t < 4), .illegalOperand)] d [] x s (fun s =>
      ((s.supersede x.c d.reg?.toList).startOp
        (x.newOp s (.cclr t) x.lanes (x.electFlag d) (.uni d.reg?.toList) 0 4 0 [])).advance x.c (1 + b.lits.length)))

/-- A sweep that `cclr` reclaims for a core and launch (R249). -/
def State.passed (s : State) (core launch : Nat) (w : Sweep) : Bool :=
  w.st != .free && w.users == 0 && frontPast (s.front core launch w.stage) w.time

/-- What `cclr` does to a table, and its status (R253). -/
def State.clearTable (s : State) (core launch tb : Nat) : Word × State :=
  let cl := clusterOfCore core
  let t := s.table cl tb
  if t.bound ≠ some launch then (0x80000000#32, s)
  else
    let gone := (List.range t.sweeps.length).filter (fun i => s.passed core launch (t.sweeps.getD i {}))
    let freed := (t.entries.filter (fun e => gone.contains e.sweep)).length
    let sweeps := t.sweeps.zipIdx.map (fun w => if gone.contains w.2 then {} else w.1)
    let unbound := decide (gone ≠ []) && sweeps.all (fun w => w.st == .free)
    let t : CellTable := { bound := if unbound then none else t.bound, sweeps := sweeps, entries := t.entries.filter (fun e => !gone.contains e.sweep) }
    (BitVec.ofNat 32 (2 ^ 31 + (if unbound then 2 ^ 30 else 0) + freed * 16 + gone.length), s.modTable cl tb (fun _ => t))

/-- CCLR_COMPLETE (R253). -/
def execCclrComplete (id : Nat) (s : State) : Host.Outcome State Fault Refusal :=
  .next (match s.opAt id with
    | none => s
    | some op => match op.kind with
      | .cclr t =>
        if !s.tableReady op t then s
        else
        let r := s.clearTable (s.coreOf op.crew) (s.launchIdOf op.crew) t
        (r.2.land op [r.1]).endOp op
      | _ => s)

end Sys2Proof.Machine
end

