-- ==== Sys2Proof/Machine/FloatLane.lean ====
section
/-! DEFINITION. The floating-point words, lane opcodes 0x30-0x4E and 0x58-0x5C (R101-R108, R113). -/

namespace Sys2Proof.Machine

/-- An FP16 half of a word. -/
def half (x : Word) (k : Nat) : FVal := fp16.decode (x.extractLsb' (16 * k) 16).toNat

/-- Two FP16 results as one word, with the flags of both (R108). -/
def joinHalves (r0 r1 : Nat × BitVec 5) : Word × BitVec 5 := (BitVec.ofNat 32 (r0.1 + r1.1 * 2 ^ 16), r0.2 ||| r1.2)

/-- A function on both FP16 halves (R108). -/
def halves2 (g : FVal → FVal → Nat × BitVec 5) (x y : Word) : Word × BitVec 5 :=
  joinHalves (g (half x 0) (half y 0)) (g (half x 1) (half y 1))

/-- `hfma2` on both halves. -/
def halves3 (x y z : Word) : Word × BitVec 5 :=
  joinHalves (fp16.fmaV .rne (half x 0) (half y 0) (half z 0)) (fp16.fmaV .rne (half x 1) (half y 1) (half z 1))

/-- `fdp4`: one chunk of four products of 8-bit codes of a format, without block scales (R113). -/
def fdp4 (fmt : Nat) (x y z : Word) : Word × BitVec 5 :=
  chunkSum 18 z ((List.range 4).map (fun k =>
    { a := elemOf fmt (byteAt x k).toNat, b := elemOf fmt (byteAt y k).toNat, scale := some 0 }))

/-- FADD (R102). -/
def execFadd (u : Bool) (d a : LOp) (b : BOp) (s : State) : Host.Outcome State Fault Refusal :=
  laneExec binary.float (fnF2 (f32Add .rne)) false u d a b s

/-- FADD_RZ (R102). -/
def execFaddRz (u : Bool) (d a : LOp) (b : BOp) (s : State) : Host.Outcome State Fault Refusal :=
  laneExec binary.float (fnF2 (f32Add .rz)) false u d a b s

/-- FADD_RD (R102). -/
def execFaddRd (u : Bool) (d a : LOp) (b : BOp) (s : State) : Host.Outcome State Fault Refusal :=
  laneExec binary.float (fnF2 (f32Add .rd)) false u d a b s

/-- FADD_RU (R102). -/
def execFaddRu (u : Bool) (d a : LOp) (b : BOp) (s : State) : Host.Outcome State Fault Refusal :=
  laneExec binary.float (fnF2 (f32Add .ru)) false u d a b s

/-- FSUB (R102). -/
def execFsub (u : Bool) (d a : LOp) (b : BOp) (s : State) : Host.Outcome State Fault Refusal :=
  laneExec binary.float (fnF2 (f32Sub .rne)) false u d a b s

/-- FSUB_RZ (R102). -/
def execFsubRz (u : Bool) (d a : LOp) (b : BOp) (s : State) : Host.Outcome State Fault Refusal :=
  laneExec binary.float (fnF2 (f32Sub .rz)) false u d a b s

/-- FSUB_RD (R102). -/
def execFsubRd (u : Bool) (d a : LOp) (b : BOp) (s : State) : Host.Outcome State Fault Refusal :=
  laneExec binary.float (fnF2 (f32Sub .rd)) false u d a b s

/-- FSUB_RU (R102). -/
def execFsubRu (u : Bool) (d a : LOp) (b : BOp) (s : State) : Host.Outcome State Fault Refusal :=
  laneExec binary.float (fnF2 (f32Sub .ru)) false u d a b s

/-- FMUL (R102). -/
def execFmul (u : Bool) (d a : LOp) (b : BOp) (s : State) : Host.Outcome State Fault Refusal :=
  laneExec binary.float (fnF2 (f32Mul .rne)) false u d a b s

/-- FMUL_RZ (R102). -/
def execFmulRz (u : Bool) (d a : LOp) (b : BOp) (s : State) : Host.Outcome State Fault Refusal :=
  laneExec binary.float (fnF2 (f32Mul .rz)) false u d a b s

/-- FMUL_RD (R102). -/
def execFmulRd (u : Bool) (d a : LOp) (b : BOp) (s : State) : Host.Outcome State Fault Refusal :=
  laneExec binary.float (fnF2 (f32Mul .rd)) false u d a b s

/-- FMUL_RU (R102). -/
def execFmulRu (u : Bool) (d a : LOp) (b : BOp) (s : State) : Host.Outcome State Fault Refusal :=
  laneExec binary.float (fnF2 (f32Mul .ru)) false u d a b s

/-- FFMA (R102). -/
def execFfma (u : Bool) (d a : LOp) (b : BOp) (s : State) : Host.Outcome State Fault Refusal :=
  laneExec readModify.float (fnF3 (f32Fma .rne)) false u d a b s

/-- FFMA_RZ (R102). -/
def execFfmaRz (u : Bool) (d a : LOp) (b : BOp) (s : State) : Host.Outcome State Fault Refusal :=
  laneExec readModify.float (fnF3 (f32Fma .rz)) false u d a b s

/-- FFMA_RD (R102). -/
def execFfmaRd (u : Bool) (d a : LOp) (b : BOp) (s : State) : Host.Outcome State Fault Refusal :=
  laneExec readModify.float (fnF3 (f32Fma .rd)) false u d a b s

/-- FFMA_RU (R102). -/
def execFfmaRu (u : Bool) (d a : LOp) (b : BOp) (s : State) : Host.Outcome State Fault Refusal :=
  laneExec readModify.float (fnF3 (f32Fma .ru)) false u d a b s

/-- FMIN (R103). -/
def execFmin (u : Bool) (d a : LOp) (b : BOp) (s : State) : Host.Outcome State Fault Refusal :=
  laneExec binary.float (fnF2 f32Min) false u d a b s

/-- FMAX (R103). -/
def execFmax (u : Bool) (d a : LOp) (b : BOp) (s : State) : Host.Outcome State Fault Refusal :=
  laneExec binary.float (fnF2 f32Max) false u d a b s

/-- FCMP_EQ (R104). -/
def execFcmpEq (u : Bool) (d a : LOp) (b : BOp) (s : State) : Host.Outcome State Fault Refusal :=
  laneExec binary.float (fnF2 f32Eq) false u d a b s

/-- FCMP_LT (R104). -/
def execFcmpLt (u : Bool) (d a : LOp) (b : BOp) (s : State) : Host.Outcome State Fault Refusal :=
  laneExec binary.float (fnF2 f32Lt) false u d a b s

/-- FCMP_LE (R104). -/
def execFcmpLe (u : Bool) (d a : LOp) (b : BOp) (s : State) : Host.Outcome State Fault Refusal :=
  laneExec binary.float (fnF2 f32Le) false u d a b s

/-- FCMP_UN (R104). -/
def execFcmpUn (u : Bool) (d a : LOp) (b : BOp) (s : State) : Host.Outcome State Fault Refusal :=
  laneExec binary.float (fnF2 f32Un) false u d a b s

/-- FCLASS (R105). -/
def execFclass (u : Bool) (d : LOp) (b : BOp) (s : State) : Host.Outcome State Fault Refusal :=
  laneExec unary.float (fn1 f32Class) false u d .zero b s

/-- FRCP (R106). -/
def execFrcp (u : Bool) (d : LOp) (b : BOp) (s : State) : Host.Outcome State Fault Refusal :=
  laneExec unary.float (fnF1 f32Rcp) false u d .zero b s

/-- FRSQ (R106). -/
def execFrsq (u : Bool) (d : LOp) (b : BOp) (s : State) : Host.Outcome State Fault Refusal :=
  laneExec unary.float (fnF1 f32Rsq) false u d .zero b s

/-- FSQRT (R106). -/
def execFsqrt (u : Bool) (d : LOp) (b : BOp) (s : State) : Host.Outcome State Fault Refusal :=
  laneExec unary.float (fnF1 (f32Sqrt .rne)) true u d .zero b s

/-- FSQRT_RZ (R106). -/
def execFsqrtRz (u : Bool) (d : LOp) (b : BOp) (s : State) : Host.Outcome State Fault Refusal :=
  laneExec unary.float (fnF1 (f32Sqrt .rz)) true u d .zero b s

/-- FSQRT_RD (R106). -/
def execFsqrtRd (u : Bool) (d : LOp) (b : BOp) (s : State) : Host.Outcome State Fault Refusal :=
  laneExec unary.float (fnF1 (f32Sqrt .rd)) true u d .zero b s

/-- FSQRT_RU (R106). -/
def execFsqrtRu (u : Bool) (d : LOp) (b : BOp) (s : State) : Host.Outcome State Fault Refusal :=
  laneExec unary.float (fnF1 (f32Sqrt .ru)) true u d .zero b s

/-- FEX2 (R106). -/
def execFex2 (u : Bool) (d : LOp) (b : BOp) (s : State) : Host.Outcome State Fault Refusal :=
  laneExec unary.float (fnF1 f32Ex2) false u d .zero b s

/-- FLG2 (R106). -/
def execFlg2 (u : Bool) (d : LOp) (b : BOp) (s : State) : Host.Outcome State Fault Refusal :=
  laneExec unary.float (fnF1 f32Lg2) false u d .zero b s

/-- FSIN (R106). -/
def execFsin (u : Bool) (d : LOp) (b : BOp) (s : State) : Host.Outcome State Fault Refusal :=
  laneExec unary.float (fnF1 f32Sin) false u d .zero b s

/-- FCOS (R106). -/
def execFcos (u : Bool) (d : LOp) (b : BOp) (s : State) : Host.Outcome State Fault Refusal :=
  laneExec unary.float (fnF1 f32Cos) false u d .zero b s

/-- FDIV_FULL (R107). -/
def execFdivFull (u : Bool) (d a : LOp) (b : BOp) (s : State) : Host.Outcome State Fault Refusal :=
  laneExec binary.float (fnF2 (f32Div .rne)) true u d a b s

/-- FDIV_FULL_RZ (R107). -/
def execFdivFullRz (u : Bool) (d a : LOp) (b : BOp) (s : State) : Host.Outcome State Fault Refusal :=
  laneExec binary.float (fnF2 (f32Div .rz)) true u d a b s

/-- FDIV_FULL_RD (R107). -/
def execFdivFullRd (u : Bool) (d a : LOp) (b : BOp) (s : State) : Host.Outcome State Fault Refusal :=
  laneExec binary.float (fnF2 (f32Div .rd)) true u d a b s

/-- FDIV_FULL_RU (R107). -/
def execFdivFullRu (u : Bool) (d a : LOp) (b : BOp) (s : State) : Host.Outcome State Fault Refusal :=
  laneExec binary.float (fnF2 (f32Div .ru)) true u d a b s

/-- HADD2 (R108). -/
def execHadd2 (u : Bool) (d a : LOp) (b : BOp) (s : State) : Host.Outcome State Fault Refusal :=
  laneExec binary (fnF2 (halves2 (fp16.addV .rne))) false u d a b s

/-- HMUL2 (R108). -/
def execHmul2 (u : Bool) (d a : LOp) (b : BOp) (s : State) : Host.Outcome State Fault Refusal :=
  laneExec binary (fnF2 (halves2 (fp16.mulV .rne))) false u d a b s

/-- HFMA2 (R108). -/
def execHfma2 (u : Bool) (d a : LOp) (b : BOp) (s : State) : Host.Outcome State Fault Refusal :=
  laneExec readModify (fnF3 halves3) false u d a b s

/-- DP4_S (R113). -/
def execDp4S (u : Bool) (d a : LOp) (b : BOp) (s : State) : Host.Outcome State Fault Refusal :=
  laneExec readModify (fn3 dp4SW) false u d a b s

/-- DP4_U (R113). -/
def execDp4U (u : Bool) (d a : LOp) (b : BOp) (s : State) : Host.Outcome State Fault Refusal :=
  laneExec readModify (fn3 dp4UW) false u d a b s

/-- FDP4_E4M3 (R113). -/
def execFdp4E4m3 (u : Bool) (d a : LOp) (b : BOp) (s : State) : Host.Outcome State Fault Refusal :=
  laneExec readModify (fnF3 (fdp4 4)) false u d a b s

/-- FDP4_E5M2 (R113). -/
def execFdp4E5m2 (u : Bool) (d a : LOp) (b : BOp) (s : State) : Host.Outcome State Fault Refusal :=
  laneExec readModify (fnF3 (fdp4 3)) false u d a b s

/-- FDP4_B8 (R113). -/
def execFdp4B8 (u : Bool) (d a : LOp) (b : BOp) (s : State) : Host.Outcome State Fault Refusal :=
  laneExec readModify (fnF3 (fdp4 8)) false u d a b s

end Sys2Proof.Machine
end

