-- ==== Sys2Proof/Machine/Pair.lean ====
section
/-! DEFINITION. The pair launch: its issue (R254), enumeration (R255-R259), pair crews (R260, R261), `pldr` and `pret` (R262, R263), and
the commit of pairs (R264-R269). -/

namespace Sys2Proof.Machine

/-! ### plnch (R254, R268) -/

/-- The checks of the `plnch` block (R254). -/
def plnchBlockOk (b : List Word) : Bool :=
  let excl := blk b 0 3 1 = 1
  let self := blk b 0 2 1 = 1
  let ids (k : Nat) : Bool := blkZero b k 14 18 && blkZero b k 6 2
  blkZero b 0 10 22 && ids 1 && ids 2 && ids 3 && notNegative (b.getD 4 0#32) && blkZero b 12 12 20
    && [13, 14, 15].all (fun k => blkZero b k 0 32)
    && (!self || (blkZero b 1 8 6 && blkZero b 3 8 6 && blkZero b 5 16 16 && blkZero b 10 0 32 && blkZero b 11 0 32))
    && (excl || blkZero b 2 0 32)

/-- The cores of a mask on which a launch holds pair slots, and the mask bits of the others (R255). -/
def State.pairCores (s : State) (launch cluster mask : Nat) : List Nat × Nat :=
  let holds (k : Nat) : Bool := (((s.core (12 * cluster + k)).reserve launch).map (fun r => !r.pair.isEmpty)).getD false
  (((bitsBelow 12 mask).filter holds).map (12 * cluster + ·), maskOf ((bitsBelow 12 mask).filter (fun k => !holds k)))

/-! ### Pair launches on a core -/

/-- Changes a pair launch. -/
def State.modPair (s : State) (id : Nat) (f : PairLaunch → PairLaunch) : State :=
  match s.pairLaunches.find id with
  | none => s
  | some p => { s with pairLaunches := s.pairLaunches.set id (f p) }

/-- Changes a launch's part on a core. -/
def State.modPart' (s : State) (id core : Nat) (f : PairCore → PairCore) : State :=
  s.modPair id (fun p => { p with cores := mapIf (fun k => k.core == core) f p.cores })

/-- An error of a launch; `stop` says that no further pair is created (R269). -/
def State.pairError (s : State) (id e : Nat) (stop : Bool) : State :=
  s.modPair id (fun p => { p with errs := p.errs ++ [e], stop := p.stop || stop })

/-- The oldest pair launch on its way to a core reaches its Isthmus, which queues up to four (R267). Launches that find it full reach it in
the order of their issue (log 51). DESIGN CHOICE (log 76): the launch that it works on is one of the four. -/
def State.reachIsthmus (s : State) (core : Nat) : State :=
  if 4 ≤ (s.core core).isthmus.length then s
  else
    match s.pairLaunches.find? (fun (p : Nat × PairLaunch) => p.2.cores.any (fun k => k.core == core && !k.arrived)) with
    | none => s
    | some p => (s.modPart' p.1 core (fun k => { k with arrived := true })).modCore core (fun k => { k with isthmus := k.isthmus ++ [p.1] })

/-- A pair launch leaves a core's Isthmus, and the next one reaches it. -/
def State.leaveIsthmus (s : State) (id core : Nat) : State :=
  (s.modCore core (fun k => { k with isthmus := k.isthmus.filter (· != id) })).reachIsthmus core

/-- The core turns to its next pair launch once its part of the first is over; the slots reserved there may be free then (R306). -/
def State.settleIsthmus (s : State) (core : Nat) : State :=
  match (s.core core).isthmus with
  | [] => s
  | id :: _ =>
    match s.pairLaunches.find id with
    | none => s.leaveIsthmus id core
    | some p => if p.over core then (s.leaveIsthmus id core).settleReserve p.launch core else s

/-! ### The issue (R254, R268) -/

/-- PLNCH (R254, R268). -/
def execPlnch (d a : UOp) (s : State) : Host.Outcome State Fault Refusal :=
  withRun s (fun x s =>
    let b := (x.cr.block a 16 144).getD []
    let self := blk b 0 2 1 = 1
    let excl := blk b 0 3 1 = 1
    let width := blk b 0 4 2 + 1
    let tx (k lo : Nat) : Option Tensor := s.tensor x.cr.squad (blk b k lo 6)
    let p := tx 1 0
    let q := if self then p else tx 1 8
    let exl := tx 2 8
    let exo := tx 2 0
    let accp := tx 3 0
    let accq := if self then accp else tx 3 8
    let pxi := blk b 5 0 16
    let qxi := if self then pxi else blk b 5 16 16
    let core := s.coreOf x.c
    let launch := s.launchIdOf x.c
    let cores := s.pairCores launch (clusterOfCore core) (blk b 12 0 12)
    let g := s.runTime x
    let stg := BitVec.ofNat 4 (blk b 0 6 4)
    electGate (electDstOk d && (a.reg?.map (fun r => r % 4 == 0)).getD false && !b.isEmpty)
      [(plnchBlockOk b, .illegalOperand),
        (tensorIs p 0 (pxi + 3) && tensorIs q 0 (qxi + 3) && tensorIs accp 0 width && tensorIs accq 0 width
          && (!excl || (tensorIs exo 14 0 && tensorIs exl 14 0)), .tensorId),
        (decide (7 ≤ s.regsOf x.c), .illegalOperand), (blkD b 8 % 4 == 0, .misaligned), (!cores.1.isEmpty, .illegalOperand),
        (s.incOk core launch g.1 g.2 stg g.2, .timeOrder)] d
      [(decide (4 ≤ (s.core core).isthmus.length), .queueFull .pair), capStall s x stg g.2] x s (fun s =>
      match s.ctInc core launch stg g.2 with
      | none => s
      | some (cap, s) =>
        let none_ : Tensor := { words := [] }
        let id := s.nextId
        let pl : PairLaunch :=
          { launch := launch, squad := x.cr.squad, crew := x.c, lanes := x.lanes, flag := x.electFlag d, sd := d.reg?, core := core
            pc := x.pc, block := b, p := p.getD none_, q := q.getD none_, exl := exl.getD none_, exo := exo.getD none_
            accq := accq.getD none_, accp := accp.getD none_, table := blk b 0 0 2, sweep := none, stage := stg, time := g.2, cap := cap
            cores := cores.1.map (fun k => { core := k }), skip := cores.2 }
        let s := (s.supersede x.c d.reg?.toList).flagAdd x.c x.lanes (x.electFlag d)
        let s := { s with nextId := id + 1, pairLaunches := s.pairLaunches.set id pl }
        let s := cores.1.foldl State.reachIsthmus s
        s.advance x.c 1))

/-! ### The end (R268, R269) -/

/-- Every pair has retired or been killed, and every applied half is in all four views (R268). -/
def State.pairsOver (s : State) (id : Nat) (p : PairLaunch) : Bool :=
  p.cores.all (fun k => k.arrived && !(s.core k.core).isthmus.contains id) && s.halves.all (fun h => h.pairLaunch != id)

/-- The cause that a pair launch delivers to its issuer (R266). -/
def PairLaunch.cause (p : PairLaunch) : Option Cause :=
  let e := lowestErr p.errs
  if e = 2 then some .poison else if e = 3 then some .protection else if (e = 1 ∨ e = 4) ∧ p.aborted then some .pairAbort else none

/-- ENDS a pair launch: the capability is dropped and the status written (R269). -/
def State.endPairs (s : State) (id : Nat) : State :=
  match s.pairLaunches.find id with
  | none => s
  | some p =>
    let s := { s with pairLaunches := s.pairLaunches.del id }
    let s := p.cores.foldl (fun s k => s.leaveIsthmus id k.core) s
    let s := s.modTable (clusterOfCore p.core) p.table (fun t => t.dropUser p.sweep)
    let s := (p.cores.foldl (fun s k => s.awaitAck p.launch k.core) s).addDropPairs p.core p.cap p.squads
    let s := s.writeStatus p.crew p.sd (BitVec.ofNat 32 (2 ^ 31 + lowestErr p.errs * 2 ^ 28 + p.skip))
    let s := s.flagSub p.crew p.lanes p.flag
    let s := p.cores.foldl (fun s k => s.settleReserve p.launch k.core) s
    match p.cause with
    | some c => s.deferEngine p.crew (p.lanes.headD 0) c p.pc
    | none => s

/-- PLNCH_COMPLETE (R269). -/
def execPlnchComplete (id : Nat) (s : State) : Host.Outcome State Fault Refusal :=
  .next (match s.pairLaunches.find id with
    | none => s
    | some p => if s.pairsOver id p then s.endPairs id else s)

/-! ### Enumeration (R255-R259) -/

/-- A candidate: i, j, offset number, catch-all membership of each, and the owner core of j. -/
structure Cand where
  i : Nat
  j : Nat
  n : Nat
  icatch : Bool
  jcatch : Bool
  jcore : Nat
deriving DecidableEq, Repr

/-- Where a record number stands: at an element of the sweep's catch-all tensor, or of its order tensor. -/
structure IdxRef where
  isCatch : Bool
  at_ : Nat
deriving DecidableEq, Repr

/-- Where the j of a candidate comes from: the offset number, its record number, and its owner core. -/
structure Source where
  n : Nat
  ref : IdxRef
  core : Nat
deriving DecidableEq, Repr

/-- A record i that a core owns (R255). -/
inductive Own
  /-- In a self launch: where its number stands, and its voxel; `none` for a catch-all record. -/
  | listed (ref : IdxRef) (v : Option (Int × Int × Int))
  /-- A P record of a launch that is not a self launch. -/
  | record (i : Nat)
deriving DecidableEq, Repr

/-- What an enumeration works on: the sweep, its entries by rank with their owner, and the owner of the catch-all list. -/
structure EnumSpace where
  w : Sweep
  cells : List (Cell × Nat)
  catchCore : Nat
deriving DecidableEq, Repr

/-- A neighbour index of one axis: modulo the box in a periodic sweep. -/
def Sweep.wrapAxis (w : Sweep) (n : Nat) (i : Int) : Int := if w.periodic then i % (max n 1 : Nat) else i

/-- The neighbour cells of a voxel by offset number, each cell once at its lowest number (R256). -/
def EnumSpace.neighbours (e : EnumSpace) (v : Int × Int × Int) : List (Nat × (Cell × Nat)) :=
  let at_ (n : Nat) : Option (Nat × (Cell × Nat)) :=
    let ix := e.w.wrapAxis e.w.nx (v.1 + ((n % 3 : Nat) : Int) - 1)
    let iy := e.w.wrapAxis e.w.ny (v.2.1 + ((n / 3 % 3 : Nat) : Int) - 1)
    let iz := e.w.wrapAxis e.w.nz (v.2.2 + ((n / 9 % 3 : Nat) : Int) - 1)
    (e.cells.find? (fun c => c.1.ix == ix && c.1.iy == iy && c.1.iz == iz)).map (fun c => (n, c))
  ((List.range 27).filterMap at_).foldl (fun l c => if l.any (fun d => d.2.1 == c.2.1) then l else l ++ [c]) []

/-- The places of an entry's records in the order tensor, ascending. -/
def Cell.refs (c : Cell) : List IdxRef := (List.range c.count).map (fun k => ⟨false, c.start + k⟩)

/-- The sources of the catch-all list. -/
def EnumSpace.catchSources (e : EnumSpace) : List Source := (List.range e.w.ccount).map (fun k => ⟨27, ⟨true, k⟩, e.catchCore⟩)

/-- The candidates of a record in a voxel: the 27 neighbours, then the catch-all list; of one without a voxel: every cell in rank, then the
catch-all list (R257). -/
def EnumSpace.sources (e : EnumSpace) (v : Option (Int × Int × Int)) : List Source :=
  (match v with
    | some v => (e.neighbours v).flatMap (fun c => c.2.1.refs.map (fun r => ⟨c.1, r, c.2.2⟩))
    | none => e.cells.flatMap (fun c => c.1.refs.map (fun r => ⟨27, r, c.2⟩))) ++ e.catchSources

/-- The records that a core owns in a self launch, in retirement order (R257). -/
def EnumSpace.listed (e : EnumSpace) (core : Nat) : List Own :=
  (e.cells.filter (fun c => c.2 == core)).flatMap (fun c => c.1.refs.map (fun r => .listed r (some (c.1.ix, c.1.iy, c.1.iz))))
  ++ (if e.catchCore = core then (List.range e.w.ccount).map (fun k => .listed ⟨true, k⟩ none) else [])

/-- The bytes of a record number. -/
def EnumSpace.range (e : EnumSpace) (r : IdxRef) : Range :=
  ⟨true, ((if r.isCatch then e.w.cbase else e.w.obase).toNat + 4 * r.at_) % 2 ^ 64, 4, false⟩

/-- A record number, and whether it is poisoned. -/
def EnumSpace.number (e : EnumSpace) (m : JobMem) (r : IdxRef) : Nat × Bool :=
  (natOfBytes (m.read true (e.range r).addr 4), m.anyBad true (e.range r).addr 4)

/-- The product of a cell count and the cell size, rounded: the edge of a box (R246). -/
def boxEdge (n : Nat) (h : Word) : Word := (f32Mul .rne (constF32 (BitVec.ofNat 32 n)) h).1

/-- One component of a distance, wrapped in a periodic sweep, and whether it was wrapped (R258). -/
def axisDist (periodic : Bool) (n : Nat) (h xi xj : Word) : Word × Bool :=
  let d := (f32Sub .rne xj xi).1
  if !periodic then (d, false)
  else
    let l := boxEdge n h
    let half := (fval l).scale (-1)
    if (fval d).isNan || half.isNan then (d, false)
    else if (fval d).cmp half = 1 then ((f32Sub .rne d l).1, true)
    else if (fval d).cmp half.negate = -1 then ((f32Add .rne d l).1, true)
    else (d, false)

/-- The pair of a candidate from the positions of its records, and whether it is accepted (R258). -/
def Cand.test (c : Cand) (w : Sweep) (rc2 : Word) (pi pj : List Word) : Pair × Bool :=
  let ax (k n : Nat) : Word × Bool := axisDist w.periodic n w.h (pi.getD k 0#32) (pj.getD k 0#32)
  let x := ax 0 w.nx
  let y := ax 1 w.ny
  let z := ax 2 w.nz
  let sq (d : Word) : Word := (f32Mul .rne d d).1
  let r2 := f32AddQuiet (f32AddQuiet (sq x.1) (sq y.1)) (sq z.1)
  ({ i := c.i, j := c.j, n := c.n, dx := x.1, dy := y.1, dz := z.1, r2 := r2, wrap := x.2 || y.2 || z.2, icatch := c.icatch
     jcatch := c.jcatch, jcore := c.jcore }, (f32Le r2 rc2).1 == 1#32)

/-- What stopped an enumeration: the page and the kind of access. -/
abbrev Stop : Type := Nat × Bool × Xlate

/-- Reads ranges for a launch on a core. -/
def State.pairRead {β : Type} (s : State) (p : PairLaunch) (core : Nat) (rs : List Range) (k : JobMem → β) : Except Stop β × State :=
  match s.openPages core (s.spaceOfSquad p.squad) (pagesOf rs) with
  | (.ok m, s) => (.ok (k (s.jobMem core p.squad m)), s)
  | (.error e, s) => (.error e, s)

/-- INT32 elements of dimension 0 of a tensor, as unsigned numbers, and whether one is poisoned. -/
def JobMem.ints (m : JobMem) (t : Tensor) (idx : List Nat) : List Nat × Bool :=
  let es := idx.map (fun i => m.elem t [i])
  (es.map Read.code, es.any Read.bad)

/-- Looks for j on an exclusion list from an index on, in at most `n` steps: whether the first element that is not below j equals it, if
there is one, and whether poison was read (R259). -/
def State.searchList (s : State) (p : PairLaunch) (core j : Nat) : Nat → Nat → Except Stop (Option Bool × Bool) × State
  | _, 0 => (.ok (none, false), s)
  | at_, n + 1 =>
    match s.pairRead p core (p.exl.ranges false [at_]) (fun m => m.ints p.exl [at_]) with
    | (.error e, s) => (.error e, s)
    | (.ok (vs, bad), s) =>
      let v := BitVec.ofNat 32 (vs.headD 0)
      if (BitVec.ofNat 32 j).sle v then (.ok (some (v == BitVec.ofNat 32 j), bad), s)
      else
        match State.searchList s p core j (at_ + 1) n with
        | (.error e, s) => (.error e, s)
        | (.ok (f, b), s) => (.ok (f, bad || b), s)

/-- An accepted pair is on i's exclusion list, and whether poison was read (R259). -/
def State.excluded (s : State) (p : PairLaunch) (core i j : Nat) : Except Stop (Bool × Bool) × State :=
  match s.pairRead p core (p.exo.ranges false [i] ++ p.exo.ranges false [i + 1]) (fun m => m.ints p.exo [i, i + 1]) with
  | (.error e, s) => (.error e, s)
  | (.ok (vs, bad), s) =>
    let lo := vs.getD 0 0
    let hi := vs.getD 1 0
    let size := p.exl.size 0
    match s.searchList p core j lo (min hi size - lo) with
    | (.error e, s) => (.error e, s)
    | (.ok (f, b), s) =>
      -- Elements at or above SIZE0 read +0, which equals j, or ends the search, or lies below it.
      (.ok (f.getD (decide (max lo size < hi) && j == 0), bad || b), s)

/-- A launch is a self launch: P is Q (R254). -/
def PairLaunch.self (p : PairLaunch) : Bool := blk p.block 0 2 1 == 1

/-- The entries of the launch's sweep by rank with their owners, and the owner of its catch-all list (R245, R255). -/
def State.enumSpace (s : State) (p : PairLaunch) : EnumSpace :=
  let t := s.table (clusterOfCore p.core) p.table
  let i := p.sweep.getD 0
  let cells := t.cellsOf i
  let parts := p.cores.map PairCore.core
  { w := t.sweeps.getD i {}
    cells := cells.zipIdx.map (fun c => (c.1, parts.getD (c.2 * parts.length / max cells.length 1) 0))
    catchCore := if parts.contains p.core then p.core else parts.headD 0 }

/-- The P records that a core owns in a launch that is not a self launch (R255). -/
def PairLaunch.owned (p : PairLaunch) (core : Nat) : List Nat :=
  let parts := p.cores.map PairCore.core
  let n := blk p.block 11 0 32
  ((List.range n).filter (fun k => parts.getD (k * parts.length / max n 1) 0 == core)).map (blk p.block 10 0 32 + ·)

/-- Reads a record i of its own: its number, whether it is on the catch-all list, its candidates in order, and whether poison was read
(R257). DESIGN CHOICE (log 77): a record without a voxel is taken from the catch-all list, of 27 cells, in a SELF 0 launch too (R261). -/
def State.readOwn (s : State) (p : PairLaunch) (core : Nat) (e : EnumSpace) (u : Own) : Except Stop (Nat × Bool × List Source × Bool) × State :=
  match u with
  | .listed r v => s.pairRead p core [e.range r] (fun m => ((e.number m r).1, v.isNone, e.sources v, (e.number m r).2))
  | .record i =>
    let xi := blk p.block 5 0 16
    s.pairRead p core (p.p.recordRanges xi i) (fun m =>
      let x := m.position p.p xi i
      let v := e.w.voxel (x.1.getD 0 0#32) (x.1.getD 1 0#32) (x.1.getD 2 0#32)
      (i, v.isNone, e.sources v, x.2))

/-- A candidate has been tested: the next one's turn comes, an accepted pair is packed, and a catch-all test is counted (R251, R260). -/
def State.tested (s : State) (id core : Nat) (counts : Bool) (new : Option Pair) (bad : Bool) : State :=
  let s := s.modPart' id core (fun k =>
    { k with src := k.src + 1, pairs := k.pairs ++ new.toList
             packedAt := if new.isSome && k.pairs.all (fun x => x.st != .accepted) then (s.core core).clock else k.packedAt })
  let s := if bad then s.pairError id 2 false else s
  if counts then s.bump (s.partOfCore core) 5 1 else s

/-- Tests the candidate of a source (R257-R259), or says what stopped it. -/
def State.tryCand (s : State) (id core : Nat) (p : PairLaunch) (e : EnumSpace) (i : Nat) (icatch : Bool) (c : Source) : Option Stop × State :=
  match s.pairRead p core [e.range c.ref] (fun m => e.number m c.ref) with
  | (.error x, s) => (some x, s)
  | (.ok (j, bad), s) =>
    if p.self && decide (j ≤ i) then (none, s.tested id core false none bad)
    else
      let pxi := blk p.block 5 0 16
      let qxi := if p.self then pxi else blk p.block 5 16 16
      let counts := icatch || c.ref.isCatch
      match s.pairRead p core (p.p.recordRanges pxi i ++ p.q.recordRanges qxi j) (fun m =>
          let vi := m.position p.p pxi i
          let vj := m.position p.q qxi j
          ((⟨i, j, c.n, icatch, c.ref.isCatch, c.core⟩ : Cand).test e.w (p.block.getD 4 0#32) vi.1 vj.1, vi.2 || vj.2)) with
      | (.error x, s) => (some x, s)
      | (.ok (r, bad'), s) =>
        let bad := bad || bad'
        if !r.2 then (none, s.tested id core counts none bad)
        else if blk p.block 0 3 1 = 0 then (none, s.tested id core counts (some r.1) bad)
        else
          match s.excluded p core i j with
          | (.error x, s) => (some x, s)
          | (.ok (out, b), s) => (none, s.tested id core counts (if out then none else some r.1) (bad || b))

/-- The pairs packed for the crew that starts next (R260). -/
def PairCore.packed (k : PairCore) : Nat := (k.pairs.filter (fun x => x.st == .accepted)).length

/-- A crew of the launch's part on a core is full (R260). -/
def State.packFull (s : State) (id core : Nat) : Bool :=
  ((s.pairLaunches.find id).map (fun p => decide (32 ≤ (p.part core).packed))).getD true

/-- Tests the candidates of a record, until a crew is full or something stops it: whether it came to the end. -/
def State.scanCands (s : State) (id core : Nat) (p : PairLaunch) (e : EnumSpace) (i : Nat) (icatch : Bool) :
    List Source → Except Stop Bool × State
  | [] => (.ok true, s)
  | c :: cs =>
    if s.packFull id core then (.ok false, s)
    else
      match s.tryCand id core p e i icatch c with
      | (some x, s) => (.error x, s)
      | (none, s) => State.scanCands s id core p e i icatch cs

/-- Goes on with the enumeration of a launch's part on a core, record after record, until a crew is full or something stops it (R257,
R260). -/
def State.scanOwn (s : State) (id core : Nat) (p : PairLaunch) (e : EnumSpace) : List Own → Option Stop × State
  | [] => (none, s.modPart' id core (fun k => { k with enumerated := true }))
  | u :: us =>
    match s.readOwn p core e u with
    | (.error x, s) => (some x, s)
    | (.ok (i, icatch, cs, bad), s) =>
      let s := if bad then s.pairError id 2 false else s
      let done := ((s.pairLaunches.find id).map (fun p => (p.part core).src)).getD 0
      match s.scanCands id core p e i icatch (cs.drop done) with
      | (.error x, s) => (some x, s)
      | (.ok false, s) => (none, s)
      | (.ok true, s) => State.scanOwn (s.modPart' id core (fun k => { k with unit := k.unit + 1, src := 0 })) id core p e us

/-- The start of a launch on its first core: its sweep is found and counted as in use, or ERR 5 ends it at once (R258, R267, R269); a sweep
that is building is waited for (R248). -/
def State.startPairs (s : State) (id : Nat) (p : PairLaunch) : Option State :=
  if p.sweep.isSome || p.stop then some s
  else
    let cl := clusterOfCore p.core
    let t := s.table cl p.table
    match if t.bound = some p.launch then t.sweepAt (Word.pair (p.block.getD 6 0#32) (p.block.getD 7 0#32)) else none with
    | none => some ((s.pairError id 5 true).endPairs id)
    | some i =>
      let w := t.sweeps.getD i {}
      if w.st ≠ .complete then none
      else if (f32Lt (f32Mul .rne w.h w.h).1 (p.block.getD 4 0#32)).1 = 1#32 then some ((s.pairError id 5 true).endPairs id)
      else
        some ((s.modTable cl p.table (fun t => t.modSweep i (fun w => { w with users := w.users + 1 }))).modPair id (fun p =>
          { p with sweep := some i }))

/-- Nothing is left to enumerate on a core. -/
def State.endEnum (s : State) (id core : Nat) : State :=
  (s.modPart' id core (fun k => { k with enumerated := true, fault := none })).settleIsthmus core

/-- Enumerates a launch's part on a core up to the next full crew or to its end; or holds it, or stops the launch for want of permission.
With no pair slot free it pauses (R260). How fast the enumeration goes is not given: it takes no time (log 52). -/
def State.enumPart (s : State) (id core : Nat) : State :=
  match s.pairLaunches.find id with
  | none => s
  | some p =>
    if p.stop then s.endEnum id core
    else if (s.keptSlot core p.launch false).isNone then s
    else
      let e := s.enumSpace p
      let own := if p.self then e.listed core else (p.owned core).map .record
      match s.scanOwn id core p e (own.drop (p.part core).unit) with
      | (none, s) => s.settleIsthmus core
      | (some (a, w, .unmapped), s) =>
        (s.modPart' id core (fun k => { k with fault := some (BitVec.ofNat 64 a, w), walked := false })).addWalk (.pair id core false)
      | (some _, s) => (s.pairError id 3 true).endEnum id core

/-- The accesses of the issuing threads before a pair launch have been performed (R268). -/
def State.plnchReady (s : State) (id : Nat) (p : PairLaunch) : Bool :=
  s.ops.all (fun op => !(op.crew == p.crew && decide (op.id < id) && op.lanes.any p.lanes.contains && (op.kind.reads || op.kind.writes)))
    && !s.blockedAt p.core id (p.regions (s.spaceOfSquad p.squad) (s.sweepRegions p))

/-- PAIR_ENUMERATION_START (R267): the first pair launch of a core starts there, or goes on where it paused (R260). -/
def execPairEnumerationStart (core : Nat) (s : State) : Host.Outcome State Fault Refusal :=
  .next (match (s.core core).isthmus with
    | [] => s
    | id :: _ =>
      match s.pairLaunches.find id with
      | none => s.settleIsthmus core
      | some p =>
        if (p.part core).enumerated || (p.part core).fault.isSome || !(p.stop || p.sweep.isSome || s.plnchReady id p) then s
        else
          match s.startPairs id p with
          | none => s
          | some s => s.enumPart id core)

/-! ### Pair crews (R260, R261) -/

/-- The first place of a pair that is still to be packed. -/
def PairCore.nextPair (k : PairCore) : Option Nat := k.pairs.findIdx? (fun x => x.st == .accepted)

/-- The flags word of a pair thread (R261). -/
def Pair.flags (x : Pair) (self : Bool) : Word :=
  BitVec.ofNat 32 ((if self then 1 else 0) + (if x.wrap then 2 else 0) + (if x.icatch then 4 else 0) + (if x.jcatch then 8 else 0) + x.n * 16)

/-- The thread of a pair as it starts (R261). -/
def Pair.thread (x : Pair) (ref : PairRef) (self : Bool) (t : Thread) : Thread :=
  ({ t with pair := some ref }).writeWs (.v 0) [ref.i, ref.j, x.dx, x.dy, x.dz, x.r2, x.flags self]

/-- The pair crew that is packed on a core is to start: it holds 32 pairs, or 64 cycles of the core's clock have passed since its first
(R260, R327). -/
def State.crewDue (s : State) (core : Nat) (k : PairCore) : Bool :=
  decide (32 ≤ k.packed ∨ (0 < k.packed ∧ 64 ≤ ((s.core core).clock - k.packedAt).toNat))

/-- The pair crew that is due to start on a core, if any. -/
def State.crewsDue (s : State) (core : Nat) : List Event :=
  match (s.core core).isthmus with
  | [] => []
  | id :: _ => if ((s.pairLaunches.find id).map (fun p => s.crewDue core (p.part core))).getD false then [.pairCrewStart core] else []

/-- PAIR_CREW_START (R260): a crew starts when it holds 32 pairs, or 64 cycles after its first. -/
def execPairCrewStart (core : Nat) (s : State) : Host.Outcome State Fault Refusal :=
  .next (match (s.core core).isthmus with
    | [] => s
    | id :: _ =>
      match s.pairLaunches.find id with
      | none => s
      | some p =>
        let k := s.launch p.launch
        match (p.part core).nextPair, s.keptSlot core p.launch false, k.freeFrame with
        | some at_, some slot, some f =>
          let n := (p.part core).packed
          if !s.crewDue core (p.part core) then s
          else
            let self := p.self
            let q := s.nextId
            let c := s.nextId + 1
            let start (l : Nat) (t : Thread) : Thread :=
              if l < n then
                match (p.part core).pairs[at_ + l]? with
                | some x => x.thread { launch := id, core := core, place := at_ + l, i := BitVec.ofNat 32 x.i, j := BitVec.ofNat 32 x.j } self t
                | none => { t with st := .exited }
              else { t with st := .exited }
            let cr := newCrew q 0 slot core (k.pkt.crewAddr f 0) (BitVec.ofNat 64 (blkD p.block 8)) p.stage p.time [] start
            let r : Squad := { launch := p.launch, kind := .pair, index := 0xFFFFFFFF, cluster := clusterOfCore core, core := core
                               st := .resident, home := core, frame := f, image := k.pkt.frameAddr f, trapVec := k.pkt.trapVec, crews := [c]
                               placedAt := q }
            let s := { s with nextId := s.nextId + 2, squads := s.squads.set q r }
            let s := s.modLaunch p.launch (fun k => { k with frames := insertSorted f k.frames })
            let s := (s.modPair id (fun p => { p with squads := p.squads ++ [q] })).modPart' id core (fun k => { k with
              pairs := k.pairs.zipIdx.map (fun x => if at_ ≤ x.2 ∧ x.2 < at_ + n then { x.1 with st := .running } else x.1) })
            s.addCrews [(c, cr)] core
        | _, _, _ => s)

/-! ### pldr and pret (R262, R263) -/

/-- One lane's read of a record, at any address (R262): one that reaches into another page translates both, and is issued again where the
second is not mapped. -/
def State.startRecord (s : State) (x : Issuer) (l : Nat) (op : Op) (n : Nat) : State :=
  let first := 65536 - op.addr % 65536
  if op.width ≤ first then s.startAt x [l] op false n
  else
    match s.access (s.coreOf x.c) (s.spaceOf x.c) op.addr false false with
    | (.ok pa, s) =>
      let next := (op.addr + first) % 2 ^ 64
      match s.access (s.coreOf x.c) (s.spaceOf x.c) next false false with
      | (.denied, s) => s.parkAccess x [l] op .protection
      | (.unmapped, s) => s.parkFault x [l] op (x.heldAgain next n)
      | (.ok pb, s) => s.startOp { op with pa := pa, split := some (first, pb) }
    | (.unmapped, s) => s.parkFault x [l] op (x.heldAgain op.addr n)
    | (.denied, s) => s.parkAccess x [l] op .protection

/-- PLDR of `w` bytes (R262). -/
def pldrIssue (w : Nat) (d : LOp) (partner : Bool) (b : BOp) (x : Issuer) (s : State) : State :=
  let regs := s.regsOf x.c
  let ok := loadDstOk regs w false d && d.noPort && bSrcOk regs 1 false b && b.noPort
  opGate ok true x.seta (linesOf (wordsOfWidth w) d ++ bLinesOf 1 b) true x s (fun s =>
    let one (s : State) (l : Nat) : State :=
      match (x.cr.thread l).pair with
      | none => s.park x.c [l] .illegalOperand 0#64
      | some ref =>
        match s.pairLaunches.find ref.launch with
        | none => s.park x.c [l] .illegalOperand 0#64
        | some p =>
          let t := if partner then p.q else p.p
          let r := (if partner then ref.j else ref.i).toNat
          let off := (x.cr.readBW l false b).toNat
          let ea := (t.base + r * t.stride 1 + off) % 2 ^ 64
          if off % w ≠ 0 then s.park x.c [l] .misaligned (BitVec.ofNat 64 ea)
          else if t.size 0 * 4 < off + w then s.park x.c [l] .protection (BitVec.ofNat 64 ea)
          else s.startRecord x l (x.newOp s (.load false) [l] x.seta (.lane d) ea w 0 []) b.size
    (x.lanes.foldl one s).advance x.c b.size)

/-- PLDR_B32 (R262). -/
def execPldrB32 (d : LOp) (partner : Bool) (b : BOp) (s : State) : Host.Outcome State Fault Refusal :=
  withRun s (pldrIssue 4 d partner b)

/-- PLDR_B64 (R262). -/
def execPldrB64 (d : LOp) (partner : Bool) (b : BOp) (s : State) : Host.Outcome State Fault Refusal :=
  withRun s (pldrIssue 8 d partner b)

/-- PLDR_B128 (R262). -/
def execPldrB128 (d : LOp) (partner : Bool) (b : BOp) (s : State) : Host.Outcome State Fault Refusal :=
  withRun s (pldrIssue 16 d partner b)

/-- The registers that `pret` names exist (R263). -/
def pretRegsOk (regs n : Nat) (a : LOp) : Bool :=
  match a with
  | .v r => decide (r.val + n ≤ regs)
  | .o r => decide (r.val + n ≤ 8)
  | _ => false

/-- PRET (R263). -/
def execPret (a : LOp) (num : BitVec 3) (s : State) : Host.Outcome State Fault Refusal :=
  withRun s (fun x s =>
    let n := num.toNat
    if !(decide (1 ≤ n ∧ n ≤ 4) && pretRegsOk (s.regsOf x.c) n a) then s.raise x .illegalOperand 0#64
    else if !x.isLast 1 then s.raise x .illegalOp 0#64
    else if (linesOf n a).any (fun k => x.cr.absent.contains k) then s.stall x.c x.lanes (.regMiss (linesOf n a))
    else
      let one (s : State) (l : Nat) : State :=
        let t := x.cr.thread l
        match t.pair with
        | none => s.park x.c [l] .illegalOperand 0#64
        | some ref =>
          let width := ((s.pairLaunches.find ref.launch).map (fun p => blk p.block 0 4 2 + 1)).getD 0
          if width < n then s.park x.c [l] .illegalOperand 0#64
          else
            (s.markPair ref (.returned ((List.range n).map (fun k => t.readW l (if k = 0 then a else lopPlus a k))))).exitThread x.c l false
      x.lanes.foldl one s)

/-! ### Commit (R264-R266) -/

/-- The thread that runs or ran a pair. -/
def State.pairThread (s : State) (id core place : Nat) : Option (Nat × Nat) :=
  s.crews.findSome? (fun (p : Nat × Crew) =>
    (p.2.threads.findIdx? (fun t => (t.pair.map (fun r => decide (r.launch = id ∧ r.core = core ∧ r.place = place))).getD false)).map
      (fun l => (p.1, l)))

/-- Lists an aborted pair with PAIR_ABORT and its i and j (R264, R266). -/
def State.listAbort (s : State) (id core place : Nat) : State :=
  match s.pairLaunches.find id with
  | none => s
  | some p =>
    let s := s.modPair id (fun p => { p with aborted := true })
    match s.pairThread id core place with
    | none => s
    | some (c, l) =>
      s.addList p.launch core (s.faultRec c l .pairAbort 0#64 false false false) p.time none

/-- The bytes of the accumulator components of a row. -/
def Tensor.rowRanges (t : Tensor) (r n : Nat) : List Range := (List.range n).flatMap (fun k => t.ranges true [k, r])

/-- The physical addresses of the components of a row in opened pages; `none` out of range. -/
def Tensor.rowAddrs (t : Tensor) (m : List (Nat × Nat)) (r n : Nat) : List (Option Nat) :=
  (List.range n).map (fun k => if t.inRange [k, r] then some (physIn m (t.place [k, r]).1) else none)

/-- Negates an FP32 word exactly. -/
def negWord (w : Word) : Word := w ^^^ 0x80000000#32

/-- Adds components to a row: each a read, one rounded addition and a write at the home slice, as a `redg.fadd.dev`: all four views apply it
at one moment (R136, R264). A poisoned line stays so: ERR 2. -/
def State.addRow (s : State) (id core : Nat) (rows : List (Option Nat)) (f : List Word) : State :=
  (rows.zip f).foldl (fun s p =>
    match p.1 with
    | none => s
    | some pa =>
      let old := BitVec.ofNat 32 (natOfBytes (s.mem.home.read pa 4))
      let bad := s.mem.poisoned pa 4
      let s := s.setMem (s.mem.writeAll (islandOfCore core) (cellsAt pa (bytesOfNat 4 (f32AddQuiet old p.2).toNat)))
      if bad then s.pairError id 2 false else s) s

/-- Marks a pair of a launch on a core. -/
def State.setPair (s : State) (id core place : Nat) (st : PairStage) : State :=
  s.markPair { launch := id, core := core, place := place, i := 0#32, j := 0#32 } st

/-- Retirement is held on a translation fault of a reserved row (R264). -/
def State.holdRetire (s : State) (id core addr : Nat) : State :=
  (s.modPart' id core (fun k => { k with rfault := some (BitVec.ofNat 64 addr, true), rwalked := false })).addWalk (.pair id core true)

/-- COMMITS a returned pair as one unit: its rows are reserved, then both halves are applied, or +f waits for the answer to −f (R264). -/
def State.commitPair (s : State) (id core place : Nat) (p : PairLaunch) (x : Pair) (f : List Word) : State :=
  let space := s.spaceOfSquad p.squad
  let n := f.length
  let local_ := decide (x.jcore = core)
  let rs := p.accp.rowRanges x.i n ++ (if local_ then p.accq.rowRanges x.j n else [])
  match s.openPages core space (pagesOf rs) with
  | (.error (a, _, .unmapped), s) => s.holdRetire id core a
  | (.error _, s) => ((s.listAbort id core place).pairError id 3 true).setPair id core place .done
  | (.ok m, s) =>
    let rows := p.accp.rowAddrs m x.i n
    if local_ then
      ((s.addRow id core rows f).addRow id core (p.accq.rowAddrs m x.j n) (f.map negWord)).setPair id core place .done
    else
      let h : Half := { id := s.nextId, pairLaunch := id, core := core, place := place, jcore := x.jcore, j := x.j, f := f, rows := rows }
      ({ s with nextId := s.nextId + 1, halves := s.halves ++ [h] }).setPair id core place .waiting

/-- A core may apply a half: what it has seen has reached every view (R133, R136). -/
def State.mayAdd (s : State) (core : Nat) : Bool := s.mem.canWriteAll (islandOfCore core)

/-- PAIR_RETIRE (R264): the oldest pair of the core that has not retired, once it has returned or been killed. DESIGN CHOICE (log 75): a thread that
`rply` mode 1 has killed is a job that the fault service ended, and no further pair of the launch is made (R269). -/
def execPairRetire (core : Nat) (s : State) : Host.Outcome State Fault Refusal :=
  .next (match (s.core core).isthmus with
    | [] => s
    | id :: _ =>
      match s.pairLaunches.find id with
      | none => s
      | some p =>
        let k := p.part core
        if k.rfault.isSome || !s.mayAdd core then s
        else
          match k.pairs.findIdx? (fun x => x.st != .done && x.st != .waiting) with
          | none => s.settleIsthmus core
          | some at_ =>
            match k.pairs[at_]? with
            | none => s
            | some x =>
              (match x.st with
                | .returned [] => s.setPair id core at_ .done
                | .returned f => s.commitPair id core at_ p x f
                | .killed => ((s.pairError id 4 false).modPair id (fun p => { p with aborted := true })).setPair id core at_ .done
                | .ended => ((s.pairError id 1 true).modPair id (fun p => { p with aborted := true })).setPair id core at_ .done
                | _ => s).settleIsthmus core)

/-- Changes a half. -/
def State.modHalf (s : State) (id : Nat) (f : Half → Half) : State := { s with halves := mapIf (fun h => h.id == id) f s.halves }

/-- B answers: applied, or refused with an error (R264, R266). -/
def State.answerHalf (s : State) (id : Nat) (answer : Option Nat) : State :=
  let at_ := s.nextId
  ({ s with nextId := at_ + 1 }).modHalf id (fun h => { h with answer := some answer, answeredAt := at_, fault := none })

/-- B's work on a half: −f is applied to row j, or the half is held, or refused (R264, R266). -/
def State.applyHalf (s : State) (h : Half) : State :=
  match s.pairLaunches.find h.pairLaunch with
  | none => s
  | some p =>
    match s.openPages h.jcore (s.spaceOfSquad p.squad) (pagesOf (p.accq.rowRanges h.j h.f.length)) with
    | (.error (a, _, .unmapped), s) =>
      (s.modHalf h.id (fun h => { h with fault := some (BitVec.ofNat 64 a, true), walked := false })).addWalk (.half h.id)
    | (.error _, s) => s.answerHalf h.id (some 3)
    | (.ok m, s) =>
      (s.addRow h.pairLaunch h.jcore (p.accq.rowAddrs m h.j h.f.length) (h.f.map negWord)).answerHalf h.id none

/-- PAIR_REMOTE_HALF (R264, R265): a half reaches B, from one core in the order sent, and is applied there in the order of arrival: while
one that has arrived is held, no other is. -/
def execPairRemoteHalf (half : Nat) (s : State) : Host.Outcome State Fault Refusal :=
  .next (match s.halves.find? (fun h => h.id == half) with
    | none => s
    | some h =>
      if h.answer.isSome || h.fault.isSome || !s.mayAdd h.jcore
          || (!h.arrived && !s.mayArrive half (clusterOfCore h.core) (clusterOfCore h.jcore))
          || s.halves.any (fun e => e.jcore == h.jcore && e.answer.isNone && e.id != half
            && (e.arrived || (e.core == h.core && decide (e.id < h.id)))) then s
      else (s.modHalf half (fun h => { h with arrived := true })).applyHalf h)

/-- PAIR_ACKNOWLEDGE (R264): A applies +f, or lists the pair where B refused (R266). Replies from one stop to another arrive in
the order in which they were sent (R314). -/
def execPairAcknowledge (half : Nat) (s : State) : Host.Outcome State Fault Refusal :=
  .next (match s.halves.find? (fun h => h.id == half) with
    | none => s
    | some h =>
      if !s.mayAdd h.core || s.halves.any (fun e => clusterOfCore e.core == clusterOfCore h.core
          && clusterOfCore e.jcore == clusterOfCore h.jcore && e.answer.isSome && decide (e.answeredAt < h.answeredAt)) then s
      else
        let s' := ({ s with halves := s.halves.filter (fun e => e.id != half) }).setPair h.pairLaunch h.core h.place .done
        match h.answer with
        | none => s
        | some none => s'.addRow h.pairLaunch h.core h.rows h.f
        | some (some e) => (s'.pairError h.pairLaunch e true).listAbort h.pairLaunch h.core h.place)

end Sys2Proof.Machine
end

