-- ==== Sys2Proof/Machine/System.lean ====
section
/-! DEFINITION. The fault service and its instructions: replay-all and the end of a fault (R278, R292), `flt` (R294), `tlbi` (R293); and
the events of walks, permits, the fault list and delivery (R274, R276, R281, R282, R284, R328). -/

namespace Sys2Proof.Machine

/-! ### Faults that engines and the part's own writes meet -/

/-- A fault-buffer entry of an engine job or a device write, for a thread's slot and lane (R276, R277, R328). -/
def State.engineFault (s : State) (core space : Nat) (addr : DWord) (w : Bool) (crew lane : Nat) (pc : DWord) : FaultEntry :=
  { w := w, x := false, e := true, count := 1, space := space, core := core, slot := (s.crew crew).slot, lane := lane, addr := addr, pc := pc }

/-- Records the fault of a held access, or lets it go on where its page is mapped by now: `clear` takes the hold away. -/
def State.walkHeld (s : State) (f : FaultEntry) (clear mark : State → State) : State :=
  match s.access f.core f.space f.addr.toNat f.w false with
  | (.unmapped, s) => mark (s.recordFault f)
  | (_, s) => clear s

/-- The address that a fault-list entry of a launch is written to next (R284). -/
def Launch.listAddr (k : Launch) : Nat := k.pkt.flist.toNat + 128 + 48 * k.fcount

/-- Where a write of a fault list goes (R284): its address, and its bytes. -/
def Launch.listBytes (k : Launch) (e : ListEntry) : Nat × List Byte :=
  let f := k.pkt.flist.toNat
  match e.phase with
  | .entry => (k.listAddr, e.record.bytes ++ bytesOfNat 8 e.time.toNat ++ bytesOfNat 8 0)
  | .count => (f, bytesOfNat 4 (min k.fcount 0xFFFFFFFF))
  | .over_ => (f + 4, bytesOfNat 4 (min k.overflows 0xFFFFFFFF))
  | .lost g => (f + 0x40 + 4 * g, bytesOfNat 4 (k.lost.get g).toNat)

/-- The pages that a write of a fault list touches. -/
def Launch.listSpots (k : Launch) (e : ListEntry) : List Nat :=
  let w := k.listBytes e
  [w.1, w.1 + (w.2.length - 1)]

/-- The first of some addresses that is not mapped for writing. -/
def State.firstUnmapped (s : State) (core space : Nat) (as_ : List Nat) : Option Nat :=
  as_.find? (fun a => (s.access core space a true false).1 == .unmapped)

/-- The cluster whose fault buffer takes a fault of a completion record: that of the launch's first cohort. -/
def Launch.homeCore (k : Launch) : Nat := 12 * k.cohorts.headD 0

/-- What a walk that names a holder finds (R274, R276). A holder that is gone, or whose fault is recorded already, is left alone. -/
def State.endWalk (s : State) (w : Walker) : State :=
  match w with
  | .lane c l => if ((s.thread c l).parked.map (fun p => decide (p.route = .walk))).getD false then s.retryHeld c l else s
  | .job id =>
    match s.job id with
    | none => s
    | some j =>
      match j.fault with
      | none => s
      | some (a, w) =>
        if j.walked || j.ended then s
        else
          s.walkHeld (s.engineFault j.core (s.spaceOfSquad j.squad) a w j.crew (j.lanes.headD 0) j.pc)
            (fun s => s.modJob id (fun j => { j with fault := none })) (fun s => s.modJob id (fun j => { j with walked := true }))
  | .half id =>
    match s.halves.find? (fun h => h.id == id) with
    | none => s
    | some h =>
      match h.fault, s.pairLaunches.find h.pairLaunch with
      | some (a, w), some p =>
        if h.walked then s
        else
          s.walkHeld (s.engineFault h.jcore (s.spaceOfSquad p.squad) a w p.crew (p.lanes.headD 0) p.pc)
            (fun s => s.modHalf id (fun h => { h with fault := none })) (fun s => s.modHalf id (fun h => { h with walked := true }))
      | _, _ => s
  | .pair id core retire =>
    match s.pairLaunches.find id with
    | none => s
    | some p =>
      let k := p.part core
      match if retire then k.rfault else k.fault with
      | none => s
      | some (a, w) =>
        if (if retire then k.rwalked else k.walked) then s
        else
          let f := s.engineFault core (s.spaceOfSquad p.squad) a w p.crew (p.lanes.headD 0) p.pc
          if retire then
            s.walkHeld f (fun s => s.modPart' id core (fun k => { k with rfault := none }))
              (fun s => s.modPart' id core (fun k => { k with rwalked := true }))
          else
            s.walkHeld f (fun s => s.modPart' id core (fun k => { k with fault := none }))
              (fun s => s.modPart' id core (fun k => { k with walked := true }))
  | .list id =>
    match s.listEntries.find? (fun e => e.id == id) with
    | none => s
    | some e =>
      let k := s.launch e.launch
      match s.firstUnmapped e.core k.pkt.space (k.listSpots e) with
      | none => { s with listEntries := mapIf (fun x => x.id == id) (fun x => { x with writeHeld := false }) s.listEntries }
      | some a => s.recordFault (s.engineFault e.core k.pkt.space (BitVec.ofNat 64 a) true 0 0 e.record.pc)
  | .record c l =>
    let a := (s.crew c).recordAddr l
    s.walkHeld (s.engineFault (s.coreOf c) (s.spaceOf c) a true c l (s.thread c l).pc)
      (fun s => s.modThread c l (fun t => { t with parked := t.parked.map (fun p => { p with writeHeld := false }) })) (fun s => s)
  | .compl launch =>
    let k := s.launch launch
    if !k.complHeld then s
    else
      s.walkHeld (s.engineFault k.homeCore k.pkt.space k.pkt.compl true 0 0 0#64) (fun s => s.writeCompletion launch) (fun s => s)
  | .line c =>
    let cr := s.crew c
    let a := cr.image + BitVec.ofNat 64 (128 * cr.evictable.headD 0)
    s.walkHeld (s.engineFault (s.coreOf c) (s.spaceOf c) a true c 0 0#64)
      (fun s => s.modCrew c (fun cr => { cr with lineHeld := false })) (fun s => s)
  | .image c =>
    match (s.crew c).awayHeld with
    | none => s
    | some n =>
      s.walkHeld (s.engineFault (s.coreOf c) (s.spaceOf c) (BitVec.ofNat 64 ((s.crew c).lineAddr n)) true c 0 0#64)
        (fun s => s.modCrew c (fun cr => { cr with awayHeld := none })) (fun s => s)
  | .save q =>
    match (s.squad q).saveHeld with
    | none => s
    | some a =>
      s.walkHeld (s.engineFault (s.squad q).core (s.spaceOfSquad q) (BitVec.ofNat 64 a) true ((s.squad q).crews.headD 0) 0 0#64)
        (fun s => s.modSquad q (fun r => { r with saveHeld := none })) (fun s => s)

/-- PAGE_WALK (R274). -/
def execPageWalk (walk : Nat) (s : State) : Host.Outcome State Fault Refusal :=
  .next (match s.walks.find walk with
    | none => s
    | some w => ({ s with walks := s.walks.del walk }).endWalk w)

/-! ### Replay-all (R278) -/

/-- The crews resident in a cluster. -/
def State.crewsIn (s : State) (cluster : Nat) : List Nat :=
  (s.crews.filter (fun (p : Nat × Crew) => p.2.resident && clusterOfCore (s.squad p.2.squad).core == cluster)).map Prod.fst

/-- Every access held by a parked thread of a crew is tried again. -/
def State.retryCrew (s : State) (c : Nat) : State :=
  (List.range (s.crew c).threads.length).foldl (fun s l => if (s.thread c l).held.isSome then s.retryHeld c l else s) s

/-- Lets every held engine job, pair launch, half and device write of a cluster try again. -/
def State.freeHolds (s : State) (cluster : Nat) : State :=
  let here (core : Nat) : Bool := clusterOfCore core == cluster
  let part (k : PairCore) : PairCore := if here k.core then { k with fault := none, rfault := none } else k
  let crew (c : Crew) : Crew := if here (s.squad c.squad).core then
      { c with lineHeld := false, awayHeld := none
               threads := c.threads.map (fun t => { t with parked := t.parked.map (fun p => { p with writeHeld := false }) }) }
    else c
  { s with
    jobs := mapIf (fun j => here j.core && !j.ended) (fun j => { j with fault := none }) s.jobs
    pairLaunches := s.pairLaunches.map (fun (p : Nat × PairLaunch) => (p.1, { p.2 with cores := p.2.cores.map part }))
    halves := mapIf (fun h => here h.jcore) (fun h => { h with fault := none }) s.halves
    listEntries := mapIf (fun e => here e.core) (fun e => { e with writeHeld := false }) s.listEntries
    squads := s.squads.map (fun (p : Nat × Squad) => (p.1, if here p.2.core then { p.2 with saveHeld := none } else p.2))
    crews := s.crews.map (fun (p : Nat × Crew) => (p.1, crew p.2)) }

/-- The launches whose completion record is held on a page fault that a cluster recorded. -/
def State.heldRecords (s : State) (cluster : Nat) : List Nat :=
  (s.launches.filter (fun (p : Nat × Launch) => p.2.complHeld && clusterOfCore p.2.homeCore == cluster)).map Prod.fst

/-- PERFORMS a replay-all in a cluster (R278). -/
def State.replayAll (s : State) (cluster : Nat) : State :=
  let s := s.modCluster cluster (fun k => { k with faults := List.replicate 8 none, dropped := false, gen := k.gen + 1#8 })
  let s := (s.crewsIn cluster).foldl State.retryCrew s
  let s := s.freeHolds cluster
  (s.heldRecords cluster).foldl State.writeCompletion s

/-- The valid bits of a fault buffer. -/
def Cluster.vmask (k : Cluster) : Nat :=
  maskOf ((List.range 8).filter (fun i => (k.faults.getD i none).isSome))

/-- The status of mode 0: the values before the clear (R292). -/
def Cluster.replayStatus (k : Cluster) : Word := BitVec.ofNat 32 (2 ^ 31 + (if k.dropped then 2 ^ 8 else 0) + k.vmask)

/-! ### The end of a fault (R292) -/

/-- An address of a space lies in the region of an entry. -/
def FaultEntry.holds (e : FaultEntry) (space : Nat) (a : DWord) : Bool := e.space == space && e.addr.toNat / 65536 == a.toNat / 65536

/-- Kills a parked thread whose access the service ends: its pair, if any, counts as ended by the service (R266, R292). -/
def State.endHeld (s : State) (c l : Nat) (h : Held) : State :=
  let pair := (s.thread c l).pair
  let s := s.killThread c l { s.faultRec c l .pageFault h.addr false false true with kill := true }
  match pair with
  | some p => if s.pairStage p = .killed then s.markPair p .ended else s
  | none => s

/-- Kills every parked thread of a cluster's squads whose held access lies in a region. -/
def State.endLanes (s : State) (cluster : Nat) (e : FaultEntry) : State :=
  let crews := (s.crews.filter (fun (p : Nat × Crew) => clusterOfCore (s.squad p.2.squad).core == cluster)).map Prod.fst
  crews.foldl (fun s c => (List.range (s.crew c).threads.length).foldl (fun s l =>
    match (s.thread c l).held with
    | some h => if e.holds (s.spaceOf c) h.addr then s.endHeld c l h else s
    | none => s) s) s

/-- Ends the engine jobs that are held on some faults, with ERR 1; a pair launch creates no further pair, and a half is refused (R264, R266,
R269). `hit` says of a core, a squad and a held fault whether it is one of them. -/
def State.endHolds (s : State) (hit : Nat → Nat → DWord → Bool) : State :=
  let on (core squad : Nat) (f : Option (DWord × Bool)) : Bool := (f.map (fun x => hit core squad x.1)).getD false
  let jobs := mapIf (fun j => on j.core j.squad j.fault) (fun j => { j with ended := true }) s.jobs
  let halves := mapIf (fun h => on h.jcore (((s.pairLaunches.find h.pairLaunch).map PairLaunch.squad).getD 0) h.fault)
    (fun h => { h with fault := none, answer := some (some 1), answeredAt := s.nextId }) s.halves
  let held (p : Nat × PairLaunch) (retire : Bool) : List (Nat × Nat) :=
    (p.2.cores.filter (fun k => on k.core p.2.squad (if retire then k.rfault else k.fault))).map (fun k => (p.1, k.core))
  let enums := s.pairLaunches.flatMap (held · false)
  let rets := s.pairLaunches.flatMap (held · true)
  let s := { s with jobs := jobs, halves := halves, nextId := s.nextId + 1 }
  let s := enums.foldl (fun s x => (s.pairError x.1 1 true).modPart' x.1 x.2 (fun k => { k with fault := none })) s
  rets.foldl (fun s x =>
    let s := (s.pairError x.1 1 true).modPart' x.1 x.2 (fun k => { k with rfault := none })
    match s.pairLaunches.find x.1 with
    | none => s
    | some p =>
      match (p.part x.2).pairs.findIdx? (fun y => y.st != .done && y.st != .waiting) with
      | none => s
      | some at_ => ((s.listAbort x.1 x.2 at_).setPair x.1 x.2 at_ .done).settleIsthmus x.2) s

/-- Ends what is held in the region of a fault-buffer entry of a cluster (R292). -/
def State.endJobs (s : State) (cluster : Nat) (e : FaultEntry) : State :=
  s.endHolds (fun core squad a => clusterOfCore core == cluster && e.holds (s.spaceOfSquad squad) a)

/-- The fault service ends a launch (R304): what of it is held on a fault ends too, a half at B with a refusal (R266, log 38). -/
def State.serviceEnds (s : State) (launch : Nat) : State :=
  if (s.launch launch).handle = 0#16 then s else (s.endLaunch launch 2).endHolds (fun _ squad _ => (s.squad squad).launch == launch)

/-- Ends the device writes held in a region (R292, R328): a list entry, a word of the list's header and a fault record are not written, a
completion record is dropped, and any other write of an image ends its launch. -/
def State.endWrites (s : State) (cluster : Nat) (e : FaultEntry) : State :=
  let here (core : Nat) : Bool := clusterOfCore core == cluster
  let entry (x : ListEntry) : ListEntry :=
    let k := s.launch x.launch
    if here x.core && x.writeHeld && (k.listSpots x).any (fun a => e.holds k.pkt.space (BitVec.ofNat 64 a)) then
      { x with writeHeld := false, writeEnded := true }
    else x
  let lines := (s.crews.filter (fun (p : Nat × Crew) => here (s.squad p.2.squad).core && p.2.lineHeld
    && e.holds (s.spaceOf p.1) (p.2.image + BitVec.ofNat 64 (128 * p.2.evictable.headD 0)))).map (fun p => p.1)
  let aways := (s.crews.filter (fun (p : Nat × Crew) => here (s.squad p.2.squad).core
    && (p.2.awayHeld.map (fun n => e.holds (s.spaceOf p.1) (BitVec.ofNat 64 (p.2.lineAddr n)))).getD false)).map (fun p => p.1)
  let saves := (s.squads.filter (fun (p : Nat × Squad) => here p.2.core
    && (p.2.saveHeld.map (fun a => e.holds (s.spaceOfSquad p.1) (BitVec.ofNat 64 a))).getD false)).map (fun p => p.1)
  let launches := (lines ++ aways).map s.launchIdOf ++ saves.map (fun q => (s.squad q).launch)
  let crew (p : Nat × Crew) : Nat × Crew :=
    if here (s.squad p.2.squad).core then
      let threads := p.2.threads.zipIdx.map (fun t =>
        if (t.1.parked.map Parked.writeHeld).getD false && e.holds (s.spaceOf p.1) (p.2.recordAddr t.2) then
          { t.1 with parked := t.1.parked.map (fun x => { x with writeHeld := false, writeEnded := true }) }
        else t.1)
      (p.1, { p.2 with threads := threads })
    else p
  let compl (p : Nat × Launch) : Nat × Launch :=
    if p.2.complHeld && here p.2.homeCore && e.holds p.2.pkt.space p.2.pkt.compl then (p.1, { p.2 with complHeld := false, complEnded := true })
    else p
  let s := { s with listEntries := s.listEntries.map entry, crews := s.crews.map crew, launches := s.launches.map compl }
  let s := lines.foldl (fun s c => s.modCrew c (fun cr => { cr with lineHeld := false, evictable := [] })) s
  let s := aways.foldl (fun s c => s.modCrew c (fun cr => { cr with awayHeld := none, away := [] })) s
  let s := saves.foldl (fun s q => s.modSquad q (fun r => { r with saveHeld := none, pieces := [] })) s
  launches.foldl (fun s k => s.endLaunch k 4) s

/-- ENDS the faults of a fault-buffer entry (R292): the status. -/
def State.endEntry (s : State) (cluster i : Nat) : Word × State :=
  match (s.cluster cluster).faults.getD i none with
  | none => (0x80000000#32, s)
  | some e =>
    let s := ((s.endLanes cluster e).endJobs cluster e).endWrites cluster e
    (BitVec.ofNat 32 (2 ^ 31 + 2 ^ i), s.modCluster cluster (fun k => { k with faults := k.faults.set i none }))

/-! ### The words (R42, R292-R294) -/

/-- The issue of a system word: its operands, then R42, then its own operand checks. -/
def systemGate (ok : Bool) (values : Bool) (x : Issuer) (s : State) (k : State → State) : State :=
  if !ok then s.raise x .illegalOperand 0#64
  else if !s.systemAllowed x.c then s.raise x .protection 0#64
  else if !values then s.raise x .illegalOperand 0#64
  else k s

/-- The cluster of a run. -/
def State.clusterOfRun (s : State) (x : Issuer) : Nat := clusterOfCore (s.coreOf x.c)

/-- RPLY_REPLAY_ALL (R292). -/
def execRplyReplayAll (d : UOp) (s : State) : Host.Outcome State Fault Refusal :=
  withRun s (fun x s =>
    systemGate (electDstOk d) true x s (fun s =>
      let cl := s.clusterOfRun x
      let st := (s.cluster cl).replayStatus
      ((s.replayAll cl).writeUni x.c d [st]).advance x.c 1))

/-- RPLY_END_ENTRY (R292). -/
def execRplyEndEntry (d a : UOp) (s : State) : Host.Outcome State Fault Refusal :=
  withRun s (fun x s =>
    let i := (x.cr.readU a).toNat
    systemGate (electDstOk d && uSrcOk 1 a) (decide (i < 8)) x s (fun s =>
      let r := s.endEntry (s.clusterOfRun x) i
      (r.2.writeUni x.c d [r.1]).advance x.c (1 + a.lits.length)))

/-- The words of a fault-buffer entry (R277). -/
def FaultEntry.words (e : FaultEntry) : List Word :=
  let bit (b : Bool) (k : Nat) : Nat := if b then 2 ^ k else 0
  [BitVec.ofNat 32 (2 ^ 31 + bit e.w 30 + bit e.x 29 + bit e.e 28 + e.count * 2 ^ 16 + e.space),
    BitVec.ofNat 32 (e.core % 12 * 2 ^ 9 + e.slot * 2 ^ 5 + e.lane), e.addr.lo, e.addr.hi, e.pc.lo, e.pc.hi, 0#32, 0#32]

/-- The status word of a fault buffer (R277). -/
def Cluster.status (k : Cluster) : Word :=
  BitVec.ofNat 32 ((if k.dropped then 2 ^ 31 else 0) + k.validFaults * 2 ^ 16 + k.vmask * 2 ^ 8 + k.gen.toNat)

/-- Word b of entry a of a fault buffer, or its status word for a = 8 (R294). -/
def Cluster.faultWord (k : Cluster) (a b : Nat) : Word :=
  if a = 8 then k.status else (((k.faults.getD a none).map FaultEntry.words).getD []).getD b 0#32

/-- FLT (R294). -/
def execFlt (d a b : UOp) (s : State) : Host.Outcome State Fault Refusal :=
  withRun s (fun x s =>
    let i := (x.cr.readU a).toNat
    let n := (x.cr.readU b).toNat
    systemGate (electDstOk d && uSrcOk 1 a && uSrcOk 1 b) (decide ((i < 8 ∧ n < 8) ∨ (i = 8 ∧ n = 0))) x s (fun s =>
      (s.writeUni x.c d [(s.cluster (s.clusterOfRun x)).faultWord i n]).advance x.c (uSize a b)))

/-- TLBI (R293): the run stalls at the word until every TLB has removed the entries. -/
def execTlbi (d a b : UOp) (s : State) : Host.Outcome State Fault Refusal :=
  withRun s (fun x s =>
    let v := (x.cr.readU b).toNat
    let n := 1 + b.lits.length
    systemGate (electDstOk d && a.pair?.isSome && uSrcOk 1 b) (bitsOf v 18 14 == 0 && bitsOf v 16 2 != 3) x s (fun s =>
      s.stall x.c x.lanes (.tlbi (x.cr.readUD a).toNat (bitsOf v 0 16) (bitsOf v 16 2) d.reg? n (x.isLast n))))

/-- A translation is one that `tlbi` names (R293). -/
def TlbEntry.named (e : TlbEntry) (va space kind : Nat) : Bool :=
  if kind = 0 then e.covers space va else if kind = 1 then e.space == space else true

/-- Removes translations from every TLB of a partition. -/
def State.invalidate (s : State) (part va space kind : Nat) : State :=
  let core (p : Nat × Core) : Nat × Core :=
    if s.partOfCore p.1 = part then (p.1, { p.2 with tlb := p.2.tlb.filter (fun e => !e.named va space kind) }) else p
  let cluster (p : Nat × Cluster) : Nat × Cluster :=
    if s.partOfCore (12 * p.1) = part then (p.1, { p.2 with tlb := p.2.tlb.filter (fun e => !e.named va space kind) }) else p
  { s with cores := s.cores.map core, clusters := s.clusters.map cluster }

/-- A `tlbi` that a thread stands at. -/
def Stall.isTlbi : Stall → Bool
  | .tlbi _ _ _ _ _ _ => true
  | _ => false

/-- TLBI_DONE (R293): the earliest `tlbi` of a crew, by lane, is done, and the threads that stand at it go on. -/
def execTlbiDone (crew : Nat) (s : State) : Host.Outcome State Fault Refusal :=
  let cr := s.crew crew
  let at_ (t : Thread) : Bool := (t.stall.map Stall.isTlbi).getD false && t.st == .running
  .next (match cr.threads.find? at_ with
    | none => s
    | some t =>
      match t.stall with
      | some (.tlbi va space kind sd size last) =>
        let lanes := (List.range cr.threads.length).filter (fun l => at_ (cr.thread l) && (cr.thread l).stall == t.stall && (cr.thread l).pc == t.pc)
        let s := s.invalidate (s.partOfCore (s.coreOf crew)) va space kind
        let s := (s.supersede crew sd.toList).writeStatus crew sd 0x80000000#32
        s.modThreads crew lanes (fun _ t => { t with stall := none, pc := t.pc + BitVec.ofNat 64 (4 * size), mid := !last })
      | _ => s)

/-! ### Permits, the fault list and delivery -/

/-- PERMIT_BACKOFF_EXPIRY (R281): the lane executes its word again. -/
def execPermitBackoffExpiry (crew lane : Nat) (s : State) : Host.Outcome State Fault Refusal :=
  .next (if (s.thread crew lane).stall = some .permit ∧ (s.thread crew lane).backoff = 0 then
      s.modThread crew lane (fun t => { t with stall := none })
    else s)

/-- The fault list has accepted an entry, or counted it as lost: its lane's permit comes back, and the cause is to be delivered (R281). -/
def State.acceptEntry (s : State) (e : ListEntry) : State :=
  let s := { s with listEntries := s.listEntries.filter (fun x => x.id != e.id) }
  match e.permit with
  | none => s
  | some (c, l) =>
    (s.returnPermit e.core).modThread c l (fun t =>
      { t with parked := t.parked.map (fun p => if p.route = .list then { p with route := .deliver } else p) })

/-- An entry goes on to its next phase. -/
def State.listPhase (s : State) (e : ListEntry) (p : ListPhase) : State :=
  { s with listEntries := mapIf (fun x => x.id == e.id) (fun x => { x with phase := p, writeHeld := false, writeEnded := false }) s.listEntries }

/-- An entry is not written: it is counted in FOVER, and in OVER, which is written next (R284, R328). -/
def State.loseEntry (s : State) (e : ListEntry) : State :=
  (s.modLaunch e.launch (fun k => { k with overflows := k.overflows + 1, fover := k.fover + 1 })).listPhase e .over_

/-- A write of a fault list is made: COUNT is raised after an entry, and a word of the header ends it (R284). -/
def State.listWritten (s : State) (e : ListEntry) : State :=
  match e.phase with
  | .entry => (s.modLaunch e.launch (fun k => { k with fcount := k.fcount + 1 })).listPhase e .count
  | _ => s.acceptEntry e

/-- A write of a fault list is not made: an entry is lost, and the header is left as it stands (R328). -/
def State.listRefused (s : State) (e : ListEntry) : State :=
  match e.phase with
  | .entry => s.loseEntry e
  | _ => s.acceptEntry e

/-- A write of the part at system scope that may lie in two pages. -/
def State.devWrite2 (s : State) (core space va : Nat) (bs : List Byte) : DevWrite :=
  let n := min bs.length (65536 - va % 65536)
  if n = bs.length then s.devWrite core space va bs
  else
    match (s.access core space (va + n) true false).1 with
    | .unmapped => .held s
    | .denied => .denied s
    | .ok _ =>
      match s.devWrite core space va (bs.take n) with
      | .done s => s.devWrite core space (va + n) (bs.drop n)
      | d => d

/-- FAULT_LIST_WRITE (R284): the next write that an entry asks for, the entry and then a word of the header. -/
def execFaultListWrite (entry : Nat) (s : State) : Host.Outcome State Fault Refusal :=
  .next (match s.listEntries.find? (fun e => e.id == entry) with
    | none => s
    | some e =>
      let k := s.launch e.launch
      if k.pkt.flist = 0#64 then (s.modLaunch e.launch (fun k => { k with fover := k.fover + 1 })).acceptEntry e
      else if e.writeEnded then s.listRefused e
      else if e.writeHeld then s
      else if e.phase = .entry ∧ k.pkt.flCap ≤ k.fcount then s.loseEntry e
      else
        let w := k.listBytes e
        match s.devWrite2 e.core k.pkt.space w.1 w.2 with
        | .done s => s.listWritten e
        | .held s =>
          ({ s with listEntries := mapIf (fun x => x.id == entry) (fun x => { x with writeHeld := true }) s.listEntries }).addWalk (.list entry)
        | .denied s => s.listRefused e)

/-- TRAP_DELIVERY (R282). -/
def execTrapDelivery (crew lane : Nat) (s : State) : Host.Outcome State Fault Refusal :=
  .next (if (s.crew crew).resident then s.deliver crew lane else s)

end Sys2Proof.Machine
end

