-- ==== Sys2Proof/Machine/Preempt.lean ====
section
/-! DEFINITION. Pre-emption: `ctxs` (R295), stopping and saving a squad (R289), the write-back of its lines in the layout of R287 (R72),
pre-emption by priority (R307), and the restore (R289). -/

namespace Sys2Proof.Machine

/-! ### Stopping (R289, R295) -/

/-- The squad of a running launch of a partition with an image address, that `ctxs` may name (R295). DESIGN CHOICE (log 79): of
several with that address, in launches of several spaces, the first created. -/
def State.squadAt (s : State) (part : Nat) (image : DWord) : Option Nat :=
  (s.squads.find? (fun (p : Nat × Squad) =>
    p.2.image == image && (p.2.st == .resident || p.2.st == .stopping || p.2.st == .held) && (p.2.kind == .ordinary || p.2.kind == .handler)
      && (s.launch p.2.launch).part == part && (s.launches.find p.2.launch).isSome && !(s.launch p.2.launch).ended)).map Prod.fst

/-- Starts to stop a resident squad: none of its crews is selected again (R289). -/
def State.stopSquad (s : State) (q : Nat) : State :=
  s.modSquad q (fun r => { r with st := if r.st = .resident then .stopping else r.st })

/-- The state word of a squad (R295). -/
def Squad.stateWord (r : Squad) : Word :=
  let place := islandOfCore r.core * 2 ^ 16 + clusterOfCore r.core % 12 * 2 ^ 12 + r.core % 12 * 2 ^ 8
  BitVec.ofNat 32 (2 ^ 31 + (match r.st with
    | .resident => place
    | .held => (if r.pinned then 3 else 2) * 2 ^ 28
    | _ => 2 ^ 28))

/-- The effect of `ctxs` and of the host's register, and the state after it (R295): 0 stops and pins, 1 unpins, 2 reads. -/
def State.ctxs (s : State) (part : Nat) (image : DWord) (op : Nat) : Word × State :=
  match s.squadAt part image with
  | none => (0xC0000000#32, s)
  | some q =>
    let s : State :=
      if op = 0 then (s.stopSquad q).modSquad q (fun r => { r with pinned := true })
      else if op = 1 then s.modSquad q (fun r => { r with pinned := false })
      else s
    ((s.squad q).stateWord, s)

/-- CTXS (R295). -/
def execCtxs (d a b : UOp) (s : State) : Host.Outcome State Fault Refusal :=
  withRun s (fun x s =>
    let v := (x.cr.readU b).toNat
    systemGate (electDstOk d && a.pair?.isSome && uSrcOk 1 b) (decide (v ≤ 2)) x s (fun s =>
      let r := s.ctxs (s.partOfCore (s.coreOf x.c)) (x.cr.readUD a) v
      (r.2.writeUni x.c d [r.1]).advance x.c (1 + b.lits.length)))

/-! ### Saving (R235, R289) -/

/-- The number that stands for a squad image where a core stands otherwise, and for the chip aggregator's image record (R235). -/
def imageCore : Nat := 576

/-- A matrix job of a squad. -/
def Job.matrixOf (j : Job) (q : Nat) : Bool := j.matrix && j.squad == q

/-- A squad that is stopping can be saved: no run of it is in progress, no fault of it waits for its walk, and the job that the engine
executes has completed or is held on a recorded fault (R184, R189, R289). -/
def State.canSave (s : State) (q : Nat) : Bool :=
  let r := s.squad q
  r.st == .stopping && !r.out &&
    r.crews.all (fun c => (s.crew c).run.isNone &&
      (s.crew c).threads.all (fun t => !((t.parked.map (fun p => decide (p.route = .walk))).getD false))) &&
    s.jobs.all (fun j => !(j.matrixOf q && j.started) || (j.fault.isSome && j.walked && !j.ended))

/-- A capability moves from a core's table to the image record: counted there first (R235). -/
def State.saveCap (s : State) (core launch entry : Nat) (stage : BitVec 4) (time : DWord) : State :=
  let s := s.chipCount ⟨launch, stage, time, 1⟩
  { s with nextId := s.nextId + 1
           handoffs := s.handoffs ++ [{ id := s.nextId, giver := core, entry := entry, receiver := imageCore, launch := launch
                                        stage := stage, time := time }] }

/-- Every capability that a squad holds or its image carries, as stage, time and entry: its threads', its program's, its queued and
running tasks', and its matrix jobs'. -/
def State.squadCaps (s : State) (q : Nat) : List (BitVec 4 × DWord × Nat) :=
  let r := s.squad q
  r.caps.map (fun c => (c.stage, c.time, c.entry))
    ++ r.progCaps.flatMap (fun c => c.entries.map (fun i => (c.stage, c.time, i)))
    ++ r.tasks.map (fun t => (t.stage, t.time, t.cap))
    ++ r.crews.flatMap (fun c => ((s.crew c).tasks.filter Task.own).map (fun t => (t.entry.stage, t.entry.time, t.entry.cap)))
    ++ (s.jobs.filter (fun j => j.matrixOf q)).map (fun j => (j.stage, j.time, j.cap))

/-- A crew as its squad is saved: the lines in its share are evictable, and with them its lines in the slice SRAM (R72, R114). Fault records
stand in the image as the deliveries wrote them. -/
def Crew.saved (cr : Crew) (regs : Nat) : Crew :=
  if cr.retired then { cr with resident := false, lineHeld := false }
  else
    { cr with resident := false, lineHeld := false
              evictable := (linesToWrite regs).filter (fun n => !cr.absent.contains n) ++ cr.sliceIn.map (192 + ·)
              away := (recordLines.filter (fun n => !cr.absent.contains n)).foldl (fun a n => a.set n []) cr.away }

/-- The 4 KiB pieces of a squad image (R288): 85 of squad state, then one for each scratch unit. -/
def Squad.allPieces (r : Squad) : List Nat := List.range (85 + r.allot / 4096)

/-- The victim has no line left in its share: slice lines do not stand there (R114). -/
def Crew.shareEmpty (cr : Crew) : Bool := cr.evictable.all (fun n => decide (192 ≤ n))

/-- A slot whose victim has no line left, and which no crew took, is free. -/
def State.freeEvicted (s : State) (core slot c : Nat) : State :=
  if (s.crew c).shareEmpty && (s.core core).slot slot == .evicting c then
    s.modCore core (fun k => { k with slots := k.slots.set slot .free })
  else s

/-- SAVES a stopped squad: the slots of its crews that have not retired are evicting, until no line of the crew is left there (R52); its lines are
evictable; its identifiers, engine, session and waits stand in its image; and its capabilities pass to the image record (R289 step 3). -/
def State.saveSquad (s : State) (q : Nat) : State :=
  let r := s.squad q
  let core := r.core
  let regs := (s.launch r.launch).pkt.regs
  let s := (s.squadCaps q).foldl (fun s x => s.saveCap core r.launch x.2.2 x.1 x.2.1) s
  let s := s.discardSteals (fun t => (s.crew t.crew).squad == q)
  let slots := (r.crews.filter (fun c => (s.crew c).resident && !(s.crew c).retired)).map (fun c => ((s.crew c).slot, c))
  let k := s.core core
  let held := k.engine.holder == some q
  let session := k.session.filter (fun x => x.squad == q)
  let s := s.modCore core (fun k => { k with
    slots := slots.foldl (fun (l : List SlotState) x => l.set x.1 (.evicting x.2)) k.slots
    session := k.session.filter (fun x => x.squad != q)
    takes := k.takes.filter (fun w => w.squad != q)
    engine := if held then {} else k.engine })
  let s := r.crews.foldl (fun s c => s.modCrew c (fun cr => cr.saved regs)) s
  let s := { s with jobs := mapIf (fun j => j.matrixOf q) (fun j => { j with core := imageCore }) s.jobs, fresh := s.fresh + 1 }
  let s := s.modSquad q (fun r => { r with
    out := true, savedEngine := if held then some k.engine else none, savedSession := session
    savedTakes := k.takes.filter (fun w => w.squad == q), pieces := r.allPieces, stamp := s.fresh })
  slots.foldl (fun s x => s.freeEvicted core x.1 x.2) ((s.handEngine core).settleReserve r.launch core)

/-! ### The squad image (R119, R288) -/

/-- The address of a piece of a squad image. -/
def Squad.pieceAddr (r : Squad) (k : Nat) : Nat := (r.image + BitVec.ofNat 64 (4096 * k)).toNat

/-- The free bytes of a piece of squad state. -/
def Squad.freePiece (r : Squad) (k : Nat) : List Byte := (List.range 4096).map (fun i => Config.imageByte r.stamp (4096 * k + i))

/-- The bytes of a piece as it is written. -/
def Squad.pieceBytes (r : Squad) (k : Nat) : List Byte := if k < 85 then r.freePiece k else r.scratch.read (4096 * (k - 85)) 4096

/-- A unit of a saved squad is still written: a copy job, queued or in progress, writes into it, a multicast is landing there (R225), or an
access of its own threads is outstanding. What a multicast brings later is written to the image (R119). -/
def State.unitBusy (s : State) (q u : Nat) : Bool :=
  let unit : Region := ⟨false, q, 4096 * u, 4096, true⟩
  let lands (j : Job) : Bool := j.unlanded.any (fun x => x.2.1 == q && x.2.2.any (fun c => c.addr / 4096 == u))
  s.jobs.any (fun j => j.isCopy && (lands j || (j.leftRegions (s.spaceOfSquad j.squad)).any (fun g => g.w && g.clash unit)))
    || s.ops.any (fun op => (s.crew op.crew).squad == q && op.kind.isScratch)

/-- Writes the next piece of a saved squad's image; a unit then goes back to the core (R119). -/
def State.writePiece (s : State) (q : Nat) : State :=
  let r := s.squad q
  match r.pieces with
  | [] => s
  | k :: ks =>
    if r.saveHeld.isSome || (decide (85 ≤ k) && s.unitBusy q (k - 85)) then s
    else
      match s.devWrite r.core (s.spaceOfSquad q) (r.pieceAddr k) (r.pieceBytes k) with
      | .done s => s.modSquad q (fun r => { r with pieces := ks, units := if 85 ≤ k then r.units.drop 1 else r.units })
      | .held s => (s.modSquad q (fun r => { r with saveHeld := some (r.pieceAddr k) })).addWalk (.save q)
      | .denied s => s.imageEnd r.launch

/-- A saved squad is held once its last line is written back or taken and its image is written (R289). -/
def State.canHold (s : State) (q : Nat) : Bool :=
  let r := s.squad q
  r.st == .stopping && r.out && r.pieces.isEmpty && r.crews.all (fun c => (s.crew c).evictable.isEmpty)

/-- PRE_EMPTION (R289): a squad that is being stopped is saved, its image is written piece by piece, and then it is held. -/
def execPreEmption (squad : Nat) (s : State) : Host.Outcome State Fault Refusal :=
  .next (if s.canSave squad then s.saveSquad squad
    else if s.canHold squad then
      let r := s.squad squad
      let s := s.modSquad squad (fun r => { r with st := .held, units := [] })
      (s.bump (s.partOfCore r.core) 8 1).squadEvent squad 4
    else if (s.squad squad).st == .stopping && (s.squad squad).out then s.writePiece squad
    else s)

/-- A piece of a squad image as it stands in memory; nothing where its page is not mapped. -/
def State.memPiece (s : State) (q k : Nat) : Option (List Byte) :=
  let r := s.squad q
  let va := r.pieceAddr k
  if canonical va then (s.pageTable (s.partOfCore r.core) (s.spaceOfSquad q) va).map (fun e => s.mem.home.read (e.phys va) 4096) else none

/-- Pieces of a squad image, one after another, where all are mapped. -/
def State.memPieces (s : State) (q : Nat) : List Nat → Option (List Byte)
  | [] => some []
  | k :: ks =>
    match s.memPiece q k, State.memPieces s q ks with
    | some bs, some rest => some (bs ++ rest)
    | _, _ => none

/-- What a squad image holds that software has written to: state of the squad, the addresses of its crews' images, and its queued matrix jobs, in
each of which `crew` is an index. -/
structure WrittenImage where
  squad : Squad
  images : List DWord
  jobs : List Job
deriving DecidableEq, Repr, Inhabited

/-- What bytes of squad state stand for: their layout is not published (R288, log 20). -/
opaque Config.squadFrom : List Byte → WrittenImage

/-- A squad as an image that software has written to gives it back (R288): it holds the engine and the session that it held. -/
def Squad.rewritten (r : Squad) (q : Nat) (f : Squad) : Squad :=
  { r with arrived := f.arrived, tx := f.tx, trapVec := f.trapVec, progCaps := f.progCaps
           savedEngine := r.savedEngine.bind (fun _ => f.savedEngine.map (fun e => { e with holder := some q }))
           savedSession := r.savedSession.bind (fun _ => f.savedSession.map (fun z => { z with squad := q }))
           savedTakes := f.savedTakes.map (fun w => { w with squad := q }) }

/-- A queued matrix job of a squad as such an image gives it back, under a new number. -/
def Job.rewritten (j : Job) (q id : Nat) (r : Squad) : Job :=
  { j with id := id, core := imageCore, home := r.core, squad := q, crew := r.crews.getD j.crew 0, matrix := true, started := false, fault := none }

/-- Takes over what software has written into a squad image. -/
def State.takeWritten (s : State) (q : Nat) (f : WrittenImage) : State :=
  let r := s.squad q
  let s := s.modSquad q (fun r => r.rewritten q f.squad)
  let s := r.crews.zipIdx.foldl (fun s x => s.modCrew x.1 (fun cr => { cr with image := f.images.getD x.2 cr.image })) s
  { s with nextId := s.nextId + f.jobs.length
           jobs := s.jobs.filter (fun j => !j.matrixOf q) ++ f.jobs.zipIdx.map (fun x => x.1.rewritten q (s.nextId + x.2) r) }

/-- Reads a squad image: the scratch that stands there (R119); the squad's state is as saved, or, where the bytes of it are not those that were
written, that of whatever stands there (R288). -/
def State.readImage (s : State) (q : Nat) (bytes scratch : List Byte) : State :=
  let s := s.modSquad q (fun r => { r with scratch := Memory.write [] 0 scratch })
  if bytes = (List.range 85).flatMap (s.squad q).freePiece then s else s.takeWritten q (Config.squadFrom bytes)

/-! ### Write-back (R72, R114, R328) -/

/-- The victim whose lines still stand in a slot's share: the earliest. -/
def State.victimAt (s : State) (core slot : Nat) : Option Nat :=
  (s.crews.find? (fun (p : Nat × Crew) => p.2.slot == slot && !p.2.resident && !p.2.evictable.isEmpty && s.coreOf p.1 == core)).map Prod.fst

/-- Writes back the lowest line of a slot's victim that is written since it was fetched, and gives up those before it; nothing while that
write is held. `share` leaves slice lines aside. -/
def State.writeLine (s : State) (core slot : Nat) (share : Bool) : State :=
  match s.victimAt core slot with
  | none => s
  | some c =>
    let cr := s.crew c
    let n := cr.evictable.headD 0
    if cr.lineHeld || (share && decide (192 ≤ n)) then s
    else
      match s.evictLine c n with
      | .done s => s.freeEvicted core slot c
      | .held s => (s.modCrew c (fun cr => { cr with lineHeld := true })).addWalk (.line c)
      | .denied s => ((s.modCrew c (fun cr => { cr with evictable := [] })).freeEvicted core slot c).imageEnd (s.launchIdOf c)

/-- EVICTION_WRITEBACK (R72, R114): one line, in the background. -/
def execEvictionWriteback (core slot : Nat) (s : State) : Host.Outcome State Fault Refusal :=
  .next (s.writeLine core slot false)

/-- Fetches lines into a share: each takes the lowest evictable line of a victim there, which is written back first if it was written
(R72). A write-back that is held, or a page that is not mapped, holds the rest. -/
def State.fetchLines (s : State) (c : Nat) : List Nat → State
  | [] => s
  | n :: ns =>
    let core := s.coreOf c
    let slot := (s.crew c).slot
    let s := s.writeLine core slot true
    if ((s.victimAt core slot).map (fun v => (s.crew v).lineHeld && !(s.crew v).shareEmpty)).getD false then s
    else
      match s.fetchLine c n with
      | none => s
      | some s => State.fetchLines s c ns

/-- The lines of a placed crew that are fetched before its first selection (R71, R287). -/
def Crew.firstLines (cr : Crew) : List Nat := cr.absent.filter (fun n => decide (104 ≤ n ∧ n < 152))

/-- The lines to fetch for a crew: those before its first selection, then those that its threads stand stalled for. -/
def Crew.missing (cr : Crew) : List Nat :=
  cr.firstLines ++ (cr.threads.flatMap (fun t => match t.stall with
    | some (.regMiss lines) => if t.st == .running then lines else []
    | _ => [])).eraseDups.filter cr.absent.contains

/-- REGMISS_FETCH_DONE (R70, R71): the lines that a crew needs arrive from its image. -/
def execRegmissFetchDone (crew : Nat) (s : State) : Host.Outcome State Fault Refusal :=
  .next (if (s.crew crew).resident then s.fetchLines crew (s.crew crew).missing else s)

/-! ### The restore (R289) -/

/-- Counts the capabilities of a squad in its new core's table, before the image record's decrements (R235): the entries, in the order of
`squadCaps`. -/
def State.restoreCaps (s : State) (q core : Nat) : Option (List Nat × State) :=
  let launch := (s.squad q).launch
  let cs := s.squadCaps q
  match s.ctIncs core launch (cs.map (fun x => (x.1, x.2.1))) with
  | none => none
  | some (is, s) =>
    some (is, cs.foldl (fun s x => { s with
      nextId := s.nextId + 1
      handoffs := s.handoffs ++ [{ id := s.nextId, giver := imageCore, entry := 0, receiver := core, launch := launch
                                   stage := x.1, time := x.2.1 }] }) s)

/-- Gives entries of a core's table to the tasks that hold capabilities of their own. -/
def giveTaskEntries : List Task → List Nat → List Task
  | [], _ => []
  | t :: ts, is =>
    if t.own then { t with entry := { t.entry with cap := is.headD 0 } } :: giveTaskEntries ts is.tail else t :: giveTaskEntries ts is

/-- Gives the entries of a core's table to a squad's capabilities, in the order of `squadCaps`. -/
def State.giveEntries (s : State) (q : Nat) (is : List Nat) : State :=
  let r := s.squad q
  let n1 := r.caps.length
  let caps := (r.caps.zip is).map (fun x => { x.1 with entry := x.2 : SquadCap })
  let counts := r.progCaps.map ProgCap.count
  let before (i : Nat) : Nat := n1 + (counts.take i).sum
  let progs := r.progCaps.zipIdx.map (fun x => { x.1 with entries := (is.drop (before x.2)).take x.1.count : ProgCap })
  let n2 := n1 + counts.sum
  let tasks := r.tasks.zipIdx.map (fun x => { x.1 with cap := is.getD (n2 + x.2) 0 : TaskEntry })
  let n3 := n2 + r.tasks.length
  let running (k : Nat) : Nat := n3 + ((r.crews.take k).map (fun c => ((s.crew c).tasks.filter Task.own).length)).sum
  let n4 := running r.crews.length
  let s := r.crews.zipIdx.foldl (fun s x => s.modCrew x.1 (fun cr => { cr with
    tasks := giveTaskEntries cr.tasks (is.drop (running x.2)) })) s
  let ids := (s.jobs.filter (fun j => j.matrixOf q)).map Job.id
  let jobs := mapIf (fun j => j.matrixOf q) (fun j => { j with cap := is.getD (n4 + (ids.findIdx? (· == j.id)).getD 0) 0 }) s.jobs
  ({ s with jobs := jobs }).modSquad q (fun r => { r with caps := caps, progCaps := progs, tasks := tasks })

/-- A crew as it is placed from its image: its lines stand there until they are fetched, starvation counters restart, all else is as saved
(R70, R71, R289). -/
def Crew.restored (cr : Crew) (slot : Nat) : Crew :=
  { cr with slot := slot, resident := true, tried := false, issued := false, lineHeld := false, evictable := []
            threads := cr.threads.map (fun t => { t with starve := 0, promoted := false, clockHi := none }) }

/-- A crew comes back to a slot, which is retiring at once if the crew has retired (R52). -/
def State.restoreCrew (s : State) (core c slot : Nat) : State :=
  let s := (s.modCrew c (fun cr => cr.restored slot)).takeSlot core slot c
  if (s.crew c).retired then s.modCore core (fun k => { k with slots := k.slots.set slot (.retiring c) }) else s

/-- Places a held squad, whose image has been read, on a core that has room for it; nothing for want of room in the count table. Each thread
parked on PAGE_FAULT retries its held access, and so does a held engine job (R189). -/
def State.placeHeld (s : State) (q core : Nat) : Option State :=
  match s.restoreCaps q core with
  | none => none
  | some (is, s) =>
    let s := s.giveEntries q is
    let r := s.squad q
    let open_ := s.openSlots core
    let mine := r.crews.zip open_
    let s := if r.kind == .ordinary then s.reserveSlots r.launch core (open_.drop r.crews.length) else s
    let units := (s.freeUnits core).take (r.allot / 4096)
    let at_ := s.nextId
    let heldJob := s.jobs.any (fun j => j.matrixOf q && j.fault.isSome)
    let s := { s with nextId := at_ + 1
                      jobs := mapIf (fun j => j.matrixOf q) (fun j => { j with core := core, fault := none, walked := false }) s.jobs }
    let s := s.modSquad q (fun r => { r with
      st := .resident, out := false, core := core, units := units, placedAt := at_, savedEngine := none, savedSession := none, savedTakes := [] })
    let s := mine.foldl (fun s x => s.restoreCrew core x.1 x.2) s
    let s := s.modCore core (fun k => { k with
      engine := r.savedEngine.getD k.engine
      session := if r.savedSession.isSome then r.savedSession else k.session
      takes := k.takes ++ r.savedTakes, claim := none })
    let s := (s.handEngine core).grantBaton core
    let s := r.crews.foldl (fun s c => State.serveWaits (s.retryCrew c) c) s
    let s := if heldJob then { s with agenda := s.agenda ++ [.matrixJobComplete core] } else s
    some (s.squadEvent q 5)

/-- RESTORES a held squad on a core that has room for it (R289), with what stands in its image. Without room in the count table, or while a page
of the image is not mapped, nothing happens (log 20). -/
def State.restoreSquad (s : State) (q core : Nat) : State :=
  let r0 := s.squad q
  match s.memPieces q (List.range 85), s.memPieces q ((List.range (r0.allot / 4096)).map (85 + ·)) with
  | some bytes, some scratch => ((s.readImage q bytes scratch).placeHeld q core).getD s
  | _, _ => s

/-- SQUAD_RESTORE (R289, R307). -/
def execSquadRestore (squad core : Nat) (s : State) : Host.Outcome State Fault Refusal :=
  .next (if (s.squad squad).st == .held && s.firstIn squad core then s.restoreSquad squad core else s)

/-! ### Pre-emption by priority (R307) -/

/-- Resources of a core: slots, units and identifier entries, and what of the engine and the expand unit is in use. -/
structure Room where
  slots : Nat
  units : Nat
  ids : Nat
  engine : Option Nat
  session : Option Nat
deriving DecidableEq, Repr

/-- Adds what a squad on the core gives back: the slots of retired crews stay (R52). -/
def State.roomPlus (s : State) (m : Room) (q : Nat) (r : Squad) : Room :=
  { slots := m.slots + (r.crews.filter (fun c => !(s.crew c).retired)).length, units := m.units + r.units.length, ids := m.ids + r.tx.length
    engine := if m.engine = some q then none else m.engine, session := if m.session = some q then none else m.session }

/-- What a core has free, with what its stopping squads give back. -/
def State.roomOf (s : State) (core : Nat) : Room :=
  let k := s.core core
  let m : Room := { slots := (s.openSlots core).length, units := (s.freeUnits core).length, ids := 64 - s.txUsed core
                    engine := k.engine.holder, session := k.session.map Session.squad }
  (s.squads.filter (fun (p : Nat × Squad) => p.2.st == .stopping && !p.2.out && p.2.core == core)).foldl (fun m p => s.roomPlus m p.1 p.2) m

/-- A waiting squad would fit. -/
def State.fits (s : State) (q core : Nat) (m : Room) : Bool :=
  let r := s.squad q
  let k := s.launch r.launch
  if r.st == .held then
    s.inService core && decide (s.restoreNeed q ≤ m.slots ∧ r.allot / 4096 ≤ m.units ∧ r.tx.length ≤ m.ids)
      && (r.savedEngine.isNone || m.engine.isNone) && (r.savedSession.isNone || m.session.isNone)
  else
    s.inService core && decide (s.slotNeed r.launch core ≤ m.slots ∧ k.pkt.allot / 4096 ≤ m.units ∧ k.txWords.length ≤ m.ids)
      && k.freeFrame.isSome

/-- The cores of the cluster that a squad waits for. -/
def State.coresFor (s : State) (q : Nat) : List Nat := coresIn (s.squad q).cluster

/-- A squad that a distributor may pre-empt for one of a priority (R307). -/
def State.mayPreempt (s : State) (prio : Nat) (v : Squad) : Bool :=
  v.st == .resident && v.kind == .ordinary && !v.pinned && !v.crews.isEmpty && decide ((s.launch v.launch).pkt.prio < prio)

/-- Comes earlier in the order of choice: lower priority, then later placement. -/
def State.chosenBefore (s : State) (a b : Nat × Squad) : Bool :=
  let pa := (s.launch a.2.launch).pkt.prio
  let pb := (s.launch b.2.launch).pkt.prio
  decide (pa < pb ∨ (pa = pb ∧ b.2.placedAt < a.2.placedAt))

/-- Puts a squad in the order of choice. -/
def State.insertVictim (s : State) (x : Nat × Squad) : List (Nat × Squad) → List (Nat × Squad)
  | [] => [x]
  | y :: ys => if s.chosenBefore x y then x :: y :: ys else y :: State.insertVictim s x ys

/-- The squads of a cluster that may be pre-empted for a squad, in the order of choice. -/
def State.victims (s : State) (q : Nat) : List (Nat × Squad) :=
  let prio := (s.launch (s.squad q).launch).pkt.prio
  (s.squads.filter (fun (p : Nat × Squad) => s.mayPreempt prio p.2 && (s.coresFor q).contains p.2.core)).foldr s.insertVictim []

/-- Picks victims until those on one core free it: the core, and its victims (R307). -/
def State.pickVictims (s : State) (q : Nat) : List (Nat × Squad) → List (Nat × Squad) → Option (Nat × List Nat)
  | _, [] => none
  | took, v :: vs =>
    let took := took ++ [v]
    let mine := took.filter (fun x => x.2.core == v.2.core)
    if s.fits q v.2.core (mine.foldl (fun m x => s.roomPlus m x.1 x.2) (s.roomOf v.2.core)) then some (v.2.core, mine.map Prod.fst)
    else State.pickVictims s q took vs

/-- PRIORITY_PRE_EMPTION (R307): in hardware mode, for a waiting squad that no core of its cluster can take or is being freed for. -/
def execPriorityPreEmption (squad : Nat) (s : State) : Host.Outcome State Fault Refusal :=
  let r := s.squad squad
  .next (if s.waiting squad && (s.part (s.launch r.launch).part).hwPreempt
      && (s.coresFor squad).all (fun c => !s.fits squad c (s.roomOf c)) then
      match s.pickVictims squad [] (s.victims squad) with
      | none => s
      | some (core, vs) => (vs.foldl State.stopSquad s).modCore core (fun k => { k with claim := some squad })
    else s)

end Sys2Proof.Machine
end

