-- ==== Sys2Proof/Machine/Sched.lean ====
section
/-! DEFINITION. Readiness, selection and the clause fetch (R14, R15, R54, R55), starvation (R57), the join hold (R58) and the end of a nap
(R60). -/

namespace Sys2Proof.Machine

/-! ### Readiness (R54) -/

/-- A stall on a port is over: every queue that its word pops holds enough entries, and its push has a credit (R155). -/
def State.portOver (s : State) (c l : Nat) (need : List (Nat × Nat)) (push : Option Nat) : Bool := (s.shortPort c l need push).isNone

/-- A queue of a core has room (R186, R213, R267). -/
def State.queueRoom (s : State) (core : Nat) : QueueKind → Bool
  | .matrix => decide ((s.jobs.filter (fun j => j.matrix && j.core == core)).length < 8)
  | .copy => decide ((s.copyJobs core).length < 16)
  | .pair => decide ((s.core core).isthmus.length < 4)

/-- What a lane stalled for has come: it executes its word again. Fences, back-off and `tlbi` end by their own events. -/
def State.stallOver (s : State) (c l : Nat) (why : Stall) : Bool :=
  let cr := s.crew c
  match why with
  | .portEmpty need push => s.portOver c l need push
  | .portFull need push => s.portOver c l need push
  | .flagFull f lanes => lanes.all (fun m => (cr.thread m).flags.get f != 15#4 || (cr.thread m).st == .exited)
  | .waitsFull => decide (cr.waits.length < 16)
  | .fence _ _ _ _ => false
  | .permit => false
  | .queueFull q => s.queueRoom (s.coreOf c) q
  | .countTable core launch stage time => s.ctRoom core launch stage time
  | .regMiss lines => lines.all (fun n => !cr.absent.contains n)
  | .tlbi _ _ _ _ _ _ => false
  | .termStore =>
    match s.sessionOf cr.squad, (cr.thread l).xopen with
    | some z, some f => !z.storeFull f
    | _, _ => true

/-- The header word of a thread's clause, where it can be fetched. -/
def State.peekHeader (s : State) (c : Nat) (hdr : DWord) : Option Word :=
  match (s.fetchWord (s.coreOf c) (s.spaceOf c) hdr.toNat).1 with
  | .ok w => some w
  | .error _ => none

/-- The flags that a header's WAIT names all count zero for a thread. -/
def Thread.waitMet (t : Thread) (hdr : Word) : Bool :=
  (List.range 12).all (fun n => !hdr.getLsbD (16 + n) || t.flags.get n == 0#4)

/-- A thread is ready (R54). One whose header cannot be fetched is selected, and its fetch faults. -/
def State.ready (s : State) (c l : Nat) : Bool :=
  let t := s.thread c l
  t.st == .running && (match t.stall with
    | some w => s.stallOver c l w
    | none => true) &&
    (t.mid || (match s.peekHeader c t.pc with
      | some h => t.waitMet h
      | none => true))

/-- The ready lanes of a crew. -/
def State.readyLanes (s : State) (c : Nat) : List Nat := (List.range (s.crew c).threads.length).filter (s.ready c)

/-! ### Selection (R55, R58) -/

/-- The lowest PC of some lanes. -/
def Crew.lowestPc (cr : Crew) : List Nat → Option DWord
  | [] => none
  | l :: ls =>
    match Crew.lowestPc cr ls with
    | none => some (cr.thread l).pc
    | some p => if p.ult (cr.thread l).pc then some p else some (cr.thread l).pc

/-- The PC of the next run (R55): that of promoted threads, else of those without a yield mark, else any. -/
def Crew.headPc (cr : Crew) (ready : List Nat) : Option DWord :=
  let promoted := ready.filter (fun l => (cr.thread l).promoted && decide (1024 ≤ (cr.thread l).starve))
  let plain := ready.filter (fun l => !(cr.thread l).yieldMark)
  cr.lowestPc (if !promoted.isEmpty then promoted else if !plain.isEmpty then plain else ready)

/-- The ready lanes at a PC that stand at one word of one clause: those like the lowest of them. -/
def Crew.runAt (cr : Crew) (ready : List Nat) (pc : DWord) : List Nat :=
  let at_ := ready.filter (fun l => (cr.thread l).pc == pc)
  let t := cr.thread (at_.headD 0)
  at_.filter (fun l => (cr.thread l).mid == t.mid && (!t.mid || (cr.thread l).clhdr == t.clhdr))

/-- Some thread of the crew stands below a header, neither exited nor parked (R58). -/
def Crew.someBelow (cr : Crew) (hdr : DWord) : Bool :=
  cr.threads.any (fun t => t.st != .exited && t.st != .parked && t.pc.ult hdr)

/-- A run at a header is held at the join (R58): a hold runs there already, or J is set, none runs, and a thread stands below. -/
def State.joinHolds (s : State) (c : Nat) (run : List Nat) : Bool :=
  let cr := s.crew c
  let t := cr.thread (run.headD 0)
  if t.mid || run.any (fun l => (cr.thread l).joined) then false
  else
    match cr.hold with
    | some (h, _) => h == t.pc
    | none => ((s.peekHeader c t.pc).map (fun w => w.getLsbD 6)).getD false && cr.someBelow t.pc

/-- Parks each lane at a header that has a deferred cause: it is delivered there, before WAIT is tested (R130, R188). -/
def State.parkAllDeferred (s : State) (c : Nat) : State :=
  (List.range (s.crew c).threads.length).foldl (fun s l => s.parkDeferred c l) s

/-- FORMS a crew's next run (R55). -/
def State.select (s : State) (c : Nat) : State :=
  let s := (s.parkAllDeferred c).modCrew c (fun cr => { cr with tried := true })
  let cr := s.crew c
  let ready := s.readyLanes c
  match cr.headPc ready with
  | none => s
  | some pc =>
    let run := cr.runAt ready pc
    let s := s.modCrew c (fun cr => { cr with threads := cr.threads.map (fun t => { t with yieldMark := false }) })
    if s.joinHolds c run then
      let s := s.modThreads c run (fun _ t => { t with st := .heldAtJoin, starve := 0 })
      s.modCrew c (fun cr => { cr with hold := some (cr.hold.getD (pc, 64)) })
    else
      let t := cr.thread (run.headD 0)
      let hdr := if t.mid then t.clhdr else pc
      let idx := if t.mid then (pc - hdr).toNat / 4 - 1 else 0
      let s := s.modThreads c run (fun _ t => { t with stall := none, joined := false, promoted := false })
      let s := s.modCrew c (fun cr => { cr with run := some { lanes := run, hdr := hdr, hword := none, words := [], idx := idx } })
      { s with agenda := s.agenda ++ [.clauseFetchDone c] }

/-- A crew may be selected from: it is on its core with the lines that are fetched before its first selection, is not being stopped, and has
no run in progress (R55, R71, R289). -/
def State.selectable (s : State) (c : Nat) : Bool :=
  let cr := s.crew c
  cr.resident && !cr.retired && cr.run.isNone && (s.squad cr.squad).st == .resident && cr.firstLines.isEmpty

/-- SELECTION (R55). -/
def execSelection (crew : Nat) (s : State) : Host.Outcome State Fault Refusal :=
  .next (if s.selectable crew then s.select crew else s)

/-! ### The clause fetch (R14, R15, R274) -/

/-- The header's own faults: a reserved bit, or a flag code of 12 to 14 (R15). -/
def headerBad (h : Word) : Bool :=
  let a := bitsOf h.toNat 12 4
  let b := bitsOf h.toNat 8 4
  bitsOf h.toNat 0 5 != 0 || (decide (12 ≤ a) && a != 15) || (decide (12 ≤ b) && b != 15)

/-- Kills a lane that the trap vector led to a header without E: its record as delivered, with cause ILLEGAL_OP (R282). -/
def State.killVector (s : State) (c l : Nat) : State :=
  let r := (s.thread c l).frec
  (s.modThread c l (fun t => { t with inHandler := false })).killThread c l { r with cause := BitVec.ofNat 6 Cause.illegalOp.code }

/-- The checks of a header for the lanes that enter it, and its start for those that pass (R15, R30). A vector's E is tested before all else
of it, as the lane does not count as being in its handler yet (R282). -/
def State.enterClause (s : State) (c : Nat) (run : Run) (h : Word) (ws : List Word) : State :=
  let e := h.getLsbD 5
  let how (l : Nat) : Arrival := (s.thread c l).arrival
  let dead := if e then [] else run.lanes.filter (fun l => how l == .vector)
  let bad := if e then [] else run.lanes.filter (fun l => how l == .entry)
  let rest := run.lanes.filter (fun l => !dead.contains l)
  let s := dead.foldl (fun s l => s.killVector c l) s
  if headerBad h then s.park c rest .illegalOp 0#64
  else
    let s := s.park c bad .illegalOp 0#64
    s.modCrew c (fun cr =>
      match cr.run with
      | none => cr
      | some r =>
        let r := { r with hword := some h, words := ws }
        let cr := r.lanes.foldl (fun cr l => cr.modThread l (fun t =>
          { t.putQ 0#32 0#32 with mid := true, clhdr := r.hdr, pc := r.wordAddr 0, arrival := .fall })) cr
        { cr with run := some r })

/-- COMPLETES a clause fetch: the run has its words, or its lanes park with the fetch's fault at the PC where they stand. -/
def State.fetchDone (s : State) (c : Nat) (run : Run) : State :=
  match s.fetchClause (s.coreOf c) (s.spaceOf c) run.hdr with
  | (.ok (h, ws), s) =>
    if (s.thread c (run.lanes.headD 0)).mid then
      s.modCrew c (fun cr => { cr with run := cr.run.map (fun r => { r with hword := some h, words := ws }) })
    else s.enterClause c run h ws
  | (.error (.unmapped, va), s) =>
    run.lanes.foldl (fun s l =>
      let t := s.thread c l
      s.parkLane c l .pageFault (BitVec.ofNat 64 va) false false
        (some { op := none, fetch := true, write := false, addr := BitVec.ofNat 64 va, after := t.pc, mid := t.mid })) s
  | (.error (_, va), s) => s.park c run.lanes .protection (BitVec.ofNat 64 va)

/-- CLAUSE_FETCH_DONE (R14). -/
def execClauseFetchDone (crew : Nat) (s : State) : Host.Outcome State Fault Refusal :=
  .next (match (s.crew crew).run with
    | none => s
    | some r => if (s.crew crew).resident && r.hword.isNone then s.fetchDone crew r else s)

/-! ### Starvation, joins and naps -/

/-- The starvation count of a thread whose crew has issued a word for other lanes: it rises where the thread is ready, and is 0 where it is
not (R57). -/
def State.starveLane (s : State) (c l : Nat) : State :=
  let t := s.thread c l
  if s.ready c l then
    let s := s.modThread c l (fun t => { t with starve := t.starve + 1 })
    if 1024 ≤ t.starve + 1 && !t.promoted then { s with agenda := s.agenda ++ [.starvationPromotion c l] } else s
  else s.modThread c l (fun t => { t with starve := 0, promoted := false })

/-- A crew has issued a word for some lanes: what its other threads' starvation counts become (R57). -/
def State.starve (s : State) (c : Nat) (lanes : List Nat) : State :=
  ((List.range (s.crew c).threads.length).filter (fun l => !lanes.contains l)).foldl (fun s l => s.starveLane c l) s

/-- STARVATION_PROMOTION (R57). -/
def execStarvationPromotion (crew lane : Nat) (s : State) : Host.Outcome State Fault Refusal :=
  .next (if 1024 ≤ (s.thread crew lane).starve then s.modThread crew lane (fun t => { t with promoted := true }) else s)

/-- The lanes that a hold frees: those held at it, and those that have arrived at its header (R58). -/
def Thread.freeJoin (hdr : DWord) (t : Thread) : Thread :=
  if t.st = .heldAtJoin then { t with st := .running, joined := true }
  else if t.st = .running ∧ t.pc = hdr ∧ t.mid = false then { t with joined := true }
  else t

/-- JOIN_HOLD_END (R58). -/
def execJoinHoldEnd (crew : Nat) (s : State) : Host.Outcome State Fault Refusal :=
  let cr := s.crew crew
  .next (match cr.hold with
    | none => s
    | some (hdr, n) =>
      if cr.resident && (n == 0 || !cr.someBelow hdr) then
        s.modCrew crew (fun cr => { cr with hold := none, threads := cr.threads.map (Thread.freeJoin hdr) })
      else s)

/-- NAP_EXPIRY (R60). -/
def execNapExpiry (crew lane : Nat) (s : State) : Host.Outcome State Fault Refusal :=
  let t := s.thread crew lane
  .next (if t.st = .napping ∧ t.nap = 0 ∧ (s.crew crew).resident = true then s.modThread crew lane (fun t => { t with st := .running })
    else s)

end Sys2Proof.Machine
end

