-- ==== Sys2Proof/Machine/Shake.lean ====
section
/-! DEFINITION. SHAKE256 and XMSS, with which the module measures its firmware, verifies it and attests itself (R320, R321). spec/ names both
and gives their sizes: a 256-bit digest, trees of height 20 and 16. PRESUMED (log 9): what they compute is taken from the standards that define
them: FIPS 202 for SHAKE256; RFC 8391 with SP 800-208 for XMSS with SHAKE256, strings of 32 bytes and Winternitz parameter 16. -/

namespace Sys2Proof.Machine

/-! ### SHAKE256 (FIPS 202) -/

/-- The words of the last step of the 24 rounds. -/
def keccakConstants : List DWord :=
  [0x0000000000000001#64, 0x0000000000008082#64, 0x800000000000808A#64, 0x8000000080008000#64, 0x000000000000808B#64, 0x0000000080000001#64,
    0x8000000080008081#64, 0x8000000000008009#64, 0x000000000000008A#64, 0x0000000000000088#64, 0x0000000080008009#64, 0x000000008000000A#64]
  ++ [0x000000008000808B#64, 0x800000000000008B#64, 0x8000000000008089#64, 0x8000000000008003#64, 0x8000000000008002#64, 0x8000000000000080#64,
    0x000000000000800A#64, 0x800000008000000A#64, 0x8000000080008081#64, 0x8000000000008080#64, 0x0000000080000001#64, 0x8000000080008008#64]

/-- How far each lane x + 5y is rotated. -/
def keccakOffsets : List Nat := [0, 1, 62, 28, 27, 36, 44, 6, 55, 20, 3, 10, 43, 25, 39, 41, 45, 15, 21, 8, 18, 2, 61, 56, 14]

/-- Lane (x, y) of the state, whose coordinates count modulo 5. -/
def keccakLane (a : List DWord) (x y : Nat) : DWord := a.getD (x % 5 + 5 * (y % 5)) 0#64

/-- The state whose lane (x, y) is given. -/
def keccakState (f : Nat → Nat → DWord) : List DWord := (List.range 25).map (fun i => f (i % 5) (i / 5))

/-- Each lane with the parities of two columns beside its own. -/
def keccakTheta (a : List DWord) : List DWord :=
  let c := (List.range 5).map (fun x => (List.range 5).foldl (fun w y => w ^^^ keccakLane a x y) 0#64)
  let d := (List.range 5).map (fun x => c.getD ((x + 4) % 5) 0#64 ^^^ (c.getD ((x + 1) % 5) 0#64).rotateLeft 1)
  keccakState (fun x y => keccakLane a x y ^^^ d.getD x 0#64)

/-- The lanes rotated, and moved to their new places. -/
def keccakRhoPi (a : List DWord) : List DWord :=
  keccakState (fun x y => (keccakLane a (x + 3 * y) x).rotateLeft (keccakOffsets.getD ((x + 3 * y) % 5 + 5 * x) 0))

/-- Each lane with the two that follow it in its row. -/
def keccakChi (a : List DWord) : List DWord :=
  keccakState (fun x y => keccakLane a x y ^^^ (~~~keccakLane a (x + 1) y &&& keccakLane a (x + 2) y))

/-- One round. -/
def keccakRound (a : List DWord) (rc : DWord) : List DWord :=
  (keccakChi (keccakRhoPi (keccakTheta a))).modify 0 (· ^^^ rc)

/-- The permutation of 24 rounds. -/
def keccakF (a : List DWord) : List DWord := keccakConstants.foldl keccakRound a

/-- The bytes that SHAKE256 takes in at a time. -/
def shakeRate : Nat := 136

/-- A message with its padding. -/
def shakePad (m : List Byte) : List Byte :=
  let n := shakeRate - 1 - m.length % shakeRate
  if n = 0 then m ++ [0x9F#8] else m ++ [0x1F#8] ++ List.replicate (n - 1) 0#8 ++ [0x80#8]

/-- Takes in `n` blocks of bytes. -/
def shakeAbsorb (a : List DWord) : Nat → List Byte → List DWord
  | 0, _ => a
  | n + 1, bs =>
    let lane (i : Nat) : DWord := if i < 17 then BitVec.ofNat 64 (natOfBytes ((bs.drop (8 * i)).take 8)) else 0#64
    shakeAbsorb (keccakF (a.zipIdx.map (fun p => p.1 ^^^ lane p.2))) n (bs.drop shakeRate)

/-- SHAKE256 with 32 bytes of output. -/
def shake256 (m : List Byte) : List Byte :=
  let a := shakeAbsorb (List.replicate 25 0#64) (m.length / shakeRate + 1) (shakePad m)
  (a.take 4).flatMap (fun w => bytesOfNat 8 w.toNat)

/-! ### XMSS (RFC 8391, SP 800-208) -/

/-- A number as `n` bytes, the highest first. -/
def bigEndian (n v : Nat) : List Byte := (bytesOfNat n v).reverse

/-- The bytes of two strings, each pair XORed. -/
def xorBytes (a b : List Byte) : List Byte := (a.zip b).map (fun p => p.1 ^^^ p.2)

/-- One of the keyed hashes: 0 of a chain, 1 of two nodes, 2 of a message, 3 for keys and masks, 4 for the secrets of chains. -/
def xmssHash (kind : Nat) (key m : List Byte) : List Byte := shake256 (bigEndian 32 kind ++ key ++ m)

/-- A hash address: kind 0 in a chain, 1 in the tree over the chains' ends, 2 in the tree of keys; its three words; and which key or mask it
names. -/
def xmssAddress (kind a b c mask : Nat) : List Byte := bigEndian 12 0 ++ bigEndian 4 kind ++ [a, b, c, mask].flatMap (bigEndian 4)

/-- The key or mask of an address under a public seed. -/
def xmssPad (seed : List Byte) (kind a b c mask : Nat) : List Byte := xmssHash 3 seed (xmssAddress kind a b c mask)

/-- Two nodes hashed to the one above them. -/
def xmssNode (seed : List Byte) (kind a b c : Nat) (l r : List Byte) : List Byte :=
  let pad := xmssPad seed kind a b c
  xmssHash 1 (pad 0) (xorBytes l (pad 1) ++ xorBytes r (pad 2))

/-- `n` steps along chain `i` of one-time key `k`, from step `j` on. -/
def xmssChain (seed : List Byte) (k i : Nat) : Nat → Nat → List Byte → List Byte
  | 0, _, x => x
  | n + 1, j, x =>
    let pad := xmssPad seed 0 k i j
    xmssChain seed k i n (j + 1) (xmssHash 0 (pad 0) (xorBytes x (pad 1)))

/-- The 67 digits of a hashed message, base 16: its own, and the three of their checksum. -/
def xmssDigits (m : List Byte) : List Nat :=
  let ds := m.flatMap (fun b => [b.toNat / 16, b.toNat % 16])
  let sum := (ds.map (15 - ·)).sum
  ds ++ [sum / 256, sum / 16 % 16, sum % 16]

/-- One level of the tree over the ends of chains: pairs are hashed, and one left over goes up as it is. -/
def xmssLevel (seed : List Byte) (k level : Nat) : Nat → List (List Byte) → List (List Byte)
  | i, l :: r :: rest => xmssNode seed 1 k level i l r :: xmssLevel seed k level (i + 1) rest
  | _, rest => rest

/-- The leaf that the ends of the 67 chains of key `k` give: seven levels. -/
def xmssLeaf (seed : List Byte) (k : Nat) (ends : List (List Byte)) : List Byte :=
  ((List.range 7).foldl (fun xs level => xmssLevel seed k level 0 xs) ends).headD []

/-- The node over a leaf of index `k`, along its path. -/
def xmssRoot (seed : List Byte) (k : Nat) (leaf : List Byte) (path : List (List Byte)) : List Byte :=
  path.zipIdx.foldl (fun x p =>
    let up := xmssNode seed 2 0 p.2 (k / 2 ^ (p.2 + 1))
    if k.testBit p.2 then up p.1 x else up x p.1) leaf

/-- A signature: the index of its one-time key, what randomised the message, a place in each chain, and the path of the leaf. -/
structure XmssSignature where
  index : Nat
  random : List Byte
  chains : List (List Byte)
  path : List (List Byte)
deriving DecidableEq, Repr, Inhabited

/-- A string cut into strings of 32 bytes. -/
def strings32 (n : Nat) (bs : List Byte) : List (List Byte) := (List.range n).map (fun i => (bs.drop (32 * i)).take 32)

/-- The bytes of a signature. -/
def XmssSignature.bytes (g : XmssSignature) : List Byte := bigEndian 4 g.index ++ g.random ++ g.chains.flatten ++ g.path.flatten

/-- The signature that bytes stand for, of a tree of a height: its length is given by that. -/
def XmssSignature.ofBytes (height : Nat) (bs : List Byte) : Option XmssSignature :=
  if bs.length = 36 + 32 * (67 + height) then
    some { index := natOfBytes (bs.take 4).reverse, random := (bs.drop 4).take 32, chains := strings32 67 (bs.drop 36)
           path := strings32 height (bs.drop (36 + 32 * 67)) }
  else none

/-- The digits of a message under a root, randomised. -/
def xmssMessage (random root : List Byte) (index : Nat) (m : List Byte) : List Nat :=
  xmssDigits (xmssHash 2 (random ++ root ++ bigEndian 32 index) m)

/-- A signature of a tree of a height stands for a message under a public key. -/
def XmssPublic.verifies (key : XmssPublic) (height : Nat) (m sig : List Byte) : Bool :=
  match XmssSignature.ofBytes height sig with
  | none => false
  | some g =>
    let ds := xmssMessage g.random key.root g.index m
    let ends := (g.chains.zip ds).zipIdx.map (fun p => xmssChain key.seed g.index p.2 (15 - p.1.2) p.1.2 p.1.1)
    decide (g.index < 2 ^ height) && xmssRoot key.seed g.index (xmssLeaf key.seed g.index ends) g.path == key.root

/-- The start of chain `i` of one-time key `k`. -/
def XmssSecret.start (key : XmssSecret) (k i : Nat) : List Byte := xmssHash 4 key.chains (key.seed ++ xmssAddress 0 k i 0 0)

/-- The node of a secret key's tree at a height, by its place there. -/
def XmssSecret.node (key : XmssSecret) : Nat → Nat → List Byte
  | 0, k => xmssLeaf key.seed k ((List.range 67).map (fun i => xmssChain key.seed k i 15 0 (key.start k i)))
  | h + 1, k => xmssNode key.seed 2 0 h k (XmssSecret.node key h (2 * k)) (XmssSecret.node key h (2 * k + 1))

/-- The public key of a secret key whose tree has a height. -/
def XmssSecret.public (key : XmssSecret) (height : Nat) : XmssPublic := { root := key.node height 0, seed := key.seed }

/-- Signs a message with the one-time key of an index. -/
def XmssSecret.sign (key : XmssSecret) (height index : Nat) (m : List Byte) : XmssSignature :=
  let random := xmssHash 3 key.random (bigEndian 32 index)
  let ds := xmssMessage random (key.public height).root index m
  { index := index, random := random
    chains := ds.zipIdx.map (fun p => xmssChain key.seed index p.2 p.1 0 (key.start index p.2))
    path := (List.range height).map (fun h => key.node h ((index / 2 ^ h) ^^^ 1)) }

end Sys2Proof.Machine
end

