-- ==== Sys2Proof/Machine/HostSide.lean ====
section
/-! DEFINITION. The host's side and the module: queues and registers (R316-R319), profiling (R324, R325), host accesses to memory (R139,
R142), attestation (R321), power (R326), resets and errors (R130, R317, R320, R322). -/

namespace Sys2Proof.Machine

/-- The module runs: it has power and its firmware image was verified (R320). -/
def State.up (s : State) : Bool := s.powered && !s.bootfail

/-- A number of a partition of the split in force (R317). -/
def State.partExists (s : State) (part : Nat) : Bool :=
  decide (part < match s.split with
    | .one => 1
    | .two => 2
    | .four => 4
    | .eight => 8)

/-- An effect on a partition of a module that runs. -/
def State.onPart (s : State) (part : Nat) (k : State → State) : State := if s.up && s.partExists part then k s else s

/-! ### Submission queues (R318) -/

/-- A submission queue of a partition. -/
def Partition.queue (p : Partition) (q : Nat) : Queue := p.queues.getD q {}

/-- Entries written and not yet accepted or refused. -/
def Queue.waiting (q : Queue) : Nat := (q.tail - q.head).toNat

/-- The entries of a queue that are to be read, as submissions, oldest first: none while it is stopped or disabled. -/
def State.queueEntries (s : State) (part q : Nat) : List Submission :=
  let u := (s.part part).queue q
  if u.err || u.log == 0#5 then []
  else
    (List.range u.waiting).map (fun i =>
      { id := s.nextId + i, part := part, queue := some q, space := none
        addr := u.base + BitVec.ofNat 64 (128 * ((u.head.toNat + i) % 2 ^ u.log.toNat)), sys := true, op := none : Submission })

/-- Brings the submissions of a queue in line with its registers; QERR is set where QTAIL runs too far ahead (R318).
DESIGN CHOICE (log 81): a disabled queue's, of QLOG 0, is never set. -/
def State.syncQueue (s : State) (part q : Nat) : State :=
  let far (u : Queue) : Bool := u.log != 0#5 && decide (2 ^ u.log.toNat < u.waiting)
  let s := s.modPart part (fun p => { p with queues := p.queues.modify q (fun u => { u with err := u.err || far u }) })
  let es := s.queueEntries part q
  { s with nextId := s.nextId + es.length
           submissions := s.submissions.filter (fun u => !(u.part == part && u.queue == some q)) ++ es }

/-- Changes a queue's registers. -/
def State.modQueue (s : State) (part q : Nat) (f : Queue → Queue) : State :=
  if q < 8 then (s.modPart part (fun p => { p with queues := p.queues.modify q f })).syncQueue part q else s

/-- SUBMISSION_DOORBELL (R318). -/
def execSubmissionDoorbell (part queue : Nat) (tail : Word) (s : State) : Host.Outcome State Fault Refusal :=
  .next (s.onPart part (fun s => s.modQueue part queue (fun u => { u with tail := tail })))

/-- QUEUE_CONFIG_WRITE (R318): the low bits of QBASE read 0; a QLOG outside 0 to 16 is not written. -/
def execQueueConfigWrite (part queue : Nat) (base : DWord) (log : BitVec 5) (s : State) : Host.Outcome State Fault Refusal :=
  .next (s.onPart part (fun s =>
    s.modQueue part queue (fun u =>
      { u with err := u.err || u.head != u.tail, base := base &&& ~~~63#64, log := if log.toNat ≤ 16 then log else u.log })))

/-- QERR_CLEAR (R318). -/
def execQerrClear (part queue : Nat) (s : State) : Host.Outcome State Fault Refusal :=
  .next (s.onPart part (fun s => s.modQueue part queue (fun u => { u with err := false })))

/-! ### The control window (R295, R317, R319, R323, R324) -/

/-- REPLAY_REGISTER (R317). -/
def execReplayRegister (cluster : Nat) (s : State) : Host.Outcome State Fault Refusal :=
  .next (if s.up && decide (cluster < 48) then s.replayAll cluster else s)

/-- REPLAY_END_ENTRY_REGISTER (R317). -/
def execReplayEndEntryRegister (cluster : Nat) (index : Word) (s : State) : Host.Outcome State Fault Refusal :=
  .next (if s.up && decide (cluster < 48 ∧ index.toNat < 8) then (s.endEntry cluster index.toNat).2 else s)

/-- START_REGISTER (R319). -/
def execStartRegister (part : Nat) (handle : BitVec 16) (s : State) : Host.Outcome State Fault Refusal :=
  .next (s.onPart part (fun s =>
    match s.byHandle part handle with
    | none => s
    | some k => s.modLaunch k (fun k => { k with awaitStart := false })))

/-- HOST_CTXS_REGISTER (R295). -/
def execHostCtxsRegister (part : Nat) (image : DWord) (op : Nat) (s : State) : Host.Outcome State Fault Refusal :=
  .next (s.onPart part (fun s =>
    if op ≤ 2 then
      let r := s.ctxs part image op
      r.2.modPart part (fun p => { p with ctxsValue := r.1 })
    else s))

/-- What a requester's next read of a counter's high word returns: the word latched for it, else the counter's own (R323). -/
def Partition.highWord (p : Partition) (counter requester : Nat) : Word :=
  ((p.latches.find requester).bind (fun l => l.find counter)).getD (p.counters.getD counter 0#64).hi

/-- Latches a counter's high word for a requester. -/
def Partition.latch (p : Partition) (counter requester : Nat) (w : Word) : Partition :=
  { p with latches := p.latches.set requester (((p.latches.find requester).getD []).set counter w) }

/-- COUNTER_LOW_READ (R323). Which requester reads, the event does not say: a free value (log 2). -/
def execCounterLowRead (part counter : Nat) (s : State) : Host.Outcome State Fault Refusal :=
  .next (s.onPart part (fun s =>
    if counter < 10 then
      ({ s with fresh := s.fresh + 1 }).modPart part (fun p =>
        let v := p.counters.getD counter 0#64
        { p.latch counter (Config.choice s.fresh) v.hi with readValue := v.lo })
    else s))

/-- A LOG that a ring may have (R324). -/
def ringLog (v : DWord) (old : BitVec 5) : BitVec 5 :=
  let n := v.toNat % 32
  if n = 0 ∨ (4 ≤ n ∧ n ≤ 24) then BitVec.ofNat 5 n else old

/-- Writes a control register: its low bits that must be 0 read 0. -/
def Partition.writeReg (p : Partition) (reg : HostReg) (v : DWord) : Partition :=
  match reg with
  | .sptab => { p with sptab := v &&& ~~~0xFFF#64 }
  | .sampleBase => { p with samples := { p.samples with base := v &&& ~~~0xFFF#64 } }
  | .samplePeriod => { p with samples := { p.samples with period := v.setWidth 8 } }
  | .sampleLog => { p with samples := { p.samples with log := ringLog v p.samples.log } }
  | .sampleRptr => { p with samples := { p.samples with rptr := v.setWidth 32 } }
  | .eventBase => { p with events := { p.events with base := v &&& ~~~0xFFF#64 } }
  | .eventLog => { p with events := { p.events with log := ringLog v p.events.log } }
  | .eventRptr => { p with events := { p.events with rptr := v.setWidth 32 } }

/-- REGISTER_WRITE (R317). -/
def execRegisterWrite (part : Nat) (reg : HostReg) (value : DWord) (s : State) : Host.Outcome State Fault Refusal :=
  .next (s.onPart part (fun s => s.modPart part (fun p => p.writeReg reg value)))

/-- The cores whose slot 15 is a fault-service slot in hardware mode: exposed core 0 of each cluster of a partition (R279). -/
def State.serviceCores (s : State) (part : Nat) : List Nat :=
  ((List.range 48).map (12 * ·)).filter (fun c => s.partOfCore c == part)

/-- The modes of a partition at its set-up, its counters restarted (R319, R323), and the links that its queues, interrupts and window are bound
to: which, spec/ leaves to the set-up (R316, log 2). -/
def Partition.setUp (p : Partition) (hwFault hwPreempt hwSched : Bool) (link : Nat → Nat) : Partition :=
  { p with hwFault := hwFault, hwPreempt := hwPreempt, hwSched := hwSched, counters := List.replicate 10 0#64, latches := []
           queueLink := link 0, irqLink := link 1, windowLink := link 2 }

/-- PARTITION_SETUP (R316, R319, R323); in hardware mode the service kernel runs in each of its slots (R279). -/
def execPartitionSetup (part : Nat) (hwFault hwPreempt hwSched : Bool) (s : State) : Host.Outcome State Fault Refusal :=
  .next (s.onPart part (fun s =>
    let link (i : Nat) : Nat := Config.choice (s.fresh + i) % 2
    let s := ({ s with fresh := s.fresh + 3 }).modPart part (fun p => p.setUp hwFault hwPreempt hwSched link)
    (s.serviceCores part).foldl (if hwFault then State.startService else State.stopService) s))

/-! ### Sampling (R325) -/

/-- A thread counts in a sample: neither exited nor parked. -/
def Thread.sampled (t : Thread) : Bool := t.st != .exited && t.st != .parked

/-- The reason that a thread which waits at its PC gives. One whose stall is over waits for the pipe. -/
def State.reasonOf (s : State) (c l : Nat) (unmet : List Nat) : Nat :=
  let cr := s.crew c
  let t := cr.thread l
  let ft (f : Nat) : Bool := cr.waits.any (fun w => w.flag == f && w.lanes.contains l)
  match t.st with
  | .atBarrier => 6
  | .batonWait => 4
  | .running =>
    match t.stall.filter (fun w => !s.stallOver c l w) with
    | some (.portEmpty _ _) => 2
    | some (.portFull _ _) => 3
    | some (.flagFull f _) => if ft f then 7 else 1
    | some .waitsFull => 1
    | some (.fence _ _ _ _) => 1
    | some .permit => 5
    | some (.queueFull _) => 10
    | some (.countTable _ _ _ _) => 7
    | some (.regMiss _) => 8
    | some (.tlbi _ _ _ _ _ _) => 1
    | some .termStore => 1
    | none => if unmet.any ft then 7 else if !unmet.isEmpty then 1 else if (cr.run.map (fun r => r.hword.isNone)).getD false then 9 else 10
  | _ => 0

/-- The flags that a thread at a header waits for. -/
def State.unmetFlags (s : State) (c l : Nat) : List Nat :=
  let t := s.thread c l
  if t.mid then []
  else
    match s.peekHeader c t.pc with
    | none => []
    | some h => (List.range 12).filter (fun n => h.getLsbD (16 + n) && t.flags.get n != 0#4)

/-- The PC, lane and reason of a sample of a crew. A crew none of whose threads counts has no PC that spec/ names: a free value (log 2). -/
def State.sampleOf (s : State) (core c : Nat) : DWord × Nat × Nat :=
  let cr := s.crew c
  match (s.core core).issuedPc.find? (fun x => x.1 == c) with
  | some x => (x.2.2, x.2.1.headD 0, 0)
  | none =>
    let lanes := (List.range cr.threads.length).filter (fun l => (cr.thread l).sampled)
    match cr.lowestPc lanes with
    | none => (BitVec.ofNat 64 (Config.choice s.fresh), 0, 0)
    | some pc =>
      let l := (lanes.filter (fun l => (cr.thread l).pc == pc)).headD 0
      (pc, l, s.reasonOf c l (s.unmetFlags c l))

/-- The resident crew next in a core's rotation, from a slot on. -/
def State.nextSampled (s : State) (core : Nat) : Option (Nat × Nat) :=
  let k := s.core core
  ((List.range 16).map (fun i => (k.sampleSlot + i) % 16)).findSome? (fun n =>
    match k.slot n with
    | .resident c => some (n, c)
    | _ => none)

/-- SAMPLE_TIMER (R325). -/
def execSampleTimer (core : Nat) (s : State) : Host.Outcome State Fault Refusal :=
  .next (match s.nextSampled core with
    | none => s
    | some (slot, c) =>
      let part := s.partOfCore core
      let x := s.sampleOf core c
      let w2 := x.2.2 * 2 ^ 28 + islandOfCore core * 2 ^ 26 + clusterOfCore core % 12 * 2 ^ 22 + core % 12 * 2 ^ 18 + slot * 2 ^ 14 + x.2.1 * 2 ^ 9
      let w3 := (s.launchOf c).handle.toNat * 2 ^ 16 + s.stamp part % 2 ^ 16
      let s := s.modCore core (fun k => { k with sampleSlot := (slot + 1) % 16 })
      let s := { s with fresh := s.fresh + 1 }
      s.ringWrite part true [x.1.lo, x.1.hi, BitVec.ofNat 32 w2, BitVec.ofNat 32 w3])

/-! ### Host accesses to memory (R139, R142) -/

/-- HOST_MEMORY_WRITE (R142): a write that covers a poisoned line whole makes it clean (R130). -/
def execHostMemoryWrite (pa : Nat) (bytes : List Byte) (s : State) : Host.Outcome State Fault Refusal :=
  .next (if s.up then
      let s := s.writeSys pa bytes
      s.setMem (s.mem.cleanCovered pa bytes.length)
    else s)

/-- What an AtomicOp leaves of an old value. -/
def hostAtomicValue (op : HostAtomic) (n old x y : Nat) : Nat :=
  match op with
  | .fetchAdd => (old + x) % 2 ^ (8 * n)
  | .swap => x % 2 ^ (8 * n)
  | .cas => if old = x % 2 ^ (8 * n) then y % 2 ^ (8 * n) else old

/-- HOST_ATOMIC_OP (R139): in a poisoned line it leaves memory unchanged (R130). DESIGN CHOICE (log 56): a compare-and-swap that fails writes
the old value, with its place in the home order, as one that succeeds does. -/
def execHostAtomicOp (pa : Nat) (op : HostAtomic) (wide : Bool) (x y : DWord) (s : State) : Host.Outcome State Fault Refusal :=
  let n := if wide then 8 else 4
  .next (if s.up && decide (pa % n = 0) && !s.mem.poisoned pa n then
      let old := natOfBytes (s.mem.home.read pa n)
      let s := s.writeSys pa (bytesOfNat n (hostAtomicValue op n old x.toNat y.toNat))
      { s with hostValue := BitVec.ofNat 64 old }
    else s)

/-! ### Attestation (R321) -/

/-- The 160 bytes of a report that its signature follows: the nonce, the digest, and the ROM version, layout and spares. -/
def Attestation.body (a : Attestation) : List Byte :=
  a.nonce ++ bytesOfNat 32 a.digest.toNat ++ (List.range 96).map (Config.reportByte a.rom a.layout a.spares)

/-- The height of the tree of the module's identity: 65,536 one-time keys (R321). -/
def identityHeight : Nat := 16

/-- The module's public key (R321). -/
def State.devicePublic (s : State) : XmssPublic := s.deviceSecret.public identityHeight

/-- The signature that follows a report (R321). -/
def State.signature (s : State) (a : Attestation) : XmssSignature := s.deviceSecret.sign identityHeight a.key a.body

/-- ATTESTATION_REQUEST (R321): the counter advances, and the request waits for its signature with the key of the old value; 65,536 keys are
all there are. -/
def execAttestationRequest (nonce : List Byte) (s : State) : Host.Outcome State Fault Refusal :=
  .next (if !s.up || nonce.length != 32 then s
    else if 2 ^ identityHeight ≤ s.attIndex then { s with attExhausted := true }
    else
      let a : Attestation := { nonce := nonce, digest := s.fwDigest, rom := s.romVersion, layout := s.split, spares := s.spares, key := s.attIndex }
      { s with attIndex := s.attIndex + 1, attPending := s.attPending ++ [a] })

/-- The oldest request whose counter value is durable is signed and answered, in a cycle that spec/ leaves open (R321, log 2). -/
def State.signReport (s : State) : State :=
  match s.attPending with
  | [] => s
  | a :: rest => if Config.choice (s.fresh + 6) % 2 = 1 then { s with attPending := rest, attReports := s.attReports ++ [a] } else s

/-! ### Power, links, resets and errors -/

/-- POWER_CAP_SET (R326): 3,000 W, or lower. -/
def execPowerCapSet (watts : Nat) (s : State) : Host.Outcome State Fault Refusal :=
  .next (if s.up && decide (watts ≤ 3000) then { s with powerCap := watts } else s)

/-- CLOCK_THROTTLE (R326). -/
def execClockThrottle (island : Nat) (lowered : Bool) (s : State) : Host.Outcome State Fault Refusal :=
  .next (if s.up && decide (island < 4) then
      { s with throttled := if lowered then insertSorted island s.throttled else s.throttled.filter (· != island) }
    else s)

/-- Widths that a link may train to. -/
def linkWidths : List Nat := [1, 2, 4, 8, 16]

/-- Rates that a link may train to, in GT/s; 2 stands for 2.5 (R316). -/
def linkRates : List Nat := [2, 5, 8, 16, 32, 64, 128]

/-- LINK_TRAINING (R316): links 0 and 1 to the host, 2 to 5 to the second tier. -/
def execLinkTraining (link width rate : Nat) (s : State) : Host.Outcome State Fault Refusal :=
  .next (if s.powered && decide (link < 6) && linkWidths.contains width && linkRates.contains rate then
      { s with links := s.links.set link { width := width, rate := rate } }
    else s)

/-- Global memory with every write applied in every view: what a module reset leaves of it (log 3). -/
def GMem.settled (g : GMem) : GMem := { home := g.home, views := List.replicate 4 g.home, poison := g.poison }

/-- What the module keeps from its making and in its stores over resets and losses of power: its keys, its ROM, its firmware image and the
attestation counter (R320, R321). -/
def State.kept (s : State) : State :=
  { State.reset with
    fresh := s.fresh, nextId := s.nextId, attIndex := s.attIndex, attExhausted := s.attExhausted, romVersion := s.romVersion, romKey := s.romKey
    deviceSecret := s.deviceSecret, deviceCert := s.deviceCert, fwImage := s.fwImage, fwSignature := s.fwSignature }

/-- The height of the vendor's tree (R320). -/
def vendorHeight : Nat := 20

/-- The boot ROM measures the firmware image and verifies its signature, taken as one of the digest (log 9); a failure holds the module in
reset (R320). -/
def State.boot (s : State) : State :=
  let d := shake256 s.fwImage
  { s with fwDigest := BitVec.ofNat 256 (natOfBytes d), fwVersion := Config.firmwareVersion s.fwImage
           bootfail := !s.romKey.verifies vendorHeight d s.fwSignature }

/-- MODULE_RESET (R317, R320, R321, R322): everything is as at reset but the split, what firmware brings in, what the module keeps, and
memory. `image`: another firmware image has been put in place before. -/
def execModuleReset (split : Split) (image : Bool) (s : State) : Host.Outcome State Fault Refusal :=
  let k := s.kept
  let k : State := if image then { k with fwImage := Config.firmwareImage s.fresh, fwSignature := Config.firmwareSignature s.fresh } else k
  .next ({ k with
    split := split, spares := (List.range 3).map (Config.sparesInUse s.fresh), offline := Config.unexposed s.fresh, fresh := s.fresh + 1
    mem := s.mem.settled, links := s.links }).boot

/-- POWER_LOSS (R321): what the module keeps alone stays. Nothing happens until a module reset. -/
def execPowerLoss (s : State) : Host.Outcome State Fault Refusal :=
  .next { s.kept with powered := false }

/-- UNCORRECTABLE_ERROR (R123, R130). -/
def execUncorrectableError (site : ErrSite) (s : State) : Host.Outcome State Fault Refusal :=
  .next (match site with
    | .line pa => s.setMem (s.mem.addPoison (pa / 128))
    | .scratch q w =>
      if (s.squads.find q).isSome && decide (4 * w < (s.squad q).allot) then
        s.modSquad q (fun r => { r with scratchPoison := insertSorted w r.scratchPoison })
      else s
    | .slice c l w =>
      if (s.crews.find c).isSome && decide (l < (s.crew c).threads.length ∧ w < 512) then
        s.modThread c l (fun t => { t with slicePoison := insertSorted w t.slicePoison })
      else s)

/-- POWER_GATING (R291): a thief on the core discards what it was sent. -/
def execPowerGating (core : Nat) (gated : Bool) (s : State) : Host.Outcome State Fault Refusal :=
  .next (if !s.up || decide (576 ≤ core) then s
    else if gated then ({ s with gated := insertSorted core s.gated }).discardSteals (fun t => s.coreOf t.crew == core)
    else { s with gated := s.gated.filter (· != core) })

end Sys2Proof.Machine
end

