-- ==== Sys2Proof/Machine/Int.lean ====
section
/-! DEFINITION. The integer and logic words of the lane set, lane opcodes 0x00-0x2F (R73-R80): each gives its form and its function to
the one issue of a synchronous lane word. -/

namespace Sys2Proof.Machine

/-- ADD (R75). -/
def execAdd (u : Bool) (d a : LOp) (b : BOp) (s : State) : Host.Outcome State Fault Refusal :=
  laneExec binary (fn2 (· + ·)) false u d a b s

/-- ADD_SAT (R75). -/
def execAddSat (u : Bool) (d a : LOp) (b : BOp) (s : State) : Host.Outcome State Fault Refusal :=
  laneExec binary (fn2 addSatW) false u d a b s

/-- SUB (R75). -/
def execSub (u : Bool) (d a : LOp) (b : BOp) (s : State) : Host.Outcome State Fault Refusal :=
  laneExec binary (fn2 (· - ·)) false u d a b s

/-- SUB_SAT (R75). -/
def execSubSat (u : Bool) (d a : LOp) (b : BOp) (s : State) : Host.Outcome State Fault Refusal :=
  laneExec binary (fn2 subSatW) false u d a b s

/-- MUL (R75). -/
def execMul (u : Bool) (d a : LOp) (b : BOp) (s : State) : Host.Outcome State Fault Refusal :=
  laneExec binary (fn2 (· * ·)) false u d a b s

/-- MULH_S (R75). -/
def execMulhS (u : Bool) (d a : LOp) (b : BOp) (s : State) : Host.Outcome State Fault Refusal :=
  laneExec binary (fn2 (fun x y => (mulWideS x y).hi)) false u d a b s

/-- MULH_U (R75). -/
def execMulhU (u : Bool) (d a : LOp) (b : BOp) (s : State) : Host.Outcome State Fault Refusal :=
  laneExec binary (fn2 (fun x y => (mulWideU x y).hi)) false u d a b s

/-- MULW_S (R75). -/
def execMulwS (u : Bool) (d a : LOp) (b : BOp) (s : State) : Host.Outcome State Fault Refusal :=
  laneExec { binary with dw := 2 } (fnPair (fun x y => mulWideS x.lo y.lo)) false u d a b s

/-- MULW_U (R75). -/
def execMulwU (u : Bool) (d a : LOp) (b : BOp) (s : State) : Host.Outcome State Fault Refusal :=
  laneExec { binary with dw := 2 } (fnPair (fun x y => mulWideU x.lo y.lo)) false u d a b s

/-- MAD (R75). -/
def execMad (u : Bool) (d a : LOp) (b : BOp) (s : State) : Host.Outcome State Fault Refusal :=
  laneExec readModify (fn3 (fun x y z => x * y + z)) false u d a b s

/-- ADD64 (R75). -/
def execAdd64 (u : Bool) (d a : LOp) (b : BOp) (s : State) : Host.Outcome State Fault Refusal :=
  laneExec { binary with aw := 2, bw := 2, dw := 2 } (fnPair (· + ·)) false u d a b s

/-- SUB64 (R75). -/
def execSub64 (u : Bool) (d a : LOp) (b : BOp) (s : State) : Host.Outcome State Fault Refusal :=
  laneExec { binary with aw := 2, bw := 2, dw := 2 } (fnPair (· - ·)) false u d a b s

/-- AND (R75). -/
def execAnd (u : Bool) (d a : LOp) (b : BOp) (s : State) : Host.Outcome State Fault Refusal :=
  laneExec binary (fn2 (· &&& ·)) false u d a b s

/-- OR (R75). -/
def execOr (u : Bool) (d a : LOp) (b : BOp) (s : State) : Host.Outcome State Fault Refusal :=
  laneExec binary (fn2 (· ||| ·)) false u d a b s

/-- XOR (R75). -/
def execXor (u : Bool) (d a : LOp) (b : BOp) (s : State) : Host.Outcome State Fault Refusal :=
  laneExec binary (fn2 (· ^^^ ·)) false u d a b s

/-- ANDN (R75). -/
def execAndn (u : Bool) (d a : LOp) (b : BOp) (s : State) : Host.Outcome State Fault Refusal :=
  laneExec binary (fn2 (fun x y => x &&& ~~~y)) false u d a b s

/-- SHL (R76). -/
def execShl (u : Bool) (d a : LOp) (b : BOp) (s : State) : Host.Outcome State Fault Refusal :=
  laneExec binary (fn2 shlW) false u d a b s

/-- SHR (R76). -/
def execShr (u : Bool) (d a : LOp) (b : BOp) (s : State) : Host.Outcome State Fault Refusal :=
  laneExec binary (fn2 shrW) false u d a b s

/-- SAR (R76). -/
def execSar (u : Bool) (d a : LOp) (b : BOp) (s : State) : Host.Outcome State Fault Refusal :=
  laneExec binary (fn2 sarW) false u d a b s

/-- ROTL (R75). -/
def execRotl (u : Bool) (d a : LOp) (b : BOp) (s : State) : Host.Outcome State Fault Refusal :=
  laneExec binary (fn2 rotlW) false u d a b s

/-- CLZ (R75). -/
def execClz (u : Bool) (d : LOp) (b : BOp) (s : State) : Host.Outcome State Fault Refusal :=
  laneExec unary (fn1 clzW) false u d .zero b s

/-- POPC (R75). -/
def execPopc (u : Bool) (d : LOp) (b : BOp) (s : State) : Host.Outcome State Fault Refusal :=
  laneExec unary (fn1 popcW) false u d .zero b s

/-- BREV (R75). -/
def execBrev (u : Bool) (d : LOp) (b : BOp) (s : State) : Host.Outcome State Fault Refusal :=
  laneExec unary (fn1 brevW) false u d .zero b s

/-- BFE_U (R77). -/
def execBfeU (u : Bool) (d a : LOp) (b : BOp) (s : State) : Host.Outcome State Fault Refusal :=
  laneExec binary (fn2 bfeUW) false u d a b s

/-- BFE_S (R77). -/
def execBfeS (u : Bool) (d a : LOp) (b : BOp) (s : State) : Host.Outcome State Fault Refusal :=
  laneExec binary (fn2 bfeSW) false u d a b s

/-- BFI (R77). -/
def execBfi (u : Bool) (d a : LOp) (b : BOp) (s : State) : Host.Outcome State Fault Refusal :=
  laneExec readModify (fn3 bfiW) false u d a b s

/-- MIN_S (R75). -/
def execMinS (u : Bool) (d a : LOp) (b : BOp) (s : State) : Host.Outcome State Fault Refusal :=
  laneExec binary (fn2 minSW) false u d a b s

/-- MIN_U (R75). -/
def execMinU (u : Bool) (d a : LOp) (b : BOp) (s : State) : Host.Outcome State Fault Refusal :=
  laneExec binary (fn2 minUW) false u d a b s

/-- MAX_S (R75). -/
def execMaxS (u : Bool) (d a : LOp) (b : BOp) (s : State) : Host.Outcome State Fault Refusal :=
  laneExec binary (fn2 maxSW) false u d a b s

/-- MAX_U (R75). -/
def execMaxU (u : Bool) (d a : LOp) (b : BOp) (s : State) : Host.Outcome State Fault Refusal :=
  laneExec binary (fn2 maxUW) false u d a b s

/-- CMP_EQ (R75). -/
def execCmpEq (u : Bool) (d a : LOp) (b : BOp) (s : State) : Host.Outcome State Fault Refusal :=
  laneExec binary (fn2 (fun x y => Word.ofBool (x == y))) false u d a b s

/-- CMP_NE (R75). -/
def execCmpNe (u : Bool) (d a : LOp) (b : BOp) (s : State) : Host.Outcome State Fault Refusal :=
  laneExec binary (fn2 (fun x y => Word.ofBool (x != y))) false u d a b s

/-- CMP_LT_S (R75). -/
def execCmpLtS (u : Bool) (d a : LOp) (b : BOp) (s : State) : Host.Outcome State Fault Refusal :=
  laneExec binary (fn2 (fun x y => Word.ofBool (x.slt y))) false u d a b s

/-- CMP_LE_S (R75). -/
def execCmpLeS (u : Bool) (d a : LOp) (b : BOp) (s : State) : Host.Outcome State Fault Refusal :=
  laneExec binary (fn2 (fun x y => Word.ofBool (x.sle y))) false u d a b s

/-- CMP_LT_U (R75). -/
def execCmpLtU (u : Bool) (d a : LOp) (b : BOp) (s : State) : Host.Outcome State Fault Refusal :=
  laneExec binary (fn2 (fun x y => Word.ofBool (x.ult y))) false u d a b s

/-- CMP_LE_U (R75). -/
def execCmpLeU (u : Bool) (d a : LOp) (b : BOp) (s : State) : Host.Outcome State Fault Refusal :=
  laneExec binary (fn2 (fun x y => Word.ofBool (x.ule y))) false u d a b s

/-- SEL (R75). -/
def execSel (u : Bool) (d a : LOp) (b : BOp) (s : State) : Host.Outcome State Fault Refusal :=
  laneExec readModify (fn3 selW) false u d a b s

/-- MOV (R75). -/
def execMov (u : Bool) (d : LOp) (b : BOp) (s : State) : Host.Outcome State Fault Refusal :=
  laneExec unary (fn1 (fun y => y)) false u d .zero b s

/-- MOVL (R75). -/
def execMovl (u : Bool) (d : LOp) (b : BOp) (s : State) : Host.Outcome State Fault Refusal :=
  laneExec { unary with bw := 2, dw := 2 } (fnPair (fun _ y => y)) false u d .zero b s

/-- LEA (R75). -/
def execLea (u : Bool) (d a : LOp) (b : BOp) (s : State) : Host.Outcome State Fault Refusal :=
  laneExec { binary with aw := 2, dw := 2 } (fnPair (fun x y => x + y.lo.signExtend 64)) false u d a b s

/-- PRMT (R78). -/
def execPrmt (u : Bool) (d a : LOp) (b : BOp) (s : State) : Host.Outcome State Fault Refusal :=
  laneExec readModify (fn3 prmtW) false u d a b s

/-- UDIV (R79). -/
def execUdiv (u : Bool) (d a : LOp) (b : BOp) (s : State) : Host.Outcome State Fault Refusal :=
  laneExec binary (fn2 udivW) true u d a b s

/-- SDIV (R79). -/
def execSdiv (u : Bool) (d a : LOp) (b : BOp) (s : State) : Host.Outcome State Fault Refusal :=
  laneExec binary (fn2 sdivW) true u d a b s

/-- UREM (R79). -/
def execUrem (u : Bool) (d a : LOp) (b : BOp) (s : State) : Host.Outcome State Fault Refusal :=
  laneExec binary (fn2 uremW) true u d a b s

/-- SREM (R79). -/
def execSrem (u : Bool) (d a : LOp) (b : BOp) (s : State) : Host.Outcome State Fault Refusal :=
  laneExec binary (fn2 sremW) true u d a b s

/-- PAND (R75). -/
def execPand (u : Bool) (d a : LOp) (b : BOp) (s : State) : Host.Outcome State Fault Refusal :=
  laneExec binary (fn2 (fun x y => Word.ofBool (nz x && nz y))) false u d a b s

/-- POR (R75). -/
def execPor (u : Bool) (d a : LOp) (b : BOp) (s : State) : Host.Outcome State Fault Refusal :=
  laneExec binary (fn2 (fun x y => Word.ofBool (nz x || nz y))) false u d a b s

/-- PXOR (R75). -/
def execPxor (u : Bool) (d a : LOp) (b : BOp) (s : State) : Host.Outcome State Fault Refusal :=
  laneExec binary (fn2 (fun x y => Word.ofBool (nz x != nz y))) false u d a b s

end Sys2Proof.Machine
end

