-- ==== Sys2Proof/Machine/Uni.lean ====
section
/-! DEFINITION. The uniform ALU, uniform opcodes 0x00-0x2D (R81, R82): the functions of the lane words of the same name. -/

namespace Sys2Proof.Machine

/-- SADD (R81): `add` of uniform operands. -/
def execSadd (d a b : UOp) (s : State) : Host.Outcome State Fault Refusal :=
  uniExec ⟨1, 1, 1, false⟩ (fn2 (· + ·)) false d a b s

/-- SADD_SAT (R81): `addSat` of uniform operands. -/
def execSaddSat (d a b : UOp) (s : State) : Host.Outcome State Fault Refusal :=
  uniExec ⟨1, 1, 1, false⟩ (fn2 addSatW) false d a b s

/-- SSUB (R81): `sub` of uniform operands. -/
def execSsub (d a b : UOp) (s : State) : Host.Outcome State Fault Refusal :=
  uniExec ⟨1, 1, 1, false⟩ (fn2 (· - ·)) false d a b s

/-- SSUB_SAT (R81): `subSat` of uniform operands. -/
def execSsubSat (d a b : UOp) (s : State) : Host.Outcome State Fault Refusal :=
  uniExec ⟨1, 1, 1, false⟩ (fn2 subSatW) false d a b s

/-- SMUL (R81): `mul` of uniform operands. -/
def execSmul (d a b : UOp) (s : State) : Host.Outcome State Fault Refusal :=
  uniExec ⟨1, 1, 1, false⟩ (fn2 (· * ·)) false d a b s

/-- SMULH_S (R81): `mulhS` of uniform operands. -/
def execSmulhS (d a b : UOp) (s : State) : Host.Outcome State Fault Refusal :=
  uniExec ⟨1, 1, 1, false⟩ (fn2 (fun x y => (mulWideS x y).hi)) false d a b s

/-- SMULH_U (R81): `mulhU` of uniform operands. -/
def execSmulhU (d a b : UOp) (s : State) : Host.Outcome State Fault Refusal :=
  uniExec ⟨1, 1, 1, false⟩ (fn2 (fun x y => (mulWideU x y).hi)) false d a b s

/-- SMULW_S (R81): `mulwS` of uniform operands. -/
def execSmulwS (d a b : UOp) (s : State) : Host.Outcome State Fault Refusal :=
  uniExec ⟨1, 1, 2, false⟩ (fnPair (fun x y => mulWideS x.lo y.lo)) false d a b s

/-- SMULW_U (R81): `mulwU` of uniform operands. -/
def execSmulwU (d a b : UOp) (s : State) : Host.Outcome State Fault Refusal :=
  uniExec ⟨1, 1, 2, false⟩ (fnPair (fun x y => mulWideU x.lo y.lo)) false d a b s

/-- SMAD (R81): `mad` of uniform operands. -/
def execSmad (d a b : UOp) (s : State) : Host.Outcome State Fault Refusal :=
  uniExec ⟨1, 1, 1, true⟩ (fn3 (fun x y z => x * y + z)) false d a b s

/-- SADD64 (R81): `add64` of uniform operands. -/
def execSadd64 (d a b : UOp) (s : State) : Host.Outcome State Fault Refusal :=
  uniExec ⟨2, 2, 2, false⟩ (fnPair (· + ·)) false d a b s

/-- SSUB64 (R81): `sub64` of uniform operands. -/
def execSsub64 (d a b : UOp) (s : State) : Host.Outcome State Fault Refusal :=
  uniExec ⟨2, 2, 2, false⟩ (fnPair (· - ·)) false d a b s

/-- SAND (R81): `and` of uniform operands. -/
def execSand (d a b : UOp) (s : State) : Host.Outcome State Fault Refusal :=
  uniExec ⟨1, 1, 1, false⟩ (fn2 (· &&& ·)) false d a b s

/-- SOR (R81): `or` of uniform operands. -/
def execSor (d a b : UOp) (s : State) : Host.Outcome State Fault Refusal :=
  uniExec ⟨1, 1, 1, false⟩ (fn2 (· ||| ·)) false d a b s

/-- SXOR (R81): `xor` of uniform operands. -/
def execSxor (d a b : UOp) (s : State) : Host.Outcome State Fault Refusal :=
  uniExec ⟨1, 1, 1, false⟩ (fn2 (· ^^^ ·)) false d a b s

/-- SANDN (R81): `andn` of uniform operands. -/
def execSandn (d a b : UOp) (s : State) : Host.Outcome State Fault Refusal :=
  uniExec ⟨1, 1, 1, false⟩ (fn2 (fun x y => x &&& ~~~y)) false d a b s

/-- SSHL (R81): `shl` of uniform operands. -/
def execSshl (d a b : UOp) (s : State) : Host.Outcome State Fault Refusal :=
  uniExec ⟨1, 1, 1, false⟩ (fn2 shlW) false d a b s

/-- SSHR (R81): `shr` of uniform operands. -/
def execSshr (d a b : UOp) (s : State) : Host.Outcome State Fault Refusal :=
  uniExec ⟨1, 1, 1, false⟩ (fn2 shrW) false d a b s

/-- SSAR (R81): `sar` of uniform operands. -/
def execSsar (d a b : UOp) (s : State) : Host.Outcome State Fault Refusal :=
  uniExec ⟨1, 1, 1, false⟩ (fn2 sarW) false d a b s

/-- SROTL (R81): `rotl` of uniform operands. -/
def execSrotl (d a b : UOp) (s : State) : Host.Outcome State Fault Refusal :=
  uniExec ⟨1, 1, 1, false⟩ (fn2 rotlW) false d a b s

/-- SCLZ (R81): `clz` of uniform operands. -/
def execSclz (d b : UOp) (s : State) : Host.Outcome State Fault Refusal :=
  uniExec ⟨0, 1, 1, false⟩ (fn1 clzW) false d .zero b s

/-- SPOPC (R81): `popc` of uniform operands. -/
def execSpopc (d b : UOp) (s : State) : Host.Outcome State Fault Refusal :=
  uniExec ⟨0, 1, 1, false⟩ (fn1 popcW) false d .zero b s

/-- SBREV (R81): `brev` of uniform operands. -/
def execSbrev (d b : UOp) (s : State) : Host.Outcome State Fault Refusal :=
  uniExec ⟨0, 1, 1, false⟩ (fn1 brevW) false d .zero b s

/-- SBFE_U (R81): `bfeU` of uniform operands. -/
def execSbfeU (d a b : UOp) (s : State) : Host.Outcome State Fault Refusal :=
  uniExec ⟨1, 1, 1, false⟩ (fn2 bfeUW) false d a b s

/-- SBFE_S (R81): `bfeS` of uniform operands. -/
def execSbfeS (d a b : UOp) (s : State) : Host.Outcome State Fault Refusal :=
  uniExec ⟨1, 1, 1, false⟩ (fn2 bfeSW) false d a b s

/-- SBFI (R81): `bfi` of uniform operands. -/
def execSbfi (d a b : UOp) (s : State) : Host.Outcome State Fault Refusal :=
  uniExec ⟨1, 1, 1, true⟩ (fn3 bfiW) false d a b s

/-- SMIN_S (R81): `minS` of uniform operands. -/
def execSminS (d a b : UOp) (s : State) : Host.Outcome State Fault Refusal :=
  uniExec ⟨1, 1, 1, false⟩ (fn2 minSW) false d a b s

/-- SMIN_U (R81): `minU` of uniform operands. -/
def execSminU (d a b : UOp) (s : State) : Host.Outcome State Fault Refusal :=
  uniExec ⟨1, 1, 1, false⟩ (fn2 minUW) false d a b s

/-- SMAX_S (R81): `maxS` of uniform operands. -/
def execSmaxS (d a b : UOp) (s : State) : Host.Outcome State Fault Refusal :=
  uniExec ⟨1, 1, 1, false⟩ (fn2 maxSW) false d a b s

/-- SMAX_U (R81): `maxU` of uniform operands. -/
def execSmaxU (d a b : UOp) (s : State) : Host.Outcome State Fault Refusal :=
  uniExec ⟨1, 1, 1, false⟩ (fn2 maxUW) false d a b s

/-- SCMP_EQ (R81): `cmpEq` of uniform operands. -/
def execScmpEq (d a b : UOp) (s : State) : Host.Outcome State Fault Refusal :=
  uniExec ⟨1, 1, 1, false⟩ (fn2 (fun x y => Word.ofBool (x == y))) false d a b s

/-- SCMP_NE (R81): `cmpNe` of uniform operands. -/
def execScmpNe (d a b : UOp) (s : State) : Host.Outcome State Fault Refusal :=
  uniExec ⟨1, 1, 1, false⟩ (fn2 (fun x y => Word.ofBool (x != y))) false d a b s

/-- SCMP_LT_S (R81): `cmpLtS` of uniform operands. -/
def execScmpLtS (d a b : UOp) (s : State) : Host.Outcome State Fault Refusal :=
  uniExec ⟨1, 1, 1, false⟩ (fn2 (fun x y => Word.ofBool (x.slt y))) false d a b s

/-- SCMP_LE_S (R81): `cmpLeS` of uniform operands. -/
def execScmpLeS (d a b : UOp) (s : State) : Host.Outcome State Fault Refusal :=
  uniExec ⟨1, 1, 1, false⟩ (fn2 (fun x y => Word.ofBool (x.sle y))) false d a b s

/-- SCMP_LT_U (R81): `cmpLtU` of uniform operands. -/
def execScmpLtU (d a b : UOp) (s : State) : Host.Outcome State Fault Refusal :=
  uniExec ⟨1, 1, 1, false⟩ (fn2 (fun x y => Word.ofBool (x.ult y))) false d a b s

/-- SCMP_LE_U (R81): `cmpLeU` of uniform operands. -/
def execScmpLeU (d a b : UOp) (s : State) : Host.Outcome State Fault Refusal :=
  uniExec ⟨1, 1, 1, false⟩ (fn2 (fun x y => Word.ofBool (x.ule y))) false d a b s

/-- SSEL (R81): `sel` of uniform operands. -/
def execSsel (d a b : UOp) (s : State) : Host.Outcome State Fault Refusal :=
  uniExec ⟨1, 1, 1, true⟩ (fn3 selW) false d a b s

/-- SMOV (R81): `mov` of uniform operands. -/
def execSmov (d b : UOp) (s : State) : Host.Outcome State Fault Refusal :=
  uniExec ⟨0, 1, 1, false⟩ (fn1 (fun y => y)) false d .zero b s

/-- SLEA (R81): `lea` of uniform operands. -/
def execSlea (d a b : UOp) (s : State) : Host.Outcome State Fault Refusal :=
  uniExec ⟨2, 1, 2, false⟩ (fnPair (fun x y => x + y.lo.signExtend 64)) false d a b s

/-- SUDIV (R81): `udiv` of uniform operands. -/
def execSudiv (d a b : UOp) (s : State) : Host.Outcome State Fault Refusal :=
  uniExec ⟨1, 1, 1, false⟩ (fn2 udivW) true d a b s

/-- SSDIV (R81): `sdiv` of uniform operands. -/
def execSsdiv (d a b : UOp) (s : State) : Host.Outcome State Fault Refusal :=
  uniExec ⟨1, 1, 1, false⟩ (fn2 sdivW) true d a b s

/-- SUREM (R81): `urem` of uniform operands. -/
def execSurem (d a b : UOp) (s : State) : Host.Outcome State Fault Refusal :=
  uniExec ⟨1, 1, 1, false⟩ (fn2 uremW) true d a b s

/-- SSREM (R81): `srem` of uniform operands. -/
def execSsrem (d a b : UOp) (s : State) : Host.Outcome State Fault Refusal :=
  uniExec ⟨1, 1, 1, false⟩ (fn2 sremW) true d a b s

/-- SKAND (R81): `pand` of uniform operands. -/
def execSkand (d a b : UOp) (s : State) : Host.Outcome State Fault Refusal :=
  uniExec ⟨1, 1, 1, false⟩ (fn2 (fun x y => Word.ofBool (nz x && nz y))) false d a b s

/-- SKOR (R81): `por` of uniform operands. -/
def execSkor (d a b : UOp) (s : State) : Host.Outcome State Fault Refusal :=
  uniExec ⟨1, 1, 1, false⟩ (fn2 (fun x y => Word.ofBool (nz x || nz y))) false d a b s

/-- SKXOR (R81): `pxor` of uniform operands. -/
def execSkxor (d a b : UOp) (s : State) : Host.Outcome State Fault Refusal :=
  uniExec ⟨1, 1, 1, false⟩ (fn2 (fun x y => Word.ofBool (nz x != nz y))) false d a b s

end Sys2Proof.Machine
end

