-- ==== Sys2Proof/Machine/Dispatch.lean ====
section
/-! DEFINITION. The meaning of every instruction: one arm for each constructor of `Instr`, in the order of the opcode table. -/

namespace Sys2Proof.Machine

def exec (i : Instr) (s : State) : Host.Outcome State Fault Refusal :=
  match i with
  | .add u d a b => Sys2Proof.Machine.execAdd u d a b s
  | .addSat u d a b => Sys2Proof.Machine.execAddSat u d a b s
  | .sub u d a b => Sys2Proof.Machine.execSub u d a b s
  | .subSat u d a b => Sys2Proof.Machine.execSubSat u d a b s
  | .mul u d a b => Sys2Proof.Machine.execMul u d a b s
  | .mulhS u d a b => Sys2Proof.Machine.execMulhS u d a b s
  | .mulhU u d a b => Sys2Proof.Machine.execMulhU u d a b s
  | .mulwS u d a b => Sys2Proof.Machine.execMulwS u d a b s
  | .mulwU u d a b => Sys2Proof.Machine.execMulwU u d a b s
  | .mad u d a b => Sys2Proof.Machine.execMad u d a b s
  | .add64 u d a b => Sys2Proof.Machine.execAdd64 u d a b s
  | .sub64 u d a b => Sys2Proof.Machine.execSub64 u d a b s
  | .and u d a b => Sys2Proof.Machine.execAnd u d a b s
  | .or u d a b => Sys2Proof.Machine.execOr u d a b s
  | .xor u d a b => Sys2Proof.Machine.execXor u d a b s
  | .andn u d a b => Sys2Proof.Machine.execAndn u d a b s
  | .shl u d a b => Sys2Proof.Machine.execShl u d a b s
  | .shr u d a b => Sys2Proof.Machine.execShr u d a b s
  | .sar u d a b => Sys2Proof.Machine.execSar u d a b s
  | .rotl u d a b => Sys2Proof.Machine.execRotl u d a b s
  | .clz u d b => Sys2Proof.Machine.execClz u d b s
  | .popc u d b => Sys2Proof.Machine.execPopc u d b s
  | .brev u d b => Sys2Proof.Machine.execBrev u d b s
  | .bfeU u d a b => Sys2Proof.Machine.execBfeU u d a b s
  | .bfeS u d a b => Sys2Proof.Machine.execBfeS u d a b s
  | .bfi u d a b => Sys2Proof.Machine.execBfi u d a b s
  | .minS u d a b => Sys2Proof.Machine.execMinS u d a b s
  | .minU u d a b => Sys2Proof.Machine.execMinU u d a b s
  | .maxS u d a b => Sys2Proof.Machine.execMaxS u d a b s
  | .maxU u d a b => Sys2Proof.Machine.execMaxU u d a b s
  | .cmpEq u d a b => Sys2Proof.Machine.execCmpEq u d a b s
  | .cmpNe u d a b => Sys2Proof.Machine.execCmpNe u d a b s
  | .cmpLtS u d a b => Sys2Proof.Machine.execCmpLtS u d a b s
  | .cmpLeS u d a b => Sys2Proof.Machine.execCmpLeS u d a b s
  | .cmpLtU u d a b => Sys2Proof.Machine.execCmpLtU u d a b s
  | .cmpLeU u d a b => Sys2Proof.Machine.execCmpLeU u d a b s
  | .sel u d a b => Sys2Proof.Machine.execSel u d a b s
  | .mov u d b => Sys2Proof.Machine.execMov u d b s
  | .movl u d b => Sys2Proof.Machine.execMovl u d b s
  | .lea u d a b => Sys2Proof.Machine.execLea u d a b s
  | .prmt u d a b => Sys2Proof.Machine.execPrmt u d a b s
  | .udiv u d a b => Sys2Proof.Machine.execUdiv u d a b s
  | .sdiv u d a b => Sys2Proof.Machine.execSdiv u d a b s
  | .urem u d a b => Sys2Proof.Machine.execUrem u d a b s
  | .srem u d a b => Sys2Proof.Machine.execSrem u d a b s
  | .pand u d a b => Sys2Proof.Machine.execPand u d a b s
  | .por u d a b => Sys2Proof.Machine.execPor u d a b s
  | .pxor u d a b => Sys2Proof.Machine.execPxor u d a b s
  | .fadd u d a b => Sys2Proof.Machine.execFadd u d a b s
  | .faddRz u d a b => Sys2Proof.Machine.execFaddRz u d a b s
  | .faddRd u d a b => Sys2Proof.Machine.execFaddRd u d a b s
  | .faddRu u d a b => Sys2Proof.Machine.execFaddRu u d a b s
  | .fsub u d a b => Sys2Proof.Machine.execFsub u d a b s
  | .fsubRz u d a b => Sys2Proof.Machine.execFsubRz u d a b s
  | .fsubRd u d a b => Sys2Proof.Machine.execFsubRd u d a b s
  | .fsubRu u d a b => Sys2Proof.Machine.execFsubRu u d a b s
  | .fmul u d a b => Sys2Proof.Machine.execFmul u d a b s
  | .fmulRz u d a b => Sys2Proof.Machine.execFmulRz u d a b s
  | .fmulRd u d a b => Sys2Proof.Machine.execFmulRd u d a b s
  | .fmulRu u d a b => Sys2Proof.Machine.execFmulRu u d a b s
  | .ffma u d a b => Sys2Proof.Machine.execFfma u d a b s
  | .ffmaRz u d a b => Sys2Proof.Machine.execFfmaRz u d a b s
  | .ffmaRd u d a b => Sys2Proof.Machine.execFfmaRd u d a b s
  | .ffmaRu u d a b => Sys2Proof.Machine.execFfmaRu u d a b s
  | .fmin u d a b => Sys2Proof.Machine.execFmin u d a b s
  | .fmax u d a b => Sys2Proof.Machine.execFmax u d a b s
  | .fcmpEq u d a b => Sys2Proof.Machine.execFcmpEq u d a b s
  | .fcmpLt u d a b => Sys2Proof.Machine.execFcmpLt u d a b s
  | .fcmpLe u d a b => Sys2Proof.Machine.execFcmpLe u d a b s
  | .fcmpUn u d a b => Sys2Proof.Machine.execFcmpUn u d a b s
  | .fclass u d b => Sys2Proof.Machine.execFclass u d b s
  | .frcp u d b => Sys2Proof.Machine.execFrcp u d b s
  | .frsq u d b => Sys2Proof.Machine.execFrsq u d b s
  | .fsqrt u d b => Sys2Proof.Machine.execFsqrt u d b s
  | .fsqrtRz u d b => Sys2Proof.Machine.execFsqrtRz u d b s
  | .fsqrtRd u d b => Sys2Proof.Machine.execFsqrtRd u d b s
  | .fsqrtRu u d b => Sys2Proof.Machine.execFsqrtRu u d b s
  | .fex2 u d b => Sys2Proof.Machine.execFex2 u d b s
  | .flg2 u d b => Sys2Proof.Machine.execFlg2 u d b s
  | .fsin u d b => Sys2Proof.Machine.execFsin u d b s
  | .fcos u d b => Sys2Proof.Machine.execFcos u d b s
  | .fdivFull u d a b => Sys2Proof.Machine.execFdivFull u d a b s
  | .fdivFullRz u d a b => Sys2Proof.Machine.execFdivFullRz u d a b s
  | .fdivFullRd u d a b => Sys2Proof.Machine.execFdivFullRd u d a b s
  | .fdivFullRu u d a b => Sys2Proof.Machine.execFdivFullRu u d a b s
  | .hadd2 u d a b => Sys2Proof.Machine.execHadd2 u d a b s
  | .hmul2 u d a b => Sys2Proof.Machine.execHmul2 u d a b s
  | .hfma2 u d a b => Sys2Proof.Machine.execHfma2 u d a b s
  | .cvtf u d rm nosat fmt b => Sys2Proof.Machine.execCvtf u d rm nosat fmt b s
  | .cvtfW u d fmt b => Sys2Proof.Machine.execCvtfW u d fmt b s
  | .cvti u d rm uns b => Sys2Proof.Machine.execCvti u d rm uns b s
  | .cvfi u d rm uns b => Sys2Proof.Machine.execCvfi u d rm uns b s
  | .qnt u d tx b => Sys2Proof.Machine.execQnt u d tx b s
  | .dqnt u d tx b => Sys2Proof.Machine.execDqnt u d tx b s
  | .pk4 u d rm nosat fmt b => Sys2Proof.Machine.execPk4 u d rm nosat fmt b s
  | .upk u d fmt b => Sys2Proof.Machine.execUpk u d fmt b s
  | .dp4S u d a b => Sys2Proof.Machine.execDp4S u d a b s
  | .dp4U u d a b => Sys2Proof.Machine.execDp4U u d a b s
  | .fdp4E4m3 u d a b => Sys2Proof.Machine.execFdp4E4m3 u d a b s
  | .fdp4E5m2 u d a b => Sys2Proof.Machine.execFdp4E5m2 u d a b s
  | .fdp4B8 u d a b => Sys2Proof.Machine.execFdp4B8 u d a b s
  | .ldgB8 u d a ord off => Sys2Proof.Machine.execLdgB8 u d a ord off s
  | .ldgB16 u d a ord off => Sys2Proof.Machine.execLdgB16 u d a ord off s
  | .ldgB32 u d a ord off => Sys2Proof.Machine.execLdgB32 u d a ord off s
  | .ldgB64 u d a ord off => Sys2Proof.Machine.execLdgB64 u d a ord off s
  | .ldgB128 u d a ord off => Sys2Proof.Machine.execLdgB128 u d a ord off s
  | .pfl2 width a off => Sys2Proof.Machine.execPfl2 width a off s
  | .stgB8 u d a ord off => Sys2Proof.Machine.execStgB8 u d a ord off s
  | .stgB16 u d a ord off => Sys2Proof.Machine.execStgB16 u d a ord off s
  | .stgB32 u d a ord off => Sys2Proof.Machine.execStgB32 u d a ord off s
  | .stgB64 u d a ord off => Sys2Proof.Machine.execStgB64 u d a ord off s
  | .stgB128 u d a ord off => Sys2Proof.Machine.execStgB128 u d a ord off s
  | .ldsB8 u d a off => Sys2Proof.Machine.execLdsB8 u d a off s
  | .ldsB16 u d a off => Sys2Proof.Machine.execLdsB16 u d a off s
  | .ldsB32 u d a off => Sys2Proof.Machine.execLdsB32 u d a off s
  | .ldsB64 u d a off => Sys2Proof.Machine.execLdsB64 u d a off s
  | .ldsB128 u d a off => Sys2Proof.Machine.execLdsB128 u d a off s
  | .ldpB32 u d a off => Sys2Proof.Machine.execLdpB32 u d a off s
  | .ldpB64 u d a off => Sys2Proof.Machine.execLdpB64 u d a off s
  | .ldpB128 u d a off => Sys2Proof.Machine.execLdpB128 u d a off s
  | .stsB8 u d a off => Sys2Proof.Machine.execStsB8 u d a off s
  | .stsB16 u d a off => Sys2Proof.Machine.execStsB16 u d a off s
  | .stsB32 u d a off => Sys2Proof.Machine.execStsB32 u d a off s
  | .stsB64 u d a off => Sys2Proof.Machine.execStsB64 u d a off s
  | .stsB128 u d a off => Sys2Proof.Machine.execStsB128 u d a off s
  | .stpB32 u d a off => Sys2Proof.Machine.execStpB32 u d a off s
  | .stpB64 u d a off => Sys2Proof.Machine.execStpB64 u d a off s
  | .stpB128 u d a off => Sys2Proof.Machine.execStpB128 u d a off s
  | .atsAdd d a w => Sys2Proof.Machine.execAtsAdd d a w s
  | .atsMinS d a w => Sys2Proof.Machine.execAtsMinS d a w s
  | .atsMaxS d a w => Sys2Proof.Machine.execAtsMaxS d a w s
  | .atsMinU d a w => Sys2Proof.Machine.execAtsMinU d a w s
  | .atsMaxU d a w => Sys2Proof.Machine.execAtsMaxU d a w s
  | .atsAnd d a w => Sys2Proof.Machine.execAtsAnd d a w s
  | .atsOr d a w => Sys2Proof.Machine.execAtsOr d a w s
  | .atsXor d a w => Sys2Proof.Machine.execAtsXor d a w s
  | .atsExch d a w => Sys2Proof.Machine.execAtsExch d a w s
  | .atsCas d a w => Sys2Proof.Machine.execAtsCas d a w s
  | .atsFadd d a => Sys2Proof.Machine.execAtsFadd d a s
  | .atgAdd d a ord w => Sys2Proof.Machine.execAtgAdd d a ord w s
  | .atgMinS d a ord w => Sys2Proof.Machine.execAtgMinS d a ord w s
  | .atgMaxS d a ord w => Sys2Proof.Machine.execAtgMaxS d a ord w s
  | .atgMinU d a ord w => Sys2Proof.Machine.execAtgMinU d a ord w s
  | .atgMaxU d a ord w => Sys2Proof.Machine.execAtgMaxU d a ord w s
  | .atgAnd d a ord w => Sys2Proof.Machine.execAtgAnd d a ord w s
  | .atgOr d a ord w => Sys2Proof.Machine.execAtgOr d a ord w s
  | .atgXor d a ord w => Sys2Proof.Machine.execAtgXor d a ord w s
  | .atgExch d a ord w => Sys2Proof.Machine.execAtgExch d a ord w s
  | .atgCas d a ord w => Sys2Proof.Machine.execAtgCas d a ord w s
  | .atgFadd d a ord => Sys2Proof.Machine.execAtgFadd d a ord s
  | .ldga d a ord w => Sys2Proof.Machine.execLdga d a ord w s
  | .redgAdd d a ord w => Sys2Proof.Machine.execRedgAdd d a ord w s
  | .redgMinS d a ord w => Sys2Proof.Machine.execRedgMinS d a ord w s
  | .redgMaxS d a ord w => Sys2Proof.Machine.execRedgMaxS d a ord w s
  | .redgMinU d a ord w => Sys2Proof.Machine.execRedgMinU d a ord w s
  | .redgMaxU d a ord w => Sys2Proof.Machine.execRedgMaxU d a ord w s
  | .redgAnd d a ord w => Sys2Proof.Machine.execRedgAnd d a ord w s
  | .redgOr d a ord w => Sys2Proof.Machine.execRedgOr d a ord w s
  | .redgXor d a ord w => Sys2Proof.Machine.execRedgXor d a ord w s
  | .redgFadd d a ord => Sys2Proof.Machine.execRedgFadd d a ord s
  | .stgr d a ord w => Sys2Proof.Machine.execStgr d a ord w s
  | .fence scope => Sys2Proof.Machine.execFence scope s
  | .fenceLd scope => Sys2Proof.Machine.execFenceLd scope s
  | .fenceSt scope => Sys2Proof.Machine.execFenceSt scope s
  | .bra u c sense off => Sys2Proof.Machine.execBra u c sense off s
  | .call u c off => Sys2Proof.Machine.execCall u c off s
  | .ret a => Sys2Proof.Machine.execRet a s
  | .exitThread => Sys2Proof.Machine.execExitThread s
  | .rfl d b => Sys2Proof.Machine.execRfl d b s
  | .actm d => Sys2Proof.Machine.execActm d s
  | .voteAny d b => Sys2Proof.Machine.execVoteAny d b s
  | .voteAll d b => Sys2Proof.Machine.execVoteAll d b s
  | .voteBallot d b => Sys2Proof.Machine.execVoteBallot d b s
  | .matchLanes d b => Sys2Proof.Machine.execMatchLanes d b s
  | .cmpct d b => Sys2Proof.Machine.execCmpct d b s
  | .gsr d num => Sys2Proof.Machine.execGsr d num s
  | .shfl d a b => Sys2Proof.Machine.execShfl d a b s
  | .shflXor d a b => Sys2Proof.Machine.execShflXor d a b s
  | .nap b => Sys2Proof.Machine.execNap b s
  | .pcfg d b => Sys2Proof.Machine.execPcfg d b s
  | .pcnt d sel => Sys2Proof.Machine.execPcnt d sel s
  | .ppk d sel => Sys2Proof.Machine.execPpk d sel s
  | .pfls d sel => Sys2Proof.Machine.execPfls d sel s
  | .psts d sel => Sys2Proof.Machine.execPsts d sel s
  | .xld d a b => Sys2Proof.Machine.execXld d a b s
  | .xdeal d => Sys2Proof.Machine.execXdeal d s
  | .xredAdd d b => Sys2Proof.Machine.execXredAdd d b s
  | .xredFadd d b => Sys2Proof.Machine.execXredFadd d b s
  | .xredMin d b => Sys2Proof.Machine.execXredMin d b s
  | .xredMax d b => Sys2Proof.Machine.execXredMax d b s
  | .xend d => Sys2Proof.Machine.execXend d s
  | .xst d => Sys2Proof.Machine.execXst d s
  | .pldrB32 d partner b => Sys2Proof.Machine.execPldrB32 d partner b s
  | .pldrB64 d partner b => Sys2Proof.Machine.execPldrB64 d partner b s
  | .pldrB128 d partner b => Sys2Proof.Machine.execPldrB128 d partner b s
  | .pret a num => Sys2Proof.Machine.execPret a num s
  | .sadd d a b => Sys2Proof.Machine.execSadd d a b s
  | .saddSat d a b => Sys2Proof.Machine.execSaddSat d a b s
  | .ssub d a b => Sys2Proof.Machine.execSsub d a b s
  | .ssubSat d a b => Sys2Proof.Machine.execSsubSat d a b s
  | .smul d a b => Sys2Proof.Machine.execSmul d a b s
  | .smulhS d a b => Sys2Proof.Machine.execSmulhS d a b s
  | .smulhU d a b => Sys2Proof.Machine.execSmulhU d a b s
  | .smulwS d a b => Sys2Proof.Machine.execSmulwS d a b s
  | .smulwU d a b => Sys2Proof.Machine.execSmulwU d a b s
  | .smad d a b => Sys2Proof.Machine.execSmad d a b s
  | .sadd64 d a b => Sys2Proof.Machine.execSadd64 d a b s
  | .ssub64 d a b => Sys2Proof.Machine.execSsub64 d a b s
  | .sand d a b => Sys2Proof.Machine.execSand d a b s
  | .sor d a b => Sys2Proof.Machine.execSor d a b s
  | .sxor d a b => Sys2Proof.Machine.execSxor d a b s
  | .sandn d a b => Sys2Proof.Machine.execSandn d a b s
  | .sshl d a b => Sys2Proof.Machine.execSshl d a b s
  | .sshr d a b => Sys2Proof.Machine.execSshr d a b s
  | .ssar d a b => Sys2Proof.Machine.execSsar d a b s
  | .srotl d a b => Sys2Proof.Machine.execSrotl d a b s
  | .sclz d b => Sys2Proof.Machine.execSclz d b s
  | .spopc d b => Sys2Proof.Machine.execSpopc d b s
  | .sbrev d b => Sys2Proof.Machine.execSbrev d b s
  | .sbfeU d a b => Sys2Proof.Machine.execSbfeU d a b s
  | .sbfeS d a b => Sys2Proof.Machine.execSbfeS d a b s
  | .sbfi d a b => Sys2Proof.Machine.execSbfi d a b s
  | .sminS d a b => Sys2Proof.Machine.execSminS d a b s
  | .sminU d a b => Sys2Proof.Machine.execSminU d a b s
  | .smaxS d a b => Sys2Proof.Machine.execSmaxS d a b s
  | .smaxU d a b => Sys2Proof.Machine.execSmaxU d a b s
  | .scmpEq d a b => Sys2Proof.Machine.execScmpEq d a b s
  | .scmpNe d a b => Sys2Proof.Machine.execScmpNe d a b s
  | .scmpLtS d a b => Sys2Proof.Machine.execScmpLtS d a b s
  | .scmpLeS d a b => Sys2Proof.Machine.execScmpLeS d a b s
  | .scmpLtU d a b => Sys2Proof.Machine.execScmpLtU d a b s
  | .scmpLeU d a b => Sys2Proof.Machine.execScmpLeU d a b s
  | .ssel d a b => Sys2Proof.Machine.execSsel d a b s
  | .smov d b => Sys2Proof.Machine.execSmov d b s
  | .slea d a b => Sys2Proof.Machine.execSlea d a b s
  | .sudiv d a b => Sys2Proof.Machine.execSudiv d a b s
  | .ssdiv d a b => Sys2Proof.Machine.execSsdiv d a b s
  | .surem d a b => Sys2Proof.Machine.execSurem d a b s
  | .ssrem d a b => Sys2Proof.Machine.execSsrem d a b s
  | .skand d a b => Sys2Proof.Machine.execSkand d a b s
  | .skor d a b => Sys2Proof.Machine.execSkor d a b s
  | .skxor d a b => Sys2Proof.Machine.execSkxor d a b s
  | .sldgB32 d a b => Sys2Proof.Machine.execSldgB32 d a b s
  | .sldgB64 d a b => Sys2Proof.Machine.execSldgB64 d a b s
  | .sldsB32 d a b => Sys2Proof.Machine.execSldsB32 d a b s
  | .sldsB64 d a b => Sys2Proof.Machine.execSldsB64 d a b s
  | .scpy d a b => Sys2Proof.Machine.execScpy d a b s
  | .sfil d a b => Sys2Proof.Machine.execSfil d a b s
  | .tdef d a b => Sys2Proof.Machine.execTdef d a b s
  | .txrd d a b => Sys2Proof.Machine.execTxrd d a b s
  | .tfree d a => Sys2Proof.Machine.execTfree d a s
  | .cpy d a => Sys2Proof.Machine.execCpy d a s
  | .cpyt d a => Sys2Proof.Machine.execCpyt d a s
  | .cpym d a => Sys2Proof.Machine.execCpym d a s
  | .cpyst d => Sys2Proof.Machine.execCpyst d s
  | .mma d a => Sys2Proof.Machine.execMma d a s
  | .mmsp d a => Sys2Proof.Machine.execMmsp d a s
  | .mzero d b => Sys2Proof.Machine.execMzero d b s
  | .mld d a => Sys2Proof.Machine.execMld d a s
  | .mst d a => Sys2Proof.Machine.execMst d a s
  | .madd d a => Sys2Proof.Machine.execMadd d a s
  | .mpred d a b => Sys2Proof.Machine.execMpred d a b s
  | .btnTake d => Sys2Proof.Machine.execBtnTake d s
  | .btnPass d => Sys2Proof.Machine.execBtnPass d s
  | .btnPassRelease d => Sys2Proof.Machine.execBtnPassRelease d s
  | .btnQuery d => Sys2Proof.Machine.execBtnQuery d s
  | .bisx d a b => Sys2Proof.Machine.execBisx d a b s
  | .plnch d a => Sys2Proof.Machine.execPlnch d a s
  | .cins d a => Sys2Proof.Machine.execCins d a s
  | .cinsFirst d a => Sys2Proof.Machine.execCinsFirst d a s
  | .cfind d a b => Sys2Proof.Machine.execCfind d a b s
  | .cclr d b => Sys2Proof.Machine.execCclr d b s
  | .ltset a b => Sys2Proof.Machine.execLtset a b s
  | .ltinc a b => Sys2Proof.Machine.execLtinc a b s
  | .ltcap a b => Sys2Proof.Machine.execLtcap a b s
  | .ltdrop a b => Sys2Proof.Machine.execLtdrop a b s
  | .ftwait flag a b => Sys2Proof.Machine.execFtwait flag a b s
  | .ftpoll d b => Sys2Proof.Machine.execFtpoll d b s
  | .ltsum d a b => Sys2Proof.Machine.execLtsum d a b s
  | .lnch d a => Sys2Proof.Machine.execLnch d a s
  | .qpush d a b => Sys2Proof.Machine.execQpush d a b s
  | .qpull d a => Sys2Proof.Machine.execQpull d a s
  | .amsg d a => Sys2Proof.Machine.execAmsg d a s
  | .jmp a => Sys2Proof.Machine.execJmp a s
  | .bar => Sys2Proof.Machine.execBar s
  | .trap b => Sys2Proof.Machine.execTrap b s
  | .brk => Sys2Proof.Machine.execBrk s
  | .ssr num a => Sys2Proof.Machine.execSsr num a s
  | .sretResume => Sys2Proof.Machine.execSretResume s
  | .sretSkip => Sys2Proof.Machine.execSretSkip s
  | .rplyReplayAll d => Sys2Proof.Machine.execRplyReplayAll d s
  | .rplyEndEntry d a => Sys2Proof.Machine.execRplyEndEntry d a s
  | .tlbi d a b => Sys2Proof.Machine.execTlbi d a b s
  | .flt d a b => Sys2Proof.Machine.execFlt d a b s
  | .ctxs d a b => Sys2Proof.Machine.execCtxs d a b s
  | .selection crew => Sys2Proof.Machine.execSelection crew s
  | .clauseFetchDone crew => Sys2Proof.Machine.execClauseFetchDone crew s
  | .starvationPromotion crew lane => Sys2Proof.Machine.execStarvationPromotion crew lane s
  | .joinHoldEnd crew => Sys2Proof.Machine.execJoinHoldEnd crew s
  | .napExpiry crew lane => Sys2Proof.Machine.execNapExpiry crew lane s
  | .squadRetire squad => Sys2Proof.Machine.execSquadRetire squad s
  | .squadPlaced squad core => Sys2Proof.Machine.execSquadPlaced squad core s
  | .regmissFetchDone crew => Sys2Proof.Machine.execRegmissFetchDone crew s
  | .evictionWriteback core slot => Sys2Proof.Machine.execEvictionWriteback core slot s
  | .loadDataLands op => Sys2Proof.Machine.execLoadDataLands op s
  | .storeApplied op => Sys2Proof.Machine.execStoreApplied op s
  | .writeApplyRemoteView write => Sys2Proof.Machine.execWriteApplyRemoteView write s
  | .globalAtomicPerform op => Sys2Proof.Machine.execGlobalAtomicPerform op s
  | .localAccessComplete op => Sys2Proof.Machine.execLocalAccessComplete op s
  | .uniformLoadLands op => Sys2Proof.Machine.execUniformLoadLands op s
  | .fenceRelease crew => Sys2Proof.Machine.execFenceRelease crew s
  | .portEntryLands entry => Sys2Proof.Machine.execPortEntryLands entry s
  | .portCreditReturn credit => Sys2Proof.Machine.execPortCreditReturn credit s
  | .portStall crew lane => Sys2Proof.Machine.execPortStall crew lane s
  | .matrixJobStart core => Sys2Proof.Machine.execMatrixJobStart core s
  | .matrixJobComplete core => Sys2Proof.Machine.execMatrixJobComplete core s
  | .engineRelease core => Sys2Proof.Machine.execEngineRelease core s
  | .copyJobStart job => Sys2Proof.Machine.execCopyJobStart job s
  | .copyJobComplete job => Sys2Proof.Machine.execCopyJobComplete job s
  | .multicastLanding job receiver => Sys2Proof.Machine.execMulticastLanding job receiver s
  | .cinsJobComplete job => Sys2Proof.Machine.execCinsJobComplete job s
  | .cfindComplete op => Sys2Proof.Machine.execCfindComplete op s
  | .cclrComplete op => Sys2Proof.Machine.execCclrComplete op s
  | .bisxComplete op => Sys2Proof.Machine.execBisxComplete op s
  | .cpystComplete op => Sys2Proof.Machine.execCpystComplete op s
  | .ftpollComplete op => Sys2Proof.Machine.execFtpollComplete op s
  | .capabilityDrop drop => Sys2Proof.Machine.execCapabilityDrop drop s
  | .capabilityHandoff handoff => Sys2Proof.Machine.execCapabilityHandoff handoff s
  | .countReport core => Sys2Proof.Machine.execCountReport core s
  | .frontierAnnounce launch stage core => Sys2Proof.Machine.execFrontierAnnounce launch stage core s
  | .pairEnumerationStart core => Sys2Proof.Machine.execPairEnumerationStart core s
  | .pairCrewStart core => Sys2Proof.Machine.execPairCrewStart core s
  | .pairRetire core => Sys2Proof.Machine.execPairRetire core s
  | .pairRemoteHalf half => Sys2Proof.Machine.execPairRemoteHalf half s
  | .pairAcknowledge half => Sys2Proof.Machine.execPairAcknowledge half s
  | .plnchComplete pairLaunch => Sys2Proof.Machine.execPlnchComplete pairLaunch s
  | .preEmption squad => Sys2Proof.Machine.execPreEmption squad s
  | .priorityPreEmption squad => Sys2Proof.Machine.execPriorityPreEmption squad s
  | .squadRestore squad core => Sys2Proof.Machine.execSquadRestore squad core s
  | .pageWalk walk => Sys2Proof.Machine.execPageWalk walk s
  | .permitBackoffExpiry crew lane => Sys2Proof.Machine.execPermitBackoffExpiry crew lane s
  | .faultListWrite entry => Sys2Proof.Machine.execFaultListWrite entry s
  | .trapDelivery crew lane => Sys2Proof.Machine.execTrapDelivery crew lane s
  | .tlbiDone crew => Sys2Proof.Machine.execTlbiDone crew s
  | .taskFailure crew => Sys2Proof.Machine.execTaskFailure crew s
  | .stealRequest crew victim => Sys2Proof.Machine.execStealRequest crew victim s
  | .stealReply steal => Sys2Proof.Machine.execStealReply steal s
  | .stealAcknowledge steal => Sys2Proof.Machine.execStealAcknowledge steal s
  | .stealConfirm steal => Sys2Proof.Machine.execStealConfirm steal s
  | .stealReclaim steal => Sys2Proof.Machine.execStealReclaim steal s
  | .coreReset core => Sys2Proof.Machine.execCoreReset core s
  | .qpullEntryArrives crew => Sys2Proof.Machine.execQpullEntryArrives crew s
  | .quiescence launch => Sys2Proof.Machine.execQuiescence launch s
  | .messageArrival message => Sys2Proof.Machine.execMessageArrival message s
  | .messageHandlerStart core => Sys2Proof.Machine.execMessageHandlerStart core s
  | .launchAcceptance submission => Sys2Proof.Machine.execLaunchAcceptance submission s
  | .distributorBinding launch => Sys2Proof.Machine.execDistributorBinding launch s
  | .squadSteal launch thief => Sys2Proof.Machine.execSquadSteal launch thief s
  | .launchEnd launch => Sys2Proof.Machine.execLaunchEnd launch s
  | .sampleTimer core => Sys2Proof.Machine.execSampleTimer core s
  | .submissionDoorbell part queue tail => Sys2Proof.Machine.execSubmissionDoorbell part queue tail s
  | .queueConfigWrite part queue base log => Sys2Proof.Machine.execQueueConfigWrite part queue base log s
  | .qerrClear part queue => Sys2Proof.Machine.execQerrClear part queue s
  | .replayRegister cluster => Sys2Proof.Machine.execReplayRegister cluster s
  | .replayEndEntryRegister cluster index => Sys2Proof.Machine.execReplayEndEntryRegister cluster index s
  | .startRegister part handle => Sys2Proof.Machine.execStartRegister part handle s
  | .hostCtxsRegister part image op => Sys2Proof.Machine.execHostCtxsRegister part image op s
  | .counterLowRead part counter => Sys2Proof.Machine.execCounterLowRead part counter s
  | .registerWrite part reg value => Sys2Proof.Machine.execRegisterWrite part reg value s
  | .hostMemoryWrite pa bytes => Sys2Proof.Machine.execHostMemoryWrite pa bytes s
  | .hostAtomicOp pa op wide x y => Sys2Proof.Machine.execHostAtomicOp pa op wide x y s
  | .attestationRequest nonce => Sys2Proof.Machine.execAttestationRequest nonce s
  | .powerCapSet watts => Sys2Proof.Machine.execPowerCapSet watts s
  | .clockThrottle island lowered => Sys2Proof.Machine.execClockThrottle island lowered s
  | .moduleReset split image => Sys2Proof.Machine.execModuleReset split image s
  | .partitionSetup part hwFault hwPreempt hwSched => Sys2Proof.Machine.execPartitionSetup part hwFault hwPreempt hwSched s
  | .uncorrectableError site => Sys2Proof.Machine.execUncorrectableError site s
  | .linkTraining link width rate => Sys2Proof.Machine.execLinkTraining link width rate s
  | .powerLoss => Sys2Proof.Machine.execPowerLoss s
  | .powerGating core gated => Sys2Proof.Machine.execPowerGating core gated s

end Sys2Proof.Machine
end

