-- ==== Sys2Proof/Machine/Run.lean ====
section
/-! DEFINITION. The same meanings for the forms that the machine holds: an event of the agenda, and a decoded word. -/

namespace Sys2Proof.Machine

/-- The meaning of an event: `exec` of the instruction it stands for (`execEvent_eq`). -/
def execEvent (e : Event) (s : State) : Host.Outcome State Fault Refusal :=
  match e with
  | .selection crew => execSelection crew s
  | .clauseFetchDone crew => execClauseFetchDone crew s
  | .starvationPromotion crew lane => execStarvationPromotion crew lane s
  | .joinHoldEnd crew => execJoinHoldEnd crew s
  | .napExpiry crew lane => execNapExpiry crew lane s
  | .squadRetire squad => execSquadRetire squad s
  | .squadPlaced squad core => execSquadPlaced squad core s
  | .regmissFetchDone crew => execRegmissFetchDone crew s
  | .evictionWriteback core slot => execEvictionWriteback core slot s
  | .loadDataLands op => execLoadDataLands op s
  | .storeApplied op => execStoreApplied op s
  | .writeApplyRemoteView write => execWriteApplyRemoteView write s
  | .globalAtomicPerform op => execGlobalAtomicPerform op s
  | .localAccessComplete op => execLocalAccessComplete op s
  | .uniformLoadLands op => execUniformLoadLands op s
  | .fenceRelease crew => execFenceRelease crew s
  | .portEntryLands entry => execPortEntryLands entry s
  | .portCreditReturn credit => execPortCreditReturn credit s
  | .portStall crew lane => execPortStall crew lane s
  | .matrixJobStart core => execMatrixJobStart core s
  | .matrixJobComplete core => execMatrixJobComplete core s
  | .engineRelease core => execEngineRelease core s
  | .copyJobStart job => execCopyJobStart job s
  | .copyJobComplete job => execCopyJobComplete job s
  | .multicastLanding job receiver => execMulticastLanding job receiver s
  | .cinsJobComplete job => execCinsJobComplete job s
  | .cfindComplete op => execCfindComplete op s
  | .cclrComplete op => execCclrComplete op s
  | .bisxComplete op => execBisxComplete op s
  | .cpystComplete op => execCpystComplete op s
  | .ftpollComplete op => execFtpollComplete op s
  | .capabilityDrop drop => execCapabilityDrop drop s
  | .capabilityHandoff handoff => execCapabilityHandoff handoff s
  | .countReport core => execCountReport core s
  | .frontierAnnounce launch stage core => execFrontierAnnounce launch stage core s
  | .pairEnumerationStart core => execPairEnumerationStart core s
  | .pairCrewStart core => execPairCrewStart core s
  | .pairRetire core => execPairRetire core s
  | .pairRemoteHalf half => execPairRemoteHalf half s
  | .pairAcknowledge half => execPairAcknowledge half s
  | .plnchComplete pairLaunch => execPlnchComplete pairLaunch s
  | .preEmption squad => execPreEmption squad s
  | .priorityPreEmption squad => execPriorityPreEmption squad s
  | .squadRestore squad core => execSquadRestore squad core s
  | .pageWalk walk => execPageWalk walk s
  | .permitBackoffExpiry crew lane => execPermitBackoffExpiry crew lane s
  | .faultListWrite entry => execFaultListWrite entry s
  | .trapDelivery crew lane => execTrapDelivery crew lane s
  | .tlbiDone crew => execTlbiDone crew s
  | .taskFailure crew => execTaskFailure crew s
  | .stealRequest crew victim => execStealRequest crew victim s
  | .stealReply steal => execStealReply steal s
  | .stealAcknowledge steal => execStealAcknowledge steal s
  | .stealConfirm steal => execStealConfirm steal s
  | .stealReclaim steal => execStealReclaim steal s
  | .coreReset core => execCoreReset core s
  | .qpullEntryArrives crew => execQpullEntryArrives crew s
  | .quiescence launch => execQuiescence launch s
  | .messageArrival message => execMessageArrival message s
  | .messageHandlerStart core => execMessageHandlerStart core s
  | .launchAcceptance submission => execLaunchAcceptance submission s
  | .distributorBinding launch => execDistributorBinding launch s
  | .squadSteal launch thief => execSquadSteal launch thief s
  | .launchEnd launch => execLaunchEnd launch s
  | .sampleTimer core => execSampleTimer core s
  | .submissionDoorbell part queue tail => execSubmissionDoorbell part queue tail s
  | .queueConfigWrite part queue base log => execQueueConfigWrite part queue base log s
  | .qerrClear part queue => execQerrClear part queue s
  | .replayRegister cluster => execReplayRegister cluster s
  | .replayEndEntryRegister cluster index => execReplayEndEntryRegister cluster index s
  | .startRegister part handle => execStartRegister part handle s
  | .hostCtxsRegister part image op => execHostCtxsRegister part image op s
  | .counterLowRead part counter => execCounterLowRead part counter s
  | .registerWrite part reg value => execRegisterWrite part reg value s
  | .hostMemoryWrite pa bytes => execHostMemoryWrite pa bytes s
  | .hostAtomicOp pa op wide x y => execHostAtomicOp pa op wide x y s
  | .attestationRequest nonce => execAttestationRequest nonce s
  | .powerCapSet watts => execPowerCapSet watts s
  | .clockThrottle island lowered => execClockThrottle island lowered s
  | .moduleReset split image => execModuleReset split image s
  | .partitionSetup part hwFault hwPreempt hwSched => execPartitionSetup part hwFault hwPreempt hwSched s
  | .uncorrectableError site => execUncorrectableError site s
  | .linkTraining link width rate => execLinkTraining link width rate s
  | .powerLoss => execPowerLoss s
  | .powerGating core gated => execPowerGating core gated s

/-- The meaning of a uniform word whose constructor of `Instr` is numbered above 244. -/
def execLate (i : Late) (s : State) : Host.Outcome State Fault Refusal :=
  match i with
  | .sldsB32 d a b => execSldsB32 d a b s
  | .sldsB64 d a b => execSldsB64 d a b s
  | .scpy d a b => execScpy d a b s
  | .sfil d a b => execSfil d a b s
  | .tdef d a b => execTdef d a b s
  | .txrd d a b => execTxrd d a b s
  | .tfree d a => execTfree d a s
  | .cpy d a => execCpy d a s
  | .cpyt d a => execCpyt d a s
  | .cpym d a => execCpym d a s
  | .cpyst d => execCpyst d s
  | .mma d a => execMma d a s
  | .mmsp d a => execMmsp d a s
  | .mzero d b => execMzero d b s
  | .mld d a => execMld d a s
  | .mst d a => execMst d a s
  | .madd d a => execMadd d a s
  | .mpred d a b => execMpred d a b s
  | .btnTake d => execBtnTake d s
  | .btnPass d => execBtnPass d s
  | .btnPassRelease d => execBtnPassRelease d s
  | .btnQuery d => execBtnQuery d s
  | .bisx d a b => execBisx d a b s
  | .plnch d a => execPlnch d a s
  | .cins d a => execCins d a s
  | .cinsFirst d a => execCinsFirst d a s
  | .cfind d a b => execCfind d a b s
  | .cclr d b => execCclr d b s
  | .ltset a b => execLtset a b s
  | .ltinc a b => execLtinc a b s
  | .ltcap a b => execLtcap a b s
  | .ltdrop a b => execLtdrop a b s
  | .ftwait flag a b => execFtwait flag a b s
  | .ftpoll d b => execFtpoll d b s
  | .ltsum d a b => execLtsum d a b s
  | .lnch d a => execLnch d a s
  | .qpush d a b => execQpush d a b s
  | .qpull d a => execQpull d a s
  | .amsg d a => execAmsg d a s
  | .jmp a => execJmp a s
  | .trap b => execTrap b s
  | .ssr num a => execSsr num a s
  | .rplyReplayAll d => execRplyReplayAll d s
  | .rplyEndEntry d a => execRplyEndEntry d a s
  | .tlbi d a b => execTlbi d a b s
  | .flt d a b => execFlt d a b s
  | .ctxs d a b => execCtxs d a b s

/-- The meaning of a decoded word: `exec` of the instruction it stands for (`execDecoded_eq`). -/
def execDecoded (d : Decoded) (s : State) : Host.Outcome State Fault Refusal :=
  match d with
  | .early i => exec i s
  | .late i => execLate i s

/-- The cause that words which decode to no instruction raise (R20, R28, R41). -/
def errorCause : DecodeError → Cause
  | .noWord => .illegalOp
  | .unassigned => .illegalOp
  | .noLiteral => .illegalOp
  | .badField => .illegalOperand

/-- The issue of the next word of a run: its instruction's meaning, or the cause that its encoding raises. -/
def issueWord (x : Issuer) (s : State) : Host.Outcome State Fault Refusal :=
  match decodeWords (x.run.words.drop x.run.idx) with
  | .ok (d, _) => execDecoded d s
  | .error e => .next (s.raise x (errorCause e) 0#64)

/-- A lane stands stalled at a word, which has not issued for it (R16, R70, R325), or at a fence or a `tlbi` that holds it (R137, R293). -/
def Thread.stalledAt (t : Thread) (pc : DWord) : Bool := t.stall.isSome && t.pc == pc

/-- A word has been executed for the lanes and at the PC that are noted for its crew. Where every one of them stands stalled at it, the crew
has not issued (R325); else it has, and its other threads' starvation counts go on (R57). -/
def State.issueDone (s : State) (c : Nat) : State :=
  let core := s.coreOf c
  match (s.core core).issuedPc.find? (fun x => x.1 == c) with
  | none => s
  | some x =>
    if x.2.1.all (fun l => (s.thread c l).stalledAt x.2.2) then
      s.modCore core (fun k => { k with issuedPc := k.issuedPc.filter (fun x => x.1 != c) })
    else s.starve c x.2.1

/-- A word has been executed: the arbiters go on. -/
def State.wordDone (s : State) : State :=
  match s.cur with
  | none => s
  | some c => { s.issueDone c with cur := none }

/-- What follows an event's meaning: the lines that it has written are noted. -/
def afterEvent : Host.Outcome State Fault Refusal → Host.Outcome State Fault Refusal
  | .next s => .next s.noteWritten
  | o => o

/-- What follows a word's meaning: the arbiters go on, and the lines that it has written are noted. -/
def afterIssue : Host.Outcome State Fault Refusal → Host.Outcome State Fault Refusal
  | .next s => .next s.wordDone.noteWritten
  | o => o

/-- An event's meaning is that of its instruction. -/
theorem execEvent_eq (e : Event) (s : State) : execEvent e s = exec e.instr s := by cases e <;> rfl

/-- A late word's meaning is that of its instruction. -/
theorem execLate_eq (i : Late) (s : State) : execLate i s = exec i.instr s := by cases i <;> rfl

/-- A decoded word's meaning is that of its instruction. -/
theorem execDecoded_eq (d : Decoded) (s : State) : execDecoded d s = exec d.instr s := by
  cases d with
  | early i => rfl
  | late i => exact execLate_eq i s

end Sys2Proof.Machine
end

