-- ==== Sys2Proof/Machine/Place.lean ====
section
/-! DEFINITION. Placing one instruction where the machine fetches its next: in the clause of the run that issues. -/

namespace Sys2Proof.Machine

/-- The words of an instruction given as the opcode table numbers its bits: as many as the decoder takes, literals of 0 among them. -/
def placedWords (nbits w : Nat) : List Word :=
  let ws := tableWords nbits w
  match decodeWords ws with
  | .ok (_, n) => ws.take n
  | .error _ => ws

/-- A run that stands at the first word of a clause, whose header names flag 0 for both classes (R15). -/
def loneRun (words : List Word) : Run :=
  { lanes := List.range 32, hdr := 0#64, hword := some (BitVec.ofNat 32 ((words.length - 1) * 2 ^ 28)), words := words, idx := 0 }

/-- A crew of 32 threads with that run, the first of its squad, in slot 0 of core 0. -/
def loneCrew (squad : Nat) (words : List Word) : Crew :=
  { newCrew squad 0 0 0 0#64 4#64 0#4 0#64 [] (fun _ t => { t with mid := true, arrival := .fall }) with run := some (loneRun words) }

/-- The machine with a launch of one squad of one crew placed on core 0, whose run is about to issue the words given. -/
def State.withLoneRun (s : State) (words : List Word) : State :=
  let k := s.nextId
  let q := k + 1
  let c := k + 2
  let pkt : Packet := { regs := 104, nImg := 1, stMask := 1#16 }
  let s := { s with nextId := k + 3, agenda := [], cur := some c }
  let s := s.modLaunch k (fun _ => { handle := 1#16, pkt := pkt, bound := true, cohorts := [0], frames := [0], startCap := false })
  let s := s.modSquad q (fun _ => { launch := k, st := .resident, crews := [c] })
  let s := s.setCrew c (loneCrew q words)
  s.takeSlot 0 0 c

/-- The machine with an instruction where its next is fetched: in place of what follows in the clause of the run that issues, or, where
none issues, in a run of its own (log 4). -/
def State.placeWord (s : State) (nbits w : Nat) : State :=
  let words := placedWords nbits w
  match s.issuer with
  | some x =>
    let run (r : Run) : Run := { r with words := (r.words ++ List.replicate r.idx 0#32).take r.idx ++ words }
    ({ s with agenda := [] }).modCrew x.c (fun cr => { cr with run := cr.run.map run })
  | none => s.withLoneRun words

end Sys2Proof.Machine
end

