-- ==== Sys2Proof/Machine/Arbiter.lean ====
section
/-! DEFINITION. The issue of a cycle: which crew issues to a pipe (R56). -/

namespace Sys2Proof.Machine

/-- What an arbiter does next. -/
inductive Pick
  /-- It performs the selection of a crew. -/
  | select (crew : Nat)
  /-- It issues the next word of a crew's run. -/
  | issue (crew core pipe slot : Nat)
deriving DecidableEq, Repr

/-- The pipe that a word needs: 0 the lane pipe, 1 the uniform pipe. -/
def pipeOf (w : Word) : Nat := if w.getLsbD 31 then 1 else 0

/-- The pipe that the next word of a run needs, where its clause has been fetched; a run beyond its words needs the lane pipe. -/
def Run.pipe (r : Run) : Option Nat := r.hword.map (fun _ => pipeOf (r.words.getD r.idx 0#32))

/-- What the arbiter of a pipe does at one crew (R56). -/
def State.pickCrew (s : State) (core pipe slot : Nat) : Option Pick :=
  match (s.core core).slot slot with
  | .resident c =>
    let cr := s.crew c
    if cr.issued then none
    else
      match cr.run with
      | none => if !cr.tried && s.selectable c then some (.select c) else none
      | some r => if r.pipe == some (pipe % 2) then some (.issue c core pipe slot) else none
  | _ => none

/-- The slots of a partition of a core in order of number, starting after the one that last issued. -/
def slotsAfter (part last : Nat) : List Nat :=
  ((List.range 16).map (fun i => (last + 1 + i) % 16)).filter (fun n => n / 4 == part)

/-- What the arbiter of one pipe of a core does: `pipe` is 2 * partition + pipe. DESIGN CHOICE (log 57): one whose pipe is held by an earlier
word visits no crew (R56, R80, R101). -/
def State.pickPipe (s : State) (core pipe : Nat) : Option Pick :=
  let k := s.core core
  if k.served.contains pipe || k.busy.getD pipe 0 != 0 then none
  else (slotsAfter (pipe / 2) (k.last.getD pipe 15)).findSome? (s.pickCrew core pipe)

/-- What the part's arbiters do next in this cycle, the lowest core first. -/
def State.pick (s : State) : Option Pick :=
  s.cores.keys.findSome? (fun core => if s.gated.contains core then none else (List.range 8).findSome? (s.pickPipe core))

/-- Gives a pipe to a crew: its run issues its next word in the step that follows (R56). DESIGN CHOICE (log 72): a word at which the whole run
then stalls has spent the pipe's cycle, with the crew chosen in it, too. -/
def State.grant (s : State) (c core pipe slot : Nat) : State :=
  let cr := s.crew c
  let ls := (cr.run.map Run.lanes).getD []
  let pc := (cr.run.map (fun r => r.wordAddr r.idx)).getD 0#64
  let s := s.modCore core (fun k => { k with
    served := k.served ++ [pipe], last := k.last.set pipe slot, issuedPc := k.issuedPc.filter (fun x => x.1 != c) ++ [(c, ls, pc)] })
  { s.modCrew c (fun cr => { cr with issued := true }) with cur := some c }

end Sys2Proof.Machine
end

