-- ==== Sys2Proof/Machine/Tick.lean ====
section
/-! DEFINITION. The passage of a cycle: clocks, counters and timers (R57-R60, R63, R80, R160, R281, R291, R323, R325-R327), and the event
that the part or the outside world brings, which nothing in spec/ times (log 2). -/

namespace Sys2Proof.Machine

/-! ### Timers -/

/-- A thread one cycle later: naps, back-offs and the port watchdog. -/
def Thread.tick (t : Thread) : Thread :=
  match t.st, t.stall with
  | .napping, _ => { t with nap := t.nap - 1 }
  | .running, some .permit => { t with backoff := t.backoff - 1 }
  | .running, some (.portEmpty _ _) => { t with watchdog := t.watchdog + 1 }
  | .running, some (.portFull _ _) => { t with watchdog := t.watchdog + 1 }
  | _, _ => t

/-- The timer of a thread that has run out. -/
def Thread.due (t : Thread) (c l : Nat) : List Event :=
  match t.st, t.stall with
  | .napping, _ => if t.nap = 0 then [.napExpiry c l] else []
  | .running, some .permit => if t.backoff = 0 then [.permitBackoffExpiry c l] else []
  | .running, some (.portEmpty _ _) => if 2 ^ 24 ≤ t.watchdog then [.portStall c l] else []
  | .running, some (.portFull _ _) => if 2 ^ 24 ≤ t.watchdog then [.portStall c l] else []
  | _, _ => []

/-- A resident crew one cycle later. -/
def Crew.tick (cr : Crew) : Crew :=
  { cr with tried := false, issued := false, hold := cr.hold.map (fun h => (h.1, h.2 - 1)), threads := cr.threads.map Thread.tick }

/-- The timers of a crew that have run out. -/
def Crew.due (cr : Crew) (c : Nat) : List Event :=
  (match cr.hold with
    | some (h, n) => if n = 0 ∨ cr.someBelow h = false then [Event.joinHoldEnd c] else []
    | none => []) ++ cr.threads.zipIdx.flatMap (fun x => x.1.due c x.2)

/-- A core one cycle later. One whose island's clock skips the cycle issues nothing in it (R326). -/
def Core.tick (k : Core) (issued : Nat → Bool) (idle : Bool) : Core :=
  let pcs := k.issuedPc.filter (fun x => issued x.1)
  if idle then { k with served := List.range 8, issuedPc := pcs }
  else { k with served := [], busy := k.busy.map (· - 1), clock := k.clock + 1#64, issuedPc := pcs }

/-- A steal one cycle later: the victim counts since its reply (R291). -/
def Steal.tick (t : Steal) : Steal := if t.phase == .replied && !t.reclaimed then { t with age := t.age + 1 } else t

/-- The numbers of the partitions. -/
def State.partNumbers (s : State) : List Nat := (List.range 8).filter s.partExists

/-- The counters of a partition one count of the reference clock later (R323, R326). -/
def State.tickPart (s : State) (part : Nat) : State :=
  let s := s.bump part 0 1
  if (s.islandsOf part).any s.throttled.contains then s.bump part 9 1 else s

/-- The cores of a partition whose sample is due (R325). -/
def State.samplesDue (s : State) (part : Nat) : List Event :=
  let r := (s.part part).samples
  if r.period = 0#8 ∨ r.log = 0#5 ∨ s.stamp part % 2 ^ r.period.toNat ≠ 0 then []
  else (s.cores.keys.filter (fun k => s.partOfCore k == part && (s.nextSampled k).isSome)).map .sampleTimer

/-- The throttled islands whose clock skips a cycle: which, spec/ leaves open (R326). -/
def State.idleIslands (s : State) : List Nat := s.throttled.filter (fun i => Config.choice (s.fresh + 1 + i) % 2 == 1)

/-- The clocks of one cycle. -/
def State.tickClocks (s : State) : State :=
  let idle := s.idleIslands
  let skips (core : Nat) : Bool := idle.contains (islandOfCore core)
  let issued (c : Nat) : Bool := (s.crew c).issued
  let runs (c : Nat) (cr : Crew) : Bool := cr.resident && !skips (s.coreOf c)
  let crews := s.crews.map (fun (p : Nat × Crew) => if runs p.1 p.2 then (p.1, p.2.tick) else p)
  let due := crews.flatMap (fun (p : Nat × Crew) => if runs p.1 p.2 then p.2.due p.1 else [])
  let cores := s.cores.map (fun (p : Nat × Core) => (p.1, p.2.tick issued (skips p.1)))
  let clocks := s.islandClocks.zipIdx.map (fun x => if idle.contains x.2 then x.1 else x.1 + 1#64)
  let steals := s.steals.map (fun t => if skips (s.squad t.victim).core then t else t.tick)
  let old := (steals.filter (fun t => t.phase == .replied && !t.reclaimed && decide (65536 ≤ t.age))).map (fun t => Event.stealReclaim t.id)
  let s := { s with crews := crews, cores := cores, islandClocks := clocks, steals := steals, now := s.now + 1, agenda := s.agenda ++ due ++ old }
  { s with agenda := s.agenda ++ (s.cores.keys.filter (fun k => !skips k)).flatMap s.crewsDue }

/-- The starvation counters of threads that are not ready are 0 (R57). -/
def State.settleStarve (s : State) : State :=
  let thread (c : Nat) (x : Thread × Nat) : Thread :=
    if x.1.starve != 0 && !s.ready c x.2 then { x.1 with starve := 0, promoted := false } else x.1
  { s with crews := s.crews.map (fun (p : Nat × Crew) =>
      if p.2.resident && p.2.threads.any (fun t => t.starve != 0) then
        (p.1, { p.2 with threads := p.2.threads.zipIdx.map (thread p.1) })
      else p) }

/-- The launches whose image writes were not made end with END 4 (R328). -/
def State.settleEnds (s : State) : State := s.imageEnds.foldl (fun s k => s.endLaunch k 4) { s with imageEnds := [] }

/-- The fault service ends a launch, where it does (R304). -/
def State.serviceEnd (s : State) : State :=
  match Config.serviceEnds s.fresh with
  | none => s
  | some k => s.serviceEnds k

/-! ### What may happen at any time -/

/-- The events of an operation. -/
def Op.events (op : Op) : List Event :=
  match op.kind with
  | .load _ => [.loadDataLands op.id]
  | .store _ => [.storeApplied op.id]
  | .atomic _ _ => [.globalAtomicPerform op.id]
  | .sldg => [.uniformLoadLands op.id]
  | .slds => [.uniformLoadLands op.id]
  | .cfind _ _ _ _ => [.cfindComplete op.id]
  | .cclr _ => [.cclrComplete op.id]
  | .bisx _ _ _ _ _ _ => [.bisxComplete op.id]
  | .cpyst => [.cpystComplete op.id]
  | .ftpoll _ => [.ftpollComplete op.id]
  | .lnch => []
  | .qpull _ => [.qpullEntryArrives op.crew]
  | .amsg _ => []
  | .xred _ => []
  | _ => [.localAccessComplete op.id]

/-- The events of an engine job. -/
def Job.events (j : Job) : List Event :=
  if j.matrix then [.matrixJobStart j.core, .matrixJobComplete j.core]
  else
    [.copyJobStart j.id, .copyJobComplete j.id, .cinsJobComplete j.id] ++ (match j.kind with
      | .cpym _ _ _ _ _ _ rs _ => rs.map (fun r => Event.multicastLanding j.id r.1)
      | _ => [])

/-- The events of a crew. -/
def Crew.events (cr : Crew) (c : Nat) : List Event :=
  [.fenceRelease c, .regmissFetchDone c, .tlbiDone c, .taskFailure c]
    ++ (cr.threads.zipIdx.filter (fun x => x.1.parked.isSome)).map (fun x => Event.trapDelivery c x.2)

/-- The events of a core. -/
def Core.events (k : Core) (core : Nat) : List Event :=
  (k.announces.head?.map (fun a => Event.frontierAnnounce a.launch a.stage.toNat core)).toList
    ++ [.countReport core, .engineRelease core, .pairEnumerationStart core, .pairRetire core, .messageHandlerStart core]
    ++ (List.range 16).map (Event.evictionWriteback core)

/-- The events of a launch: its binding, its end, its steals and quiescence. -/
def State.launchEvents (s : State) (k : Nat) : List Event :=
  let cores := (s.launch k).cohorts.flatMap coresIn
  [.distributorBinding k, .launchEnd k, .quiescence k] ++ cores.map (Event.squadSteal k)

/-- The events of a squad: placement, pre-emption, restore and retirement; and steals by its crews that pull. -/
def State.squadEvents (s : State) (q : Nat) : List Event :=
  let r := s.squad q
  match r.st with
  | .retired => []
  | .unplaced => (coresIn r.cluster).map (Event.squadPlaced q) ++ [.priorityPreEmption q]
  | .held => (coresIn r.cluster).map (Event.squadRestore q) ++ [.priorityPreEmption q, .squadRetire q]
  | _ =>
    [.preEmption q, .squadRetire q] ++ (r.crews.filter (fun c => !(s.pullsOf c).isEmpty)).flatMap (fun c =>
      (s.cohortSquads q).map (Event.stealRequest c))

/-- The events that may come next. One whose condition does not hold leaves the machine as it is. -/
def State.pending (s : State) : List Event :=
  s.ops.flatMap Op.events ++ s.mem.pend.map (fun w => .writeApplyRemoteView w.id) ++ s.jobs.flatMap Job.events
    ++ s.crews.flatMap (fun (p : Nat × Crew) => p.2.events p.1) ++ s.cores.flatMap (fun (p : Nat × Core) => p.2.events p.1)
    ++ s.squads.keys.flatMap s.squadEvents ++ s.launches.keys.flatMap s.launchEvents
    ++ s.flights.map (fun f => .portEntryLands f.id) ++ s.credits.map (fun f => .portCreditReturn f.id)
    ++ s.drops.map (fun d => .capabilityDrop d.id) ++ s.handoffs.map (fun h => .capabilityHandoff h.id)
    ++ s.halves.flatMap (fun h => [.pairRemoteHalf h.id, .pairAcknowledge h.id]) ++ s.pairLaunches.keys.map .plnchComplete
    ++ s.walks.keys.map .pageWalk ++ s.listEntries.map (fun e => .faultListWrite e.id)
    ++ s.messages.map (fun m => .messageArrival m.id) ++ s.submissions.map (fun u => .launchAcceptance u.id)
    ++ s.steals.flatMap (fun t => [.stealReply t.id, .stealAcknowledge t.id, .stealConfirm t.id])

/-- The event of the part that comes next, if any: which, spec/ leaves open (log 2). -/
def State.chosen (s : State) : List Event :=
  let es := s.pending
  let n := Config.choice s.fresh
  if n = 0 then [] else (es[(n - 1) % es.length]?).toList

/-- An event that the outside world brings: the host, firmware, or what befalls the module. -/
def Event.outside : Event → Bool
  | .coreReset _ => true
  | .submissionDoorbell _ _ _ => true
  | .queueConfigWrite _ _ _ _ => true
  | .qerrClear _ _ => true
  | .replayRegister _ => true
  | .replayEndEntryRegister _ _ => true
  | .startRegister _ _ => true
  | .hostCtxsRegister _ _ _ => true
  | .counterLowRead _ _ => true
  | .registerWrite _ _ _ => true
  | .hostMemoryWrite _ _ => true
  | .hostAtomicOp _ _ _ _ _ => true
  | .attestationRequest _ => true
  | .powerCapSet _ => true
  | .clockThrottle _ _ => true
  | .moduleReset _ _ => true
  | .partitionSetup _ _ _ _ => true
  | .uncorrectableError _ => true
  | .linkTraining _ _ _ => true
  | .powerLoss => true
  | .powerGating _ _ => true
  | _ => false

/-- What the outside world does in this cycle. -/
def State.inputs (s : State) : List Event := (Config.input s.fresh).toList.filter Event.outside

/-- ONE CYCLE PASSES. -/
def State.tick (s : State) : State :=
  let come := s.chosen ++ s.inputs
  let s : State :=
    if s.up then
      let s := s.settleStarve.settleReds.syncImages.settleEnds.serviceEnd.signReport.announceRises
      let s := s.partNumbers.foldl State.tickPart s.tickClocks
      { s with agenda := s.agenda ++ s.partNumbers.flatMap s.samplesDue }
    else s
  { s with fresh := s.fresh + 8, agenda := s.agenda ++ come }

/-- What happens when no event is due and no word is issuing: an arbiter's next act, or the end of the cycle. -/
def State.arbitrate (s : State) : State :=
  match s.pick with
  | some (.select c) => { s with agenda := s.agenda ++ [.selection c] }
  | some (.issue c core pipe slot) => s.grant c core pipe slot
  | none => s.tick

end Sys2Proof.Machine
end

