-- ==== Sys2Proof/Machine/Step.lean ====
section
/-! DEFINITION. One step of the part: the event that is due, the word that issues, or what the arbiters and the clocks do. -/

namespace Sys2Proof.Machine

/-- ONE STEP: the oldest event of the agenda; else the next word of the run that issues; else the arbiters' next act (log 2). -/
def step (s : State) : Host.Outcome State Fault Refusal :=
  match s.agenda with
  | e :: rest => afterEvent (execEvent e { s with agenda := rest })
  | [] =>
    match s.issuer with
    | some x => afterIssue (issueWord x s)
    | none => .next ({ s with cur := none }).arbitrate.noteWritten

/-- The machine with an instruction placed where `step` fetches its next one. -/
def State.withFetchWord (s : State) (nbits w : Nat) : State := s.placeWord nbits w

end Sys2Proof.Machine
end

