-- ==== Sys2Proof/Certificates/Slice0/Obligations.lean ====
section
/-! DEFINITION. The statements of this model for the provers. Each follows rules of spec/, named in its docstring; OBLIGATIONS.json lists them. -/

namespace Sys2Proof.Claim

open Sys2Proof.Machine

/-! ### What the statements say of a state -/

/-- Every run in progress stands as runs do: some lanes, ascending, each of them a thread of the crew (R10, R55). -/
def RunsFit (s : State) : Prop :=
  ∀ c r, (s.crew c).run = some r → r.lanes ≠ [] ∧ r.lanes.Pairwise (· < ·) ∧ ∀ l ∈ r.lanes, l < (s.crew c).threads.length

/-- The run of an issuer stands past `n` more words, or has ended with its clause (R14, R55). -/
def runPast (x : Issuer) (n : Nat) : Option Run :=
  if x.run.words.length ≤ x.run.idx + n then none else some { x.run with idx := x.run.idx + n }

/-- A thread past `n` more words of the run, otherwise as it was. -/
def threadPast (x : Issuer) (n : Nat) (t : Thread) : Thread :=
  { t with pc := x.run.hdr + BitVec.ofNat 64 (4 * (x.run.idx + n + 1)), mid := !decide (x.run.words.length ≤ x.run.idx + n)
           arrival := .fall, starve := 0, watchdog := 0 }

/-- Between two states only the threads of the issuing run, and the run, differ; the run has moved `n` words, and each of its
threads has become what `new` says. -/
def OnlyRun (s t : State) (x : Issuer) (n : Nat) (new : Nat → Thread → Thread → Prop) : Prop :=
  t = { s with crews := t.crews } ∧ (∀ c, c ≠ x.c → t.crew c = s.crew c) ∧
  t.crew x.c = { x.cr with threads := (t.crew x.c).threads, run := runPast x n } ∧
  (t.crew x.c).threads.length = x.cr.threads.length ∧
  ∀ l, if l ∈ x.run.lanes then new l (s.thread x.c l) (t.thread x.c l) else t.thread x.c l = s.thread x.c l

/-- A register that a lane word can write: `v`, `o` or `p` (R29). -/
def isFile : LOp → Bool
  | .v _ => true
  | .o _ => true
  | .p _ => true
  | _ => false

/-- What a register of the file holds after words were written to a destination and the registers above it: word by word in `v` and
`o`, the truth of the first word in `p`, and what it held before everywhere else (R29, R31). -/
def regAfter (d : LOp) (ws : List Word) (old : Thread) (l : Nat) (y : LOp) : Word :=
  match d, y with
  | .v r, .v k => if r.val ≤ k.val ∧ k.val < r.val + ws.length then ws.getD (k.val - r.val) 0#32 else old.readW l y
  | .o r, .o k => if r.val ≤ k.val ∧ k.val < r.val + ws.length then ws.getD (k.val - r.val) 0#32 else old.readW l y
  | .p r, .p k => if r = k ∧ ws ≠ [] then Word.ofBool (ws.headD 0#32 != 0#32) else old.readW l y
  | _, _ => old.readW l y

/-- A lane's synchronous result (R30, R74, R96): the destination holds it, `q0` its first word and `q1` the old `q0`, its flags are ORed
in, and nothing else of the thread differs but its place and the lines that it has written. -/
def ResultOf (x : Issuer) (n : Nat) (d : LOp) (ws : List Word) (fl : BitVec 5) (l : Nat) (old new : Thread) : Prop :=
  new = { threadPast x n old with
    v := new.v, o := new.o, p := new.p, q0 := ws.headD 0#32, q1 := old.q0, fflags := old.fflags ||| fl, wrote := new.wrote } ∧
  ∀ y, isFile y = true → new.readW l y = regAfter d ws old l y

/-- None of the main-file lines listed is absent (R70). -/
def LinesHere (x : Issuer) (lines : List Nat) : Prop := ∀ n ∈ lines, n ∉ x.cr.absent

/-- A machine with a pipe of a core held for seven cycles more (R80, R81). -/
def heldPipe (t : State) (x : Issuer) (uniform : Bool) : State :=
  t.modCore (t.squad x.cr.squad).core (fun k => { k with busy := k.busy.set (2 * (x.cr.slot / 4) + (if uniform then 1 else 0)) 8 })

/-- The synchronous lane words that read registers and constants alone: each with its form, what a lane computes, whether it holds the
lane pipe, and its operands (R75-R80, R101-R108, R110, R113). -/
inductive LaneWord : Instr → LaneForm → LaneFn → Bool → Bool → LOp → LOp → BOp → Prop
  | add (u d a b : _) : LaneWord (.add u d a b) binary (fn2 (· + ·)) false u d a b
  | addSat (u d a b : _) : LaneWord (.addSat u d a b) binary (fn2 addSatW) false u d a b
  | sub (u d a b : _) : LaneWord (.sub u d a b) binary (fn2 (· - ·)) false u d a b
  | subSat (u d a b : _) : LaneWord (.subSat u d a b) binary (fn2 subSatW) false u d a b
  | mul (u d a b : _) : LaneWord (.mul u d a b) binary (fn2 (· * ·)) false u d a b
  | mulhS (u d a b : _) : LaneWord (.mulhS u d a b) binary (fn2 (fun x y => (mulWideS x y).hi)) false u d a b
  | mulhU (u d a b : _) : LaneWord (.mulhU u d a b) binary (fn2 (fun x y => (mulWideU x y).hi)) false u d a b
  | mulwS (u d a b : _) : LaneWord (.mulwS u d a b) { binary with dw := 2 } (fnPair (fun x y => mulWideS x.lo y.lo)) false u d a b
  | mulwU (u d a b : _) : LaneWord (.mulwU u d a b) { binary with dw := 2 } (fnPair (fun x y => mulWideU x.lo y.lo)) false u d a b
  | mad (u d a b : _) : LaneWord (.mad u d a b) readModify (fn3 (fun x y z => x * y + z)) false u d a b
  | add64 (u d a b : _) : LaneWord (.add64 u d a b) { binary with aw := 2, bw := 2, dw := 2 } (fnPair (· + ·)) false u d a b
  | sub64 (u d a b : _) : LaneWord (.sub64 u d a b) { binary with aw := 2, bw := 2, dw := 2 } (fnPair (· - ·)) false u d a b
  | and (u d a b : _) : LaneWord (.and u d a b) binary (fn2 (· &&& ·)) false u d a b
  | or (u d a b : _) : LaneWord (.or u d a b) binary (fn2 (· ||| ·)) false u d a b
  | xor (u d a b : _) : LaneWord (.xor u d a b) binary (fn2 (· ^^^ ·)) false u d a b
  | andn (u d a b : _) : LaneWord (.andn u d a b) binary (fn2 (fun x y => x &&& ~~~y)) false u d a b
  | shl (u d a b : _) : LaneWord (.shl u d a b) binary (fn2 shlW) false u d a b
  | shr (u d a b : _) : LaneWord (.shr u d a b) binary (fn2 shrW) false u d a b
  | sar (u d a b : _) : LaneWord (.sar u d a b) binary (fn2 sarW) false u d a b
  | rotl (u d a b : _) : LaneWord (.rotl u d a b) binary (fn2 rotlW) false u d a b
  | clz (u d b : _) : LaneWord (.clz u d b) unary (fn1 clzW) false u d .zero b
  | popc (u d b : _) : LaneWord (.popc u d b) unary (fn1 popcW) false u d .zero b
  | brev (u d b : _) : LaneWord (.brev u d b) unary (fn1 brevW) false u d .zero b
  | bfeU (u d a b : _) : LaneWord (.bfeU u d a b) binary (fn2 bfeUW) false u d a b
  | bfeS (u d a b : _) : LaneWord (.bfeS u d a b) binary (fn2 bfeSW) false u d a b
  | bfi (u d a b : _) : LaneWord (.bfi u d a b) readModify (fn3 bfiW) false u d a b
  | minS (u d a b : _) : LaneWord (.minS u d a b) binary (fn2 minSW) false u d a b
  | minU (u d a b : _) : LaneWord (.minU u d a b) binary (fn2 minUW) false u d a b
  | maxS (u d a b : _) : LaneWord (.maxS u d a b) binary (fn2 maxSW) false u d a b
  | maxU (u d a b : _) : LaneWord (.maxU u d a b) binary (fn2 maxUW) false u d a b
  | cmpEq (u d a b : _) : LaneWord (.cmpEq u d a b) binary (fn2 (fun x y => Word.ofBool (x == y))) false u d a b
  | cmpNe (u d a b : _) : LaneWord (.cmpNe u d a b) binary (fn2 (fun x y => Word.ofBool (x != y))) false u d a b
  | cmpLtS (u d a b : _) : LaneWord (.cmpLtS u d a b) binary (fn2 (fun x y => Word.ofBool (x.slt y))) false u d a b
  | cmpLeS (u d a b : _) : LaneWord (.cmpLeS u d a b) binary (fn2 (fun x y => Word.ofBool (x.sle y))) false u d a b
  | cmpLtU (u d a b : _) : LaneWord (.cmpLtU u d a b) binary (fn2 (fun x y => Word.ofBool (x.ult y))) false u d a b
  | cmpLeU (u d a b : _) : LaneWord (.cmpLeU u d a b) binary (fn2 (fun x y => Word.ofBool (x.ule y))) false u d a b
  | sel (u d a b : _) : LaneWord (.sel u d a b) readModify (fn3 selW) false u d a b
  | mov (u d b : _) : LaneWord (.mov u d b) unary (fn1 (fun y => y)) false u d .zero b
  | movl (u d b : _) : LaneWord (.movl u d b) { unary with bw := 2, dw := 2 } (fnPair (fun _ y => y)) false u d .zero b
  | lea (u d a b : _) : LaneWord (.lea u d a b) { binary with aw := 2, dw := 2 } (fnPair (fun x y => x + y.lo.signExtend 64)) false u d a b
  | prmt (u d a b : _) : LaneWord (.prmt u d a b) readModify (fn3 prmtW) false u d a b
  | udiv (u d a b : _) : LaneWord (.udiv u d a b) binary (fn2 udivW) true u d a b
  | sdiv (u d a b : _) : LaneWord (.sdiv u d a b) binary (fn2 sdivW) true u d a b
  | urem (u d a b : _) : LaneWord (.urem u d a b) binary (fn2 uremW) true u d a b
  | srem (u d a b : _) : LaneWord (.srem u d a b) binary (fn2 sremW) true u d a b
  | pand (u d a b : _) : LaneWord (.pand u d a b) binary (fn2 (fun x y => Word.ofBool (nz x && nz y))) false u d a b
  | por (u d a b : _) : LaneWord (.por u d a b) binary (fn2 (fun x y => Word.ofBool (nz x || nz y))) false u d a b
  | pxor (u d a b : _) : LaneWord (.pxor u d a b) binary (fn2 (fun x y => Word.ofBool (nz x != nz y))) false u d a b
  | fadd (u d a b : _) : LaneWord (.fadd u d a b) binary.float (fnF2 (f32Add .rne)) false u d a b
  | faddRz (u d a b : _) : LaneWord (.faddRz u d a b) binary.float (fnF2 (f32Add .rz)) false u d a b
  | faddRd (u d a b : _) : LaneWord (.faddRd u d a b) binary.float (fnF2 (f32Add .rd)) false u d a b
  | faddRu (u d a b : _) : LaneWord (.faddRu u d a b) binary.float (fnF2 (f32Add .ru)) false u d a b
  | fsub (u d a b : _) : LaneWord (.fsub u d a b) binary.float (fnF2 (f32Sub .rne)) false u d a b
  | fsubRz (u d a b : _) : LaneWord (.fsubRz u d a b) binary.float (fnF2 (f32Sub .rz)) false u d a b
  | fsubRd (u d a b : _) : LaneWord (.fsubRd u d a b) binary.float (fnF2 (f32Sub .rd)) false u d a b
  | fsubRu (u d a b : _) : LaneWord (.fsubRu u d a b) binary.float (fnF2 (f32Sub .ru)) false u d a b
  | fmul (u d a b : _) : LaneWord (.fmul u d a b) binary.float (fnF2 (f32Mul .rne)) false u d a b
  | fmulRz (u d a b : _) : LaneWord (.fmulRz u d a b) binary.float (fnF2 (f32Mul .rz)) false u d a b
  | fmulRd (u d a b : _) : LaneWord (.fmulRd u d a b) binary.float (fnF2 (f32Mul .rd)) false u d a b
  | fmulRu (u d a b : _) : LaneWord (.fmulRu u d a b) binary.float (fnF2 (f32Mul .ru)) false u d a b
  | ffma (u d a b : _) : LaneWord (.ffma u d a b) readModify.float (fnF3 (f32Fma .rne)) false u d a b
  | ffmaRz (u d a b : _) : LaneWord (.ffmaRz u d a b) readModify.float (fnF3 (f32Fma .rz)) false u d a b
  | ffmaRd (u d a b : _) : LaneWord (.ffmaRd u d a b) readModify.float (fnF3 (f32Fma .rd)) false u d a b
  | ffmaRu (u d a b : _) : LaneWord (.ffmaRu u d a b) readModify.float (fnF3 (f32Fma .ru)) false u d a b
  | fmin (u d a b : _) : LaneWord (.fmin u d a b) binary.float (fnF2 f32Min) false u d a b
  | fmax (u d a b : _) : LaneWord (.fmax u d a b) binary.float (fnF2 f32Max) false u d a b
  | fcmpEq (u d a b : _) : LaneWord (.fcmpEq u d a b) binary.float (fnF2 f32Eq) false u d a b
  | fcmpLt (u d a b : _) : LaneWord (.fcmpLt u d a b) binary.float (fnF2 f32Lt) false u d a b
  | fcmpLe (u d a b : _) : LaneWord (.fcmpLe u d a b) binary.float (fnF2 f32Le) false u d a b
  | fcmpUn (u d a b : _) : LaneWord (.fcmpUn u d a b) binary.float (fnF2 f32Un) false u d a b
  | fclass (u d b : _) : LaneWord (.fclass u d b) unary.float (fn1 f32Class) false u d .zero b
  | frcp (u d b : _) : LaneWord (.frcp u d b) unary.float (fnF1 f32Rcp) false u d .zero b
  | frsq (u d b : _) : LaneWord (.frsq u d b) unary.float (fnF1 f32Rsq) false u d .zero b
  | fsqrt (u d b : _) : LaneWord (.fsqrt u d b) unary.float (fnF1 (f32Sqrt .rne)) true u d .zero b
  | fsqrtRz (u d b : _) : LaneWord (.fsqrtRz u d b) unary.float (fnF1 (f32Sqrt .rz)) true u d .zero b
  | fsqrtRd (u d b : _) : LaneWord (.fsqrtRd u d b) unary.float (fnF1 (f32Sqrt .rd)) true u d .zero b
  | fsqrtRu (u d b : _) : LaneWord (.fsqrtRu u d b) unary.float (fnF1 (f32Sqrt .ru)) true u d .zero b
  | fex2 (u d b : _) : LaneWord (.fex2 u d b) unary.float (fnF1 f32Ex2) false u d .zero b
  | flg2 (u d b : _) : LaneWord (.flg2 u d b) unary.float (fnF1 f32Lg2) false u d .zero b
  | fsin (u d b : _) : LaneWord (.fsin u d b) unary.float (fnF1 f32Sin) false u d .zero b
  | fcos (u d b : _) : LaneWord (.fcos u d b) unary.float (fnF1 f32Cos) false u d .zero b
  | fdivFull (u d a b : _) : LaneWord (.fdivFull u d a b) binary.float (fnF2 (f32Div .rne)) true u d a b
  | fdivFullRz (u d a b : _) : LaneWord (.fdivFullRz u d a b) binary.float (fnF2 (f32Div .rz)) true u d a b
  | fdivFullRd (u d a b : _) : LaneWord (.fdivFullRd u d a b) binary.float (fnF2 (f32Div .rd)) true u d a b
  | fdivFullRu (u d a b : _) : LaneWord (.fdivFullRu u d a b) binary.float (fnF2 (f32Div .ru)) true u d a b
  | hadd2 (u d a b : _) : LaneWord (.hadd2 u d a b) binary (fnF2 (halves2 (fp16.addV .rne))) false u d a b
  | hmul2 (u d a b : _) : LaneWord (.hmul2 u d a b) binary (fnF2 (halves2 (fp16.mulV .rne))) false u d a b
  | hfma2 (u d a b : _) : LaneWord (.hfma2 u d a b) readModify (fnF3 halves3) false u d a b
  | cvti (u d rm uns b : _) : LaneWord (.cvti u d rm uns b) unary.float (fnF1 (f32ToInt (Rnd.ofCode rm) uns)) false u d .zero b
  | cvfi (u d rm uns b : _) : LaneWord (.cvfi u d rm uns b) unary (fnF1 (intToF32 (Rnd.ofCode rm) uns)) false u d .zero b
  | dp4S (u d a b : _) : LaneWord (.dp4S u d a b) readModify (fn3 dp4SW) false u d a b
  | dp4U (u d a b : _) : LaneWord (.dp4U u d a b) readModify (fn3 dp4UW) false u d a b
  | fdp4E4m3 (u d a b : _) : LaneWord (.fdp4E4m3 u d a b) readModify (fnF3 (fdp4 4)) false u d a b
  | fdp4E5m2 (u d a b : _) : LaneWord (.fdp4E5m2 u d a b) readModify (fnF3 (fdp4 3)) false u d a b
  | fdp4B8 (u d a b : _) : LaneWord (.fdp4B8 u d a b) readModify (fnF3 (fdp4 8)) false u d a b

/-- The uniform arithmetic words (R81). -/
inductive UniWord : Instr → UniForm → LaneFn → Bool → UOp → UOp → UOp → Prop
  | sadd (d a b : _) : UniWord (.sadd d a b) ⟨1, 1, 1, false⟩ (fn2 (· + ·)) false d a b
  | saddSat (d a b : _) : UniWord (.saddSat d a b) ⟨1, 1, 1, false⟩ (fn2 addSatW) false d a b
  | ssub (d a b : _) : UniWord (.ssub d a b) ⟨1, 1, 1, false⟩ (fn2 (· - ·)) false d a b
  | ssubSat (d a b : _) : UniWord (.ssubSat d a b) ⟨1, 1, 1, false⟩ (fn2 subSatW) false d a b
  | smul (d a b : _) : UniWord (.smul d a b) ⟨1, 1, 1, false⟩ (fn2 (· * ·)) false d a b
  | smulhS (d a b : _) : UniWord (.smulhS d a b) ⟨1, 1, 1, false⟩ (fn2 (fun x y => (mulWideS x y).hi)) false d a b
  | smulhU (d a b : _) : UniWord (.smulhU d a b) ⟨1, 1, 1, false⟩ (fn2 (fun x y => (mulWideU x y).hi)) false d a b
  | smulwS (d a b : _) : UniWord (.smulwS d a b) ⟨1, 1, 2, false⟩ (fnPair (fun x y => mulWideS x.lo y.lo)) false d a b
  | smulwU (d a b : _) : UniWord (.smulwU d a b) ⟨1, 1, 2, false⟩ (fnPair (fun x y => mulWideU x.lo y.lo)) false d a b
  | smad (d a b : _) : UniWord (.smad d a b) ⟨1, 1, 1, true⟩ (fn3 (fun x y z => x * y + z)) false d a b
  | sadd64 (d a b : _) : UniWord (.sadd64 d a b) ⟨2, 2, 2, false⟩ (fnPair (· + ·)) false d a b
  | ssub64 (d a b : _) : UniWord (.ssub64 d a b) ⟨2, 2, 2, false⟩ (fnPair (· - ·)) false d a b
  | sand (d a b : _) : UniWord (.sand d a b) ⟨1, 1, 1, false⟩ (fn2 (· &&& ·)) false d a b
  | sor (d a b : _) : UniWord (.sor d a b) ⟨1, 1, 1, false⟩ (fn2 (· ||| ·)) false d a b
  | sxor (d a b : _) : UniWord (.sxor d a b) ⟨1, 1, 1, false⟩ (fn2 (· ^^^ ·)) false d a b
  | sandn (d a b : _) : UniWord (.sandn d a b) ⟨1, 1, 1, false⟩ (fn2 (fun x y => x &&& ~~~y)) false d a b
  | sshl (d a b : _) : UniWord (.sshl d a b) ⟨1, 1, 1, false⟩ (fn2 shlW) false d a b
  | sshr (d a b : _) : UniWord (.sshr d a b) ⟨1, 1, 1, false⟩ (fn2 shrW) false d a b
  | ssar (d a b : _) : UniWord (.ssar d a b) ⟨1, 1, 1, false⟩ (fn2 sarW) false d a b
  | srotl (d a b : _) : UniWord (.srotl d a b) ⟨1, 1, 1, false⟩ (fn2 rotlW) false d a b
  | sclz (d b : _) : UniWord (.sclz d b) ⟨0, 1, 1, false⟩ (fn1 clzW) false d .zero b
  | spopc (d b : _) : UniWord (.spopc d b) ⟨0, 1, 1, false⟩ (fn1 popcW) false d .zero b
  | sbrev (d b : _) : UniWord (.sbrev d b) ⟨0, 1, 1, false⟩ (fn1 brevW) false d .zero b
  | sbfeU (d a b : _) : UniWord (.sbfeU d a b) ⟨1, 1, 1, false⟩ (fn2 bfeUW) false d a b
  | sbfeS (d a b : _) : UniWord (.sbfeS d a b) ⟨1, 1, 1, false⟩ (fn2 bfeSW) false d a b
  | sbfi (d a b : _) : UniWord (.sbfi d a b) ⟨1, 1, 1, true⟩ (fn3 bfiW) false d a b
  | sminS (d a b : _) : UniWord (.sminS d a b) ⟨1, 1, 1, false⟩ (fn2 minSW) false d a b
  | sminU (d a b : _) : UniWord (.sminU d a b) ⟨1, 1, 1, false⟩ (fn2 minUW) false d a b
  | smaxS (d a b : _) : UniWord (.smaxS d a b) ⟨1, 1, 1, false⟩ (fn2 maxSW) false d a b
  | smaxU (d a b : _) : UniWord (.smaxU d a b) ⟨1, 1, 1, false⟩ (fn2 maxUW) false d a b
  | scmpEq (d a b : _) : UniWord (.scmpEq d a b) ⟨1, 1, 1, false⟩ (fn2 (fun x y => Word.ofBool (x == y))) false d a b
  | scmpNe (d a b : _) : UniWord (.scmpNe d a b) ⟨1, 1, 1, false⟩ (fn2 (fun x y => Word.ofBool (x != y))) false d a b
  | scmpLtS (d a b : _) : UniWord (.scmpLtS d a b) ⟨1, 1, 1, false⟩ (fn2 (fun x y => Word.ofBool (x.slt y))) false d a b
  | scmpLeS (d a b : _) : UniWord (.scmpLeS d a b) ⟨1, 1, 1, false⟩ (fn2 (fun x y => Word.ofBool (x.sle y))) false d a b
  | scmpLtU (d a b : _) : UniWord (.scmpLtU d a b) ⟨1, 1, 1, false⟩ (fn2 (fun x y => Word.ofBool (x.ult y))) false d a b
  | scmpLeU (d a b : _) : UniWord (.scmpLeU d a b) ⟨1, 1, 1, false⟩ (fn2 (fun x y => Word.ofBool (x.ule y))) false d a b
  | ssel (d a b : _) : UniWord (.ssel d a b) ⟨1, 1, 1, true⟩ (fn3 selW) false d a b
  | smov (d b : _) : UniWord (.smov d b) ⟨0, 1, 1, false⟩ (fn1 (fun y => y)) false d .zero b
  | slea (d a b : _) : UniWord (.slea d a b) ⟨2, 1, 2, false⟩ (fnPair (fun x y => x + y.lo.signExtend 64)) false d a b
  | sudiv (d a b : _) : UniWord (.sudiv d a b) ⟨1, 1, 1, false⟩ (fn2 udivW) true d a b
  | ssdiv (d a b : _) : UniWord (.ssdiv d a b) ⟨1, 1, 1, false⟩ (fn2 sdivW) true d a b
  | surem (d a b : _) : UniWord (.surem d a b) ⟨1, 1, 1, false⟩ (fn2 uremW) true d a b
  | ssrem (d a b : _) : UniWord (.ssrem d a b) ⟨1, 1, 1, false⟩ (fn2 sremW) true d a b
  | skand (d a b : _) : UniWord (.skand d a b) ⟨1, 1, 1, false⟩ (fn2 (fun x y => Word.ofBool (nz x && nz y))) false d a b
  | skor (d a b : _) : UniWord (.skor d a b) ⟨1, 1, 1, false⟩ (fn2 (fun x y => Word.ofBool (nz x || nz y))) false d a b
  | skxor (d a b : _) : UniWord (.skxor d a b) ⟨1, 1, 1, false⟩ (fn2 (fun x y => Word.ofBool (nz x != nz y))) false d a b

/-! ### Lane words -/

/-- No operand of a lane word is a port. -/
def noPorts (f : LaneForm) (d a : LOp) (b : BOp) : Bool := (f.aw == 0 || a.noPort) && b.noPort && d.noPort

/-- The main-file lines that a lane word names. -/
def laneLines (f : LaneForm) (d a : LOp) (b : BOp) : List Nat :=
  linesOf f.dw d ++ (if f.aw = 0 then [] else linesOf f.aw a) ++ bLinesOf f.bw b

/-- The lane whose operands lane `l` computes with: its own, or the run's lowest where U is set (R34). -/
def sourceLane (x : Issuer) (u : Bool) (l : Nat) : Nat := if u then x.lowest else l

/-- Where UCHK is on, the lanes of a word with U set read the same sources (R34). -/
def SameSources (x : Issuer) (f : LaneForm) (u : Bool) (d a : LOp) (b : BOp) : Prop :=
  u = true → x.cr.uchk = true → ∀ l ∈ x.run.lanes, x.cr.laneSources f d a b l = x.cr.laneSources f d a b x.lowest

/-- The words and flags that a lane's sources give. -/
def laneValue (x : Issuer) (f : LaneForm) (fn : LaneFn) (u : Bool) (d a : LOp) (b : BOp) (l : Nat) : List Word × BitVec 5 :=
  let v := x.cr.laneSources f d a b (sourceLane x u l)
  fn v.1 v.2.1 v.2.2

/-- A lane word with legal operands and no port completes: every lane of the run gets its result, and nothing else changes, the lane
pipe's hold by a slow word apart. -/
def LaneCompletes (i : Instr) (f : LaneForm) (fn : LaneFn) (slow u : Bool) (d a : LOp) (b : BOp) : Prop :=
  ∀ s x, RunsFit s → s.issuer = some x → laneLegal f (s.regsOf x.c) u d a b = true → noPorts f d a b = true →
    LinesHere x (laneLines f d a b) → SameSources x f u d a b →
    ∃ t, exec i s = .next (if slow then heldPipe t x false else t) ∧
      OnlyRun s t x b.size (fun l => ResultOf x b.size d (laneValue x f fn u d a b l).1 (laneValue x f fn u d a b l).2 l)

/-- R75: what the integer functions of lane and uniform words give. -/
def IntegerValues : Prop :=
  ∀ x y z : Word,
    (addSatW x y).toInt = max (-2 ^ 31) (min (2 ^ 31 - 1) (x.toInt + y.toInt)) ∧
    (subSatW x y).toInt = max (-2 ^ 31) (min (2 ^ 31 - 1) (x.toInt - y.toInt)) ∧
    (mulWideS x y).toInt = x.toInt * y.toInt ∧ (mulWideU x y).toNat = x.toNat * y.toNat ∧
    (clzW y).toNat = (if y = 0#32 then 32 else 31 - Nat.log2 y.toNat) ∧
    (popcW y).toNat = ((List.range 32).filter (fun k => y.getLsbD k)).length ∧
    (∀ k, k < 32 → (brevW y).getLsbD k = y.getLsbD (31 - k)) ∧
    (minSW x y).toInt = min x.toInt y.toInt ∧ (minUW x y).toNat = min x.toNat y.toNat ∧
    (maxSW x y).toInt = max x.toInt y.toInt ∧ (maxUW x y).toNat = max x.toNat y.toNat ∧
    selW x y z = (if z = 0#32 then y else x) ∧
    (rotlW x y).toNat = x.toNat * 2 ^ (y.toNat % 32) % 2 ^ 32 + x.toNat / 2 ^ (32 - y.toNat % 32)

end Sys2Proof.Claim

/-- R74-R80, R101-R108, R110, R113: each synchronous lane word gives every lane of the run the result of its own sources, moves `q0` and
`q1`, ORs its flags, and leaves every other register, flag and byte as it was; the integer functions are those of R75 (shifts, bit fields, `prmt` and division stand
in statements of their own).
The integer functions named there have the values of the table of integer words; the shifts, fields and divisions stand in ShiftAndFieldWords and DivisionCases. -/
def Obligations.LaneWordsGiveResults : Prop :=
  (∀ i f fn slow u d a b, Sys2Proof.Claim.LaneWord i f fn slow u d a b → Sys2Proof.Claim.LaneCompletes i f fn slow u d a b) ∧
  Sys2Proof.Claim.IntegerValues

namespace Sys2Proof.Claim

open Sys2Proof.Machine

/-! ### Uniform words -/

/-- The uniform registers that words written to a destination fill. -/
def uniRegs (d : UOp) (n : Nat) : List Nat :=
  match d with
  | .s r => (List.range n).map (r.val + ·)
  | _ => []

/-- The machine with the outstanding results overtaken by a write of `n` words to a uniform destination (R36, R84). -/
def overtakenBy (s : State) (x : Issuer) (d : UOp) (n : Nat) : State :=
  match d with
  | .s _ => s.supersede x.c (uniRegs d n)
  | _ => s

/-- What a uniform register reads after words were written to a destination (R28, R82). -/
def uniAfter (d : UOp) (ws : List Word) (old : Crew) (y : UOp) : Word :=
  match d, y with
  | .s r, .s k => if r.val ≤ k.val ∧ k.val < r.val + ws.length then ws.getD (k.val - r.val) 0#32 else old.readU y
  | .k r, .k k => if r = k then Word.ofBool (ws.headD 0#32 != 0#32) else old.readU y
  | _, _ => old.readU y

/-- Between two states only the issuing run, its threads' places, and the uniform registers of its crew with their written lines differ: the run has moved `n`
words, and the destination holds the words. -/
def UniformRun (s t : State) (x : Issuer) (n : Nat) (d : UOp) (ws : List Word) : Prop :=
  t = { s with crews := t.crews } ∧ (∀ c, c ≠ x.c → t.crew c = s.crew c) ∧
  t.crew x.c = { x.cr with
    threads := (t.crew x.c).threads, run := runPast x n, s := (t.crew x.c).s, k := (t.crew x.c).k, wrote := (t.crew x.c).wrote } ∧
  (t.crew x.c).threads.length = x.cr.threads.length ∧
  (∀ l, t.thread x.c l = if l ∈ x.run.lanes then threadPast x n (s.thread x.c l) else s.thread x.c l) ∧
  ∀ y, (t.crew x.c).readU y = uniAfter d ws x.cr y

/-- What a uniform word computes from its sources. -/
def uniValue (x : Issuer) (f : UniForm) (fn : LaneFn) (d a b : UOp) : List Word :=
  (fn (if f.aw = 0 then 0#64 else x.cr.uSource f.aw a) (x.cr.uSource f.bw b) (if f.z then x.cr.readU d else 0#32)).1

/-- A uniform word with legal operands completes, once for the run. -/
def UniformCompletes (i : Instr) (f : UniForm) (fn : LaneFn) (slow : Bool) (d a b : UOp) : Prop :=
  ∀ s x, RunsFit s → s.issuer = some x → uniLegal f d a b = true →
    ∃ t, exec i s = .next (if slow then heldPipe t x true else t) ∧
      UniformRun (overtakenBy s x d f.dw) t x (uSize a b) d (uniValue x f fn d a b)

/-! ### Traps -/

/-- A thread parked with a cause that needs no permit, at the word where it stands (R19, R280). -/
def parkedWith (s : State) (cause : Cause) (addr : DWord) (t : Thread) : Thread :=
  { t with st := .parked, stall := none, held := none, starve := 0, watchdog := 0, joined := false
           parked := some { cause := cause, addr := addr, route := .deliver, at_ := s.now } }

/-- Between two states every thread of the issuing run has parked with a cause, the run is over, and nothing else differs. -/
def RunParked (s t : State) (x : Issuer) (cause : Cause) (addr : DWord) : Prop :=
  t = { s with crews := t.crews } ∧ (∀ c, c ≠ x.c → t.crew c = s.crew c) ∧
  t.crew x.c = { x.cr with threads := (t.crew x.c).threads, run := none } ∧
  (t.crew x.c).threads.length = x.cr.threads.length ∧
  ∀ l, t.thread x.c l = if l ∈ x.run.lanes then parkedWith s cause addr (s.thread x.c l) else s.thread x.c l

/-- Between two states every thread of the issuing run has stalled at its word, the run is over, and nothing else differs (R19). -/
def RunStalled (s t : State) (x : Issuer) (why : Stall) : Prop :=
  t = { s with crews := t.crews } ∧ (∀ c, c ≠ x.c → t.crew c = s.crew c) ∧
  t.crew x.c = { x.cr with threads := (t.crew x.c).threads, run := none } ∧
  (t.crew x.c).threads.length = x.cr.threads.length ∧
  ∀ l, t.thread x.c l = if l ∈ x.run.lanes then { s.thread x.c l with stall := some why, starve := 0 } else s.thread x.c l

end Sys2Proof.Claim

/-- R36, R81, R82: each uniform arithmetic word executes once for its run, writes its destination, overtakes what is outstanding to it,
and leaves every other register and byte as it was. -/
def Obligations.UniformWordsGiveResults : Prop :=
  ∀ i f fn slow d a b, Sys2Proof.Claim.UniWord i f fn slow d a b → Sys2Proof.Claim.UniformCompletes i f fn slow d a b

/-- R31, R67, R74, R82: an operand that a lane or uniform word may not name parks every thread of the run with ILLEGAL_OPERAND, and the
word has no other effect.
That this check comes before a word's other checks is this model's reading (log 14). -/
def Obligations.IllegalOperandsTrap : Prop :=
  (∀ i f fn slow u d a b s x, Sys2Proof.Claim.LaneWord i f fn slow u d a b → Sys2Proof.Claim.RunsFit s → s.issuer = some x →
    Sys2Proof.Machine.laneLegal f (s.regsOf x.c) u d a b = false →
    ∃ t, Sys2Proof.Machine.exec i s = .next t ∧ Sys2Proof.Claim.RunParked s t x .illegalOperand 0#64) ∧
  (∀ i f fn slow d a b s x, Sys2Proof.Claim.UniWord i f fn slow d a b → Sys2Proof.Claim.RunsFit s → s.issuer = some x →
    Sys2Proof.Machine.uniLegal f d a b = false →
    ∃ t, Sys2Proof.Machine.exec i s = .next t ∧ Sys2Proof.Claim.RunParked s t x .illegalOperand 0#64)

/-- R34, R70: a lane word that names an absent register line stalls its run at the word, and one with U set whose lanes read different
sources parks it with UNIFORM_CHECK where UCHK is on. -/
def Obligations.LaneWordsStallOrCheck : Prop :=
  ∀ i f fn slow u d a b s x, Sys2Proof.Claim.LaneWord i f fn slow u d a b → Sys2Proof.Claim.RunsFit s → s.issuer = some x →
    Sys2Proof.Machine.laneLegal f (s.regsOf x.c) u d a b = true →
    ((∃ n ∈ Sys2Proof.Claim.laneLines f d a b, n ∈ x.cr.absent) →
      ∃ t, Sys2Proof.Machine.exec i s = .next t ∧
        Sys2Proof.Claim.RunStalled s t x (.regMiss (Sys2Proof.Claim.laneLines f d a b))) ∧
    (Sys2Proof.Claim.LinesHere x (Sys2Proof.Claim.laneLines f d a b) → ¬ Sys2Proof.Claim.SameSources x f u d a b →
      ∃ t, Sys2Proof.Machine.exec i s = .next t ∧ Sys2Proof.Claim.RunParked s t x .uniformCheck 0#64)

namespace Sys2Proof.Claim

open Sys2Proof.Machine

/-! ### Conversions (R109-R112) -/

/-- The conversion words with a control field: whether the field is one that the word takes, its form, what a lane computes, and its
operands. -/
inductive FieldWord : Instr → Bool → LaneForm → LaneFn → Bool → LOp → BOp → Prop
  | cvtf (u d rm nosat b) (fmt : BitVec 4) :
      FieldWord (.cvtf u d rm nosat fmt b) (decide (1 ≤ fmt.toNat ∧ fmt.toNat ≤ 9) && !(nosat && decide (fmt.toNat ≤ 2)))
        unary.float (fnF1 (fun y => narrowWord (convert fmt.toNat (Rnd.ofCode rm) nosat (fval y)))) u d b
  | cvtfW (u d b) (fmt : BitVec 4) :
      FieldWord (.cvtfW u d fmt b) (decide (1 ≤ fmt.toNat ∧ fmt.toNat ≤ 9)) unary (fnF1 (fun y => widen fmt.toNat y.toNat)) u d b
  | pk4 (u d rm nosat b) (fmt : BitVec 4) :
      FieldWord (.pk4 u d rm nosat fmt b) (decide (3 ≤ fmt.toNat ∧ fmt.toNat ≤ 8)) { unary with bw := 4 }
        (fun x y _ => ([(pack4 fmt.toNat (Rnd.ofCode rm) nosat [y.lo, y.hi, x.lo, x.hi]).1],
          (pack4 fmt.toNat (Rnd.ofCode rm) nosat [y.lo, y.hi, x.lo, x.hi]).2)) u d b
  | upk (u d b) (fmt : BitVec 4) :
      FieldWord (.upk u d fmt b) (decide (3 ≤ fmt.toNat ∧ fmt.toNat ≤ 8) && bIsReg b && d != .zero) { unary with dw := 4 }
        (fun _ y _ => unpack4 fmt.toNat y.lo) u d b

/-- A tensor identifier of the issuing run's squad that `qnt` and `dqnt` take: defined, of a format from E5M2 to B8 (R112). -/
def QuantName (s : State) (x : Issuer) (n : Nat) (t : Tensor) : Prop :=
  (s.squad x.cr.squad).tx.find n = some t ∧ 3 ≤ t.fmt ∧ t.fmt ≤ 8

/-- The machine with the greatest magnitude of some words recorded in an identifier's head slot, NaNs ignored (R99). -/
def amaxNoted (s : State) (x : Issuer) (n : Nat) (t : Tensor) (ws : List Word) : State :=
  match maxMag ws with
  | none => s
  | some m => s.modSquad x.cr.squad (fun q => { q with tx := q.tx.set n (t.record m) })

/-- What every quantising word asks of its operands. -/
def QuantReady (s : State) (x : Issuer) (u : Bool) (d : LOp) (b : BOp) : Prop :=
  RunsFit s ∧ s.issuer = some x ∧ laneLegal unary (s.regsOf x.c) u d .zero b = true ∧ noPorts unary d .zero b = true ∧
  LinesHere x (laneLines unary d .zero b) ∧ SameSources x unary.float u d .zero b ∧ SameSources x unary u d .zero b

/-! ### Ports -/

/-- Every lane of the run passes the test of a port word (R155). -/
def PortsGo (s : State) (x : Issuer) (src : List Port) (dst : Option Port) : Prop :=
  ∀ l ∈ x.run.lanes, s.portTest x.c l src dst = .go

/-- A lane word whose sources name ports, and whose destination is none, takes one entry of each from the head of the lane's queue,
computes with them and writes as any other. -/
def PortSourcesPop (i : Instr) (f : LaneForm) (fn : LaneFn) (u : Bool) (d a : LOp) (b : BOp) : Prop :=
  ∀ s x, RunsFit s → s.issuer = some x → laneLegal f (s.regsOf x.c) u d a b = true → d.noPort = true →
    LinesHere x (laneLines f d a b) → SameSources x f u d a b → PortsGo s x (srcPorts f a b) none →
    ∃ t, exec i s = .next t ∧ t.mem = s.mem ∧ (t.crew x.c).run = runPast x b.size ∧ ∀ l ∈ x.run.lanes,
      let v := laneValue x f fn u d a b l
      (t.thread x.c l).q0 = v.1.headD 0#32 ∧ (t.thread x.c l).q1 = (s.thread x.c l).q0 ∧
      (t.thread x.c l).fflags = (s.thread x.c l).fflags ||| v.2 ∧
      (∀ y, isFile y = true → (t.thread x.c l).readW l y = regAfter d v.1 (s.thread x.c l) l y) ∧
      ((s.thread x.c l).ports.length = 5 → ∀ p, ((t.thread x.c l).port p).queue =
        ((s.thread x.c l).port p).queue.drop (needOf (srcPorts f a b) p))

/-- Every lane of the run may push through a port to a neighbour of another crew, which has not exited. -/
def PushReady (s : State) (x : Issuer) (p : Port) : Prop :=
  PortsGo s x [] (some p) ∧ ∀ l ∈ x.run.lanes, s.neighbourExited x.c l p = false ∧ (s.thread x.c l).ports.length = 5 ∧
    ∃ n, s.neighbour x.c l p = some n ∧ n.1 ≠ x.c

/-- Between two states a word of `n` words has sent each lane's result to the neighbour's opposite port, taking one credit, and has moved
`q0` and `q1` (R155, R156). -/
def PushedTo (s t : State) (x : Issuer) (n : Nat) (p : Port) (v : Nat → Word) : Prop :=
  t.mem = s.mem ∧ (t.crew x.c).run = runPast x n ∧
  t.flights.map (fun g => (g.crew, g.lane, g.port, g.word)) = s.flights.map (fun g => (g.crew, g.lane, g.port, g.word)) ++
    x.run.lanes.map (fun l => (((s.neighbour x.c l p).getD (0, 0)).1, ((s.neighbour x.c l p).getD (0, 0)).2, opposite p, v l)) ∧
  ∀ l ∈ x.run.lanes, ((t.thread x.c l).port p).credit = ((s.thread x.c l).port p).credit - 1 ∧
    (t.thread x.c l).q0 = v l ∧ (t.thread x.c l).q1 = (s.thread x.c l).q0 ∧
    ∀ y, isFile y = true → (t.thread x.c l).readW l y = (s.thread x.c l).readW l y

/-- A lane word whose destination is a port to another crew, and whose sources are registers, pushes each lane's result. -/
def PortResultsLeave (i : Instr) (f : LaneForm) (fn : LaneFn) (u : Bool) (p : Port) (a : LOp) (b : BOp) : Prop :=
  ∀ s x, RunsFit s → s.issuer = some x → laneLegal f (s.regsOf x.c) u (.port p) a b = true → srcPorts f a b = [] →
    LinesHere x (laneLines f (.port p) a b) → SameSources x f u (.port p) a b → PushReady s x p →
    ∃ t, exec i s = .next t ∧ PushedTo s t x b.size p (fun l => (laneValue x f fn u (.port p) a b l).1.headD 0#32)

end Sys2Proof.Claim

/-- R109-R112: the conversion words give results as every lane word does, where their control field is one that they take, and trap with
ILLEGAL_OPERAND where it is not; `qnt` and `dqnt` scale by the identifier's exponent, `qnt` records the greatest magnitude, and an
identifier that is undefined or of another format traps with TENSOR_ID. -/
def Obligations.ConversionWordsGiveResults : Prop :=
  (∀ i ok f fn u d b, Sys2Proof.Claim.FieldWord i ok f fn u d b → ok = true →
    Sys2Proof.Claim.LaneCompletes i f fn false u d .zero b) ∧
  (∀ i ok f fn u d b s x, Sys2Proof.Claim.FieldWord i ok f fn u d b → ok = false → Sys2Proof.Claim.RunsFit s → s.issuer = some x →
    ∃ t, Sys2Proof.Machine.exec i s = .next t ∧ Sys2Proof.Claim.RunParked s t x .illegalOperand 0#64) ∧
  (∀ u d (n : Fin 64) b s x k, Sys2Proof.Claim.QuantReady s x u d b → Sys2Proof.Claim.QuantName s x n.val k →
    ∃ t, Sys2Proof.Machine.exec (.qnt u d n b) s = .next t ∧
      Sys2Proof.Claim.OnlyRun (Sys2Proof.Claim.amaxNoted s x n.val k ((if u then x.run.lanes.take 1 else x.run.lanes).map (fun l =>
        (x.cr.readB l 1 0 true b).setWidth 32))) t x b.size (fun l old new =>
        let v := Sys2Proof.Machine.convert k.fmt .rne false
          ((Sys2Proof.Machine.fval ((x.cr.readB (Sys2Proof.Claim.sourceLane x u l) 1 0 true b).setWidth 32)).scale k.sexp)
        Sys2Proof.Claim.ResultOf x b.size d [BitVec.ofNat 32 v.1] v.2 l old new)) ∧
  (∀ u d (n : Fin 64) b s x k, Sys2Proof.Claim.QuantReady s x u d b → Sys2Proof.Claim.QuantName s x n.val k →
    ∃ t, Sys2Proof.Machine.exec (.dqnt u d n b) s = .next t ∧
      Sys2Proof.Claim.OnlyRun s t x b.size (fun l old new =>
        let v := Sys2Proof.Machine.word32 (Sys2Proof.Machine.fp32.roundV .rne ((Sys2Proof.Machine.decodeFmt k.fmt
          (((x.cr.readB (Sys2Proof.Claim.sourceLane x u l) 1 0 false b).setWidth 32 : Sys2Proof.Word)).toNat).scale (-k.sexp)))
        Sys2Proof.Claim.ResultOf x b.size d [v.1] v.2 l old new)) ∧
  (∀ u d (n : Fin 64) b s x, Sys2Proof.Claim.QuantReady s x u d b → (∀ k, ¬ Sys2Proof.Claim.QuantName s x n.val k) →
    (∃ t, Sys2Proof.Machine.exec (.qnt u d n b) s = .next t ∧ Sys2Proof.Claim.RunParked s t x .tensorId 0#64) ∧
    (∃ t, Sys2Proof.Machine.exec (.dqnt u d n b) s = .next t ∧ Sys2Proof.Claim.RunParked s t x .tensorId 0#64))

/-- R155, R156: a synchronous lane word whose sources are ports pops them, and one whose destination is a port to another crew pushes its
results, one entry and one credit for each lane. -/
def Obligations.LaneWordsUsePorts : Prop :=
  (∀ i f fn u d a b, Sys2Proof.Claim.LaneWord i f fn false u d a b → Sys2Proof.Claim.PortSourcesPop i f fn u d a b) ∧
  (∀ i f fn u p a b, Sys2Proof.Claim.LaneWord i f fn false u (.port p) a b → Sys2Proof.Claim.PortResultsLeave i f fn u p a b)

namespace Sys2Proof.Claim

open Sys2Proof.Machine

/-! ### Arithmetic -/

/-- An FP32 word is a NaN. -/
def isNaN32 (w : Word) : Bool := decide (0x7F800000 < w.toNat % 2 ^ 31)

/-- An FP32 word is a signalling NaN: its fraction's top bit is 0 (R89). -/
def isSNaN32 (w : Word) : Bool := isNaN32 w && !w.getLsbD 22

/-- The place of an FP32 word that is no NaN in the order of `fmin` and `fmax`, where -0 is less than +0 (R103). -/
def orderKey (w : Word) : Int := if w.msb then -(w.toNat % 2 ^ 31 : Nat) - 1 else (w.toNat % 2 ^ 31 : Nat)

/-- The value of an FP32 word that is no NaN, up to a scale that all share, for comparisons: -0 and +0 are equal (R104). -/
def cmpKey (w : Word) : Int := if w.msb then -(w.toNat % 2 ^ 31 : Nat) else (w.toNat % 2 ^ 31 : Nat)

/-- NV where a condition holds, else no flag (R96). -/
def nvIf (b : Bool) : BitVec 5 := if b then 0x10#5 else 0#5

/-! ### Rounded results, from the fields of the codes alone

A format of `ew` exponent and `fw` fraction bits, with infinities: FP32 is 8 and 23, FP16 is 5 and 10 (R86). Values are counted in units of
the least subnormal, so that every finite code is an integer; subnormals count as they are (R88). -/

/-- The exponent field of a code. -/
def expOf (ew fw c : Nat) : Nat := c / 2 ^ fw % 2 ^ ew

/-- The fraction field of a code. -/
def fracOf (fw c : Nat) : Nat := c % 2 ^ fw

/-- The sign bit of a code. -/
def negOf (ew fw c : Nat) : Bool := decide (c / 2 ^ (ew + fw) % 2 = 1)

/-- A code is a NaN. -/
def nanCode (ew fw c : Nat) : Bool := decide (expOf ew fw c = 2 ^ ew - 1 ∧ fracOf fw c ≠ 0)

/-- A code is a signalling NaN: its fraction's top bit is 0 (R89). -/
def snanCode (ew fw c : Nat) : Bool := nanCode ew fw c && decide (fracOf fw c < 2 ^ (fw - 1))

/-- A code is an infinity. -/
def infCode (ew fw c : Nat) : Bool := decide (expOf ew fw c = 2 ^ ew - 1 ∧ fracOf fw c = 0)

/-- A code is finite, and holds no bit above the format's. -/
def finCode (ew fw c : Nat) : Prop := c < 2 ^ (ew + fw + 1) ∧ expOf ew fw c < 2 ^ ew - 1

/-- The value of a finite code in units of the least subnormal. -/
def unitsOf (ew fw c : Nat) : Int :=
  (if negOf ew fw c then -1 else 1) *
    (if expOf ew fw c = 0 then fracOf fw c else (2 ^ fw + fracOf fw c) * 2 ^ (expOf ew fw c - 1) : Nat)

/-- How many units the value 1 is. -/
def oneUnits (ew fw : Nat) : Nat := 2 ^ (2 ^ (ew - 1) - 2 + fw)

/-- The code of a zero or an infinity of a sign. -/
def signCode (ew fw : Nat) (neg : Bool) : Nat := if neg then 2 ^ (ew + fw) else 0
def infOf (ew fw : Nat) (neg : Bool) : Nat := signCode ew fw neg + (2 ^ ew - 1) * 2 ^ fw

/-- The canonical NaN (R89). -/
def quietNan (ew fw : Nat) : Nat := (2 ^ ew - 1) * 2 ^ fw + 2 ^ (fw - 1)

/-- An exact result: at each integer k, a number of the sign of twice the result, in units, less k. -/
abbrev Exact := Int → Int

/-- The exact result n / d units, d positive. -/
def ratio (n d : Int) : Exact := fun k => 2 * n - k * d

/-- The exact result √n units. -/
def rootOf (n : Nat) : Exact := fun k => if k < 0 then 1 else 4 * n - k * k

/-- A code is the greatest finite one not above the exact result. -/
def Below (ew fw : Nat) (v : Exact) (c : Nat) : Prop :=
  finCode ew fw c ∧ 0 ≤ v (2 * unitsOf ew fw c) ∧ ∀ g, finCode ew fw g → 0 ≤ v (2 * unitsOf ew fw g) → unitsOf ew fw g ≤ unitsOf ew fw c

/-- A code is the least finite one not below the exact result. -/
def Above (ew fw : Nat) (v : Exact) (c : Nat) : Prop :=
  finCode ew fw c ∧ v (2 * unitsOf ew fw c) ≤ 0 ∧ ∀ g, finCode ew fw g → v (2 * unitsOf ew fw g) ≤ 0 → unitsOf ew fw c ≤ unitsOf ew fw g

/-- A code is the finite one nearest the exact result, and of two equally near the even one. -/
def Nearest (ew fw : Nat) (v : Exact) (c : Nat) : Prop :=
  finCode ew fw c ∧ ∀ g, finCode ew fw g →
    (unitsOf ew fw c < unitsOf ew fw g → v (unitsOf ew fw c + unitsOf ew fw g) ≤ 0) ∧
    (unitsOf ew fw g < unitsOf ew fw c → 0 ≤ v (unitsOf ew fw c + unitsOf ew fw g)) ∧
    (unitsOf ew fw g ≠ unitsOf ew fw c → v (unitsOf ew fw c + unitsOf ew fw g) = 0 → c % 2 = 0)

/-- The greatest finite value of a format, in units, and the first value of the binade that it lacks. -/
def topUnits (ew fw : Nat) : Int := ((2 ^ (fw + 1) - 1) * 2 ^ (2 ^ ew - 3) : Nat)
def limitUnits (ew fw : Nat) : Int := (2 ^ (fw + 1) * 2 ^ (2 ^ ew - 3) : Nat)

/-- An exact result other than zero is rounded once to a code by a mode, and overflows or not (R93): to nearest, from half a unit of the last
place above the greatest finite value on; away from zero, from above that value on; toward zero, it stays finite, and overflows from the
missing binade on. A result that rounds to zero keeps its sign. -/
def Rounds (ew fw : Nat) (rm : Rnd) (v : Exact) (c : Nat) (overflow : Prop) : Prop :=
  let neg := decide (v 0 < 0)
  let sg : Int := if neg then -1 else 1
  let past (k : Int) : Prop := 0 ≤ sg * v (sg * (2 * k))
  negOf ew fw c = neg ∧
  match rm with
  | .rne =>
    (overflow ↔ 0 ≤ sg * v (sg * (topUnits ew fw + limitUnits ew fw))) ∧
    (overflow → c = infOf ew fw neg) ∧ (¬ overflow → Nearest ew fw v c)
  | .rz => (overflow ↔ past (limitUnits ew fw)) ∧ (if neg then Above ew fw v c else Below ew fw v c)
  | .rd =>
    (overflow ↔ if neg then 0 < sg * v (sg * (2 * topUnits ew fw)) else past (limitUnits ew fw)) ∧
    (neg = true ∧ overflow → c = infOf ew fw true) ∧ (¬ (neg = true ∧ overflow) → Below ew fw v c)
  | .ru =>
    (overflow ↔ if neg then past (limitUnits ew fw) else 0 < sg * v (sg * (2 * topUnits ew fw))) ∧
    (neg = false ∧ overflow → c = infOf ew fw false) ∧ (¬ (neg = false ∧ overflow) → Above ew fw v c)

/-- A finite exact result with its flags (R93, R96): a zero has the sign given and no flag; another is rounded once, OF and NX where it
overflows, NX where the code's value is another, and UF where besides the exact result is below the least normal value. -/
def FloatResult (ew fw : Nat) (rm : Rnd) (v : Exact) (zeroNeg : Bool) (r : Nat × BitVec 5) : Prop :=
  if v 0 = 0 then r = (signCode ew fw zeroNeg, 0#5)
  else
    let neg := decide (v 0 < 0)
    let sg : Int := if neg then -1 else 1
    ∃ overflow : Prop, Rounds ew fw rm v r.1 overflow ∧
      (overflow → r.2 = 0x05#5) ∧
      (¬ overflow → r.2 = (if v (2 * unitsOf ew fw r.1) = 0 then 0#5 else if sg * v (sg * (2 * 2 ^ fw)) < 0 then 0x03#5 else 0x01#5))

/-- x + y (R102). -/
def SumResult (ew fw : Nat) (rm : Rnd) (x y : Nat) (r : Nat × BitVec 5) : Prop :=
  if nanCode ew fw x || nanCode ew fw y then r = (quietNan ew fw, nvIf (snanCode ew fw x || snanCode ew fw y))
  else if infCode ew fw x && infCode ew fw y then
    r = if negOf ew fw x = negOf ew fw y then (infOf ew fw (negOf ew fw x), 0#5) else (quietNan ew fw, 0x10#5)
  else if infCode ew fw x then r = (infOf ew fw (negOf ew fw x), 0#5)
  else if infCode ew fw y then r = (infOf ew fw (negOf ew fw y), 0#5)
  else FloatResult ew fw rm (ratio (unitsOf ew fw x + unitsOf ew fw y) 1)
    (if negOf ew fw x = negOf ew fw y then negOf ew fw x else decide (rm = .rd)) r

/-- A product is infinity times zero. -/
def zeroTimesInf (ew fw x y : Nat) : Bool :=
  (infCode ew fw x && decide (y % 2 ^ (ew + fw) = 0)) || (infCode ew fw y && decide (x % 2 ^ (ew + fw) = 0))

/-- x × y (R102). -/
def ProductResult (ew fw : Nat) (rm : Rnd) (x y : Nat) (r : Nat × BitVec 5) : Prop :=
  let neg := negOf ew fw x != negOf ew fw y
  if nanCode ew fw x || nanCode ew fw y then r = (quietNan ew fw, nvIf (snanCode ew fw x || snanCode ew fw y))
  else if zeroTimesInf ew fw x y then r = (quietNan ew fw, 0x10#5)
  else if infCode ew fw x || infCode ew fw y then r = (infOf ew fw neg, 0#5)
  else FloatResult ew fw rm (ratio (unitsOf ew fw x * unitsOf ew fw y) (oneUnits ew fw)) neg r

/-- x × y + z, rounded once; zero times infinity is invalid beside any z (R102). -/
def FusedResult (ew fw : Nat) (rm : Rnd) (x y z : Nat) (r : Nat × BitVec 5) : Prop :=
  let neg := negOf ew fw x != negOf ew fw y
  if nanCode ew fw x || nanCode ew fw y then
    r = (quietNan ew fw, nvIf (snanCode ew fw x || snanCode ew fw y || snanCode ew fw z))
  else if zeroTimesInf ew fw x y then r = (quietNan ew fw, 0x10#5)
  else if nanCode ew fw z then r = (quietNan ew fw, nvIf (snanCode ew fw z))
  else if infCode ew fw x || infCode ew fw y then
    r = if infCode ew fw z && negOf ew fw z != neg then (quietNan ew fw, 0x10#5) else (infOf ew fw neg, 0#5)
  else if infCode ew fw z then r = (infOf ew fw (negOf ew fw z), 0#5)
  else FloatResult ew fw rm (ratio (unitsOf ew fw x * unitsOf ew fw y + unitsOf ew fw z * oneUnits ew fw) (oneUnits ew fw))
    (if neg = negOf ew fw z then neg else decide (rm = .rd)) r

/-- x ÷ y (R107). -/
def QuotientResult (ew fw : Nat) (rm : Rnd) (x y : Nat) (r : Nat × BitVec 5) : Prop :=
  let neg := negOf ew fw x != negOf ew fw y
  if nanCode ew fw x || nanCode ew fw y then r = (quietNan ew fw, nvIf (snanCode ew fw x || snanCode ew fw y))
  else if infCode ew fw x then r = if infCode ew fw y then (quietNan ew fw, 0x10#5) else (infOf ew fw neg, 0#5)
  else if infCode ew fw y then r = (signCode ew fw neg, 0#5)
  else if unitsOf ew fw y = 0 then r = if unitsOf ew fw x = 0 then (quietNan ew fw, 0x10#5) else (infOf ew fw neg, 0x08#5)
  else FloatResult ew fw rm
    (ratio (unitsOf ew fw x * (unitsOf ew fw y).sign * oneUnits ew fw) (unitsOf ew fw y).natAbs) neg r

/-- √x (R106). -/
def RootResult (ew fw : Nat) (rm : Rnd) (x : Nat) (r : Nat × BitVec 5) : Prop :=
  if nanCode ew fw x then r = (quietNan ew fw, nvIf (snanCode ew fw x))
  else if x % 2 ^ (ew + fw) = 0 then r = (signCode ew fw (negOf ew fw x), 0#5)
  else if negOf ew fw x then r = (quietNan ew fw, 0x10#5)
  else if infCode ew fw x then r = (infOf ew fw false, 0#5)
  else FloatResult ew fw rm (rootOf ((unitsOf ew fw x).natAbs * oneUnits ew fw)) false r

/-- A word's result with its flags, as a code of FP32. -/
def code32 (r : Word × BitVec 5) : Nat × BitVec 5 := (r.1.toNat, r.2)

/-- Half `k` of a word. -/
def halfOf (w : Word) (k : Nat) : Nat := w.toNat / 2 ^ (16 * k) % 2 ^ 16

/-- Both halves of a result are what `P` says, and the flags are those of both (R108). -/
def BothHalves (P : Nat → Nat × BitVec 5 → Prop) (r : Word × BitVec 5) : Prop :=
  ∃ f0 f1 : BitVec 5, r.2 = f0 ||| f1 ∧ P 0 (halfOf r.1 0, f0) ∧ P 1 (halfOf r.1 1, f1)

/-- Byte `k` of a word. -/
def byteOf (w : Word) (k : Nat) : BitVec 8 := w.extractLsb' (8 * k) 8

/-! ### Narrow formats (R86-R92, R94, R95, R109, R111, R112)

Format codes are those of R43: 1 FP16, 2 BF16, 3 E5M2, 4 E4M3, 5 E3M2, 6 E2M3, 7 E2M1, 8 B8, 9 E8M0. Magnitudes are counted in units of
2^-149, the least subnormal of FP32. -/

/-- A format from FP16 to E2M1: exponent and fraction bits, the least subnormal, and the first magnitude code that is not finite (R86). -/
structure Narrow where
  ew : Nat
  fw : Nat
  unit : Nat
  lim : Nat

/-- The formats of R86. -/
def narrow : Nat → Narrow
  | 1 => ⟨5, 10, 2 ^ 125, 0x7C00⟩
  | 2 => ⟨8, 7, 2 ^ 16, 0x7F80⟩
  | 3 => ⟨5, 2, 2 ^ 133, 0x7C⟩
  | 4 => ⟨4, 3, 2 ^ 140, 0x7F⟩
  | 5 => ⟨3, 2, 2 ^ 145, 0x20⟩
  | 6 => ⟨2, 3, 2 ^ 146, 0x20⟩
  | _ => ⟨2, 1, 2 ^ 148, 0x8⟩

/-- The magnitude of a code on the grid of a format whose exponent is not bounded above, in units of its least subnormal (R86, R94). -/
def gridUnits (fw m : Nat) : Nat := if m < 2 ^ fw then m else (2 ^ fw + m % 2 ^ fw) * 2 ^ (m / 2 ^ fw - 1)

/-- The magnitude of a B8 code from 0x00 to 0x7F in units of 2^-14: the table of R91. -/
def bucor (c : Nat) : Nat :=
  if c < 16 then [0, 2 ^ 28, 1, 2 ^ 27, 2, 4, 2 ^ 25, 2 ^ 26, 8, 16, 32, 64, 2 ^ 21, 2 ^ 22, 2 ^ 23, 2 ^ 24].getD c 0
  else if c < 24 then (2 + c % 2) * 2 ^ (6 + (c - 16) / 2)
  else if c < 32 then (2 + c % 2) * 2 ^ (16 + (c - 24) / 2)
  else if c < 40 then 2048 + 256 * (c - 32)
  else if c < 48 then 4096 + 512 * (c - 40)
  else if c < 56 then 32768 + 4096 * (c - 48)
  else if c < 64 then 65536 + 8192 * (c - 56)
  else if c < 96 then 8192 + 256 * (c - 64)
  else 16384 + 512 * (c - 96)

/-- A code is the one that a mode picks for a magnitude X of a sign, among some codes that stand for `val`: to nearest, the one that wins a tie;
down, the greatest not above X; up, the least not below it (R92-R95). -/
def Picks (codes : Nat → Prop) (val : Nat → Nat) (wins : Nat → Nat → Prop) (rm : Rnd) (neg : Bool) (X c : Nat) : Prop :=
  let off (g : Nat) : Nat := ((val g : Int) - X).natAbs
  let down := val c ≤ X ∧ ∀ g, codes g → val g ≤ X → val g ≤ val c
  let up := X ≤ val c ∧ ∀ g, codes g → X ≤ val g → val c ≤ val g
  codes c ∧ match rm with
    | .rne => ∀ g, codes g → off c ≤ off g ∧ (g ≠ c → off c = off g → wins c g)
    | .rz => down
    | .rd => if neg then up else down
    | .ru => if neg then down else up

/-- The magnitude of a finite FP32 code times 2^S, where what it is compared with is taken times `2 ^ (-S).toNat`. -/
def scaledBy (S : Int) (x : Nat) : Nat := (unitsOf 8 23 x).natAbs * 2 ^ S.toNat

/-- Flags of a rounded magnitude: NX where it differs, UF too where the exact one is below the least that counts as normal (R96). -/
def roundedFlags (X val least : Nat) : BitVec 5 := if val = X then 0#5 else if X < least then 0x03#5 else 0x01#5

/-- An FP32 code times 2^S as a code of a format from FP16 to E2M1: rounded on the unbounded grid, and what stands beyond its finite codes
(R89, R93, R94, R109). -/
def NarrowResult (fmt : Nat) (rm : Rnd) (nosat : Bool) (S : Int) (x : Nat) (r : Nat × BitVec 5) : Prop :=
  let f := narrow fmt
  let neg := negOf 8 23 x
  let sign := signCode f.ew f.fw neg
  let most := sign + f.lim - 1
  let beyond := if fmt ≤ 3 then sign + f.lim else if fmt = 4 then 0x7F else most
  if nanCode 8 23 x then
    r = if fmt = 1 then (0x7E00, nvIf (snanCode 8 23 x)) else if fmt = 2 then (0x7FC0, nvIf (snanCode 8 23 x))
      else if fmt = 3 then (0x7E, nvIf (snanCode 8 23 x)) else if fmt = 4 then (0x7F, nvIf (snanCode 8 23 x)) else (0, 0x10#5)
  else if infCode 8 23 x then r = (if fmt ≤ 2 ∨ nosat = true then beyond else most, 0#5)
  else
    let val (m : Nat) : Nat := gridUnits f.fw m * f.unit * 2 ^ (-S).toNat
    ∃ m, Picks (fun _ => True) val (fun c _ => c % 2 = 0) rm neg (scaledBy S x) m ∧
      r = if m < f.lim then (sign + m, roundedFlags (scaledBy S x) (val m) (val (2 ^ f.fw)))
        else if fmt ≤ 2 ∨ (fmt = 3 ∧ nosat = true) then (if rm = .rne ∨ rm = (if neg then .rd else .ru) then beyond else most, 0x05#5)
        else (if nosat = true then beyond else most, 0x05#5)

/-- An FP32 code times 2^S as a B8 code (R92, R94). -/
def BucorResult (rm : Rnd) (nosat : Bool) (S : Int) (x : Nat) (r : Nat × BitVec 5) : Prop :=
  let neg := negOf 8 23 x
  let signed (c : Nat) : Nat := if c = 0 then 0 else if neg then 0x80 + c else c
  let val (c : Nat) : Nat := bucor c * 2 ^ 135 * 2 ^ (-S).toNat
  if nanCode 8 23 x then r = (0x80, nvIf (snanCode 8 23 x))
  else if infCode 8 23 x then r = (if nosat then 0x80 else signed 1, 0#5)
  else if val 1 < scaledBy S x then r = (if nosat then 0x80 else signed 1, 0x05#5)
  else ∃ c, Picks (· < 128) val (fun c g => if c % 2 = g % 2 then val c < val g else c % 2 = 0) rm neg (scaledBy S x) c ∧
    r = (signed c, roundedFlags (scaledBy S x) (val c) (val 2))

/-- An FP32 code as an E8M0 code (R95): `j` stands for 2^(j - 149). -/
def ScaleResult (rm : Rnd) (nosat : Bool) (x : Nat) (r : Nat × BitVec 5) : Prop :=
  if nanCode 8 23 x then r = (0xFF, nvIf (snanCode 8 23 x))
  else if infCode 8 23 x then r = (if nosat then 0xFF else 0xFE, 0#5)
  else if unitsOf 8 23 x = 0 then r = (0, 0x03#5)
  else ∃ j, Picks (fun _ => True) (2 ^ ·) (fun c g => g < c) rm false (scaledBy 0 x) j ∧
    r = if j < 22 then (0, 0x03#5) else if 276 < j then (if nosat then 0xFF else 0xFE, 0x05#5)
      else (j - 22, if 2 ^ j = scaledBy 0 x then 0#5 else 0x01#5)

/-- An FP32 code times 2^S as a code of a format. -/
def ConvertResult (fmt : Nat) (rm : Rnd) (nosat : Bool) (S : Int) (x : Nat) (r : Nat × BitVec 5) : Prop :=
  if fmt = 9 then ScaleResult rm nosat x r else if fmt = 8 then BucorResult rm nosat S x r else NarrowResult fmt rm nosat S x r

/-- The magnitude bits of a code. -/
def magOf (fmt c : Nat) : Nat := c % 2 ^ ((narrow fmt).ew + (narrow fmt).fw)

/-- A code of a narrow format is a NaN, a signalling one, or an infinity (R86, R87, R89, R90). -/
def narrowNan (fmt c : Nat) : Bool :=
  if fmt = 9 then decide (c % 256 = 255) else if fmt = 8 then decide (c % 256 = 128)
  else decide ((narrow fmt).lim < magOf fmt c ∨ (fmt = 4 ∧ magOf fmt c = 0x7F))
def narrowSnan (fmt c : Nat) : Bool := decide (fmt ≤ 3 ∧ c % 2 ^ (narrow fmt).fw < 2 ^ ((narrow fmt).fw - 1)) && narrowNan fmt c
def narrowInf (fmt c : Nat) : Bool := decide (fmt ≤ 3 ∧ magOf fmt c = (narrow fmt).lim)

/-- The sign and the magnitude of a finite code of a narrow format. -/
def narrowNeg (fmt c : Nat) : Bool :=
  if fmt = 9 then false else if fmt = 8 then decide (128 ≤ c % 256) else negOf (narrow fmt).ew (narrow fmt).fw c
def narrowUnits (fmt c : Nat) : Nat :=
  if fmt = 9 then 2 ^ (c % 256 + 22) else if fmt = 8 then bucor (c % 128) * 2 ^ 135 else gridUnits (narrow fmt).fw (magOf fmt c) * (narrow fmt).unit

/-- A code times 2^-S as FP32, rounded once to nearest (R109, R112). -/
def WidenResult (fmt : Nat) (S : Int) (c : Nat) (r : Nat × BitVec 5) : Prop :=
  let neg := narrowNeg fmt c
  if narrowNan fmt c then r = (quietNan 8 23, nvIf (narrowSnan fmt c))
  else if narrowInf fmt c then r = (infOf 8 23 neg, 0#5)
  else FloatResult 8 23 .rne
    (ratio ((if neg then -1 else 1) * (narrowUnits fmt c * 2 ^ (-S).toNat : Nat)) ((2 ^ S.toNat : Nat) : Int)) neg r

/-- The bits of an element of `pk4` and `upk` (R111). -/
def elemBits (fmt : Nat) : Nat := if fmt = 7 then 4 else if fmt = 5 ∨ fmt = 6 then 6 else 8

/-! ### `fdp4` (R97, R98, R113), of E5M2, E4M3 and B8 elements -/

/-- The significand, the fraction width and the exponent of a finite element (R97). -/
def dotFrac (fmt c : Nat) : Nat :=
  if fmt = 3 then 2 else if fmt = 4 then 3
  else if 64 ≤ c % 128 then 5 else if 32 ≤ c % 128 then 3 else if 16 ≤ c % 128 then 1 else 0
def dotSig (fmt c : Nat) : Nat :=
  if fmt = 8 then (if c % 128 = 0 then 0 else 2 ^ dotFrac 8 c + c % 2 ^ dotFrac 8 c)
  else (if magOf fmt c < 2 ^ dotFrac fmt c then 0 else 2 ^ dotFrac fmt c) + c % 2 ^ dotFrac fmt c
def dotExp (fmt c : Nat) : Int :=
  if fmt = 8 then (Nat.log2 (bucor (c % 128)) : Int) - 14
  else (max 1 (magOf fmt c / 2 ^ dotFrac fmt c) : Nat) - (if fmt = 3 then 15 else 7 : Int)

/-- The sum of the products of finite elements with a z that is no NaN: the products, aligned at binary point 18 to the greatest exponent of those
that are not zero, are truncated in magnitude and summed, and the sum is added to z with one rounding; NX also where bits were cut off; z itself
where every product is zero. -/
def DotSum (fmt : Nat) (a b : Nat → Nat) (z : Word) (r : Word × BitVec 5) : Prop :=
  let m (k : Nat) := dotSig fmt (a k) * dotSig fmt (b k)
  let e (k : Nat) := dotExp fmt (a k) + dotExp fmt (b k)
  let nz := (List.range 4).filter (fun k => m k != 0)
  (nz = [] → r = (z, 0#5)) ∧
  ∀ emax : Int, (∃ k ∈ nz, e k = emax) → (∀ k ∈ nz, e k ≤ emax) →
    let placed (k : Nat) := m k * 2 ^ (18 - (dotFrac fmt (a k) + dotFrac fmt (b k)))
    let t (k : Nat) := placed k / 2 ^ (emax - e k).toNat
    let total : Int := (nz.map (fun k => (if narrowNeg fmt (a k) != narrowNeg fmt (b k) then -1 else 1) * (t k : Int))).sum
    let cut : BitVec 5 := if nz.any (fun k => placed k % 2 ^ (emax - e k).toNat != 0) then 0x01#5 else 0#5
    if infCode 8 23 z.toNat then r = (z, cut)
    else ∃ fl : BitVec 5, FloatResult 8 23 .rne (ratio (unitsOf 8 23 z.toNat + total * 2 ^ (emax + 131).toNat) 1) false (r.1.toNat, fl) ∧
      r.2 = fl ||| cut

/-- `fdp4`, NaNs and infinities among its operands (R98, R113): NV beside a NaN accumulator only for what signals, and for 0 times infinity where z is no
NaN (log 59). -/
def DotResult (fmt : Nat) (x y z : Word) (r : Word × BitVec 5) : Prop :=
  let a (k : Nat) := (byteOf x k).toNat
  let b (k : Nat) := (byteOf y k).toNat
  let ks := List.range 4
  let signals := ks.any (fun k => narrowSnan fmt (a k) || narrowSnan fmt (b k))
  let made (k : Nat) : Bool := (narrowInf fmt (a k) && dotSig fmt (b k) == 0) || (narrowInf fmt (b k) && dotSig fmt (a k) == 0)
  let inf (neg : Bool) (k : Nat) : Bool :=
    (narrowInf fmt (a k) || narrowInf fmt (b k)) && (narrowNeg fmt (a k) != narrowNeg fmt (b k)) == neg
  if isNaN32 z then r = (0x7FC00000#32, nvIf (isSNaN32 z || signals))
  else if ks.any (fun k => narrowNan fmt (a k) || narrowNan fmt (b k) || made k) then r = (0x7FC00000#32, nvIf (signals || ks.any made))
  else if ks.any (inf true) && ks.any (inf false) then r = (0x7FC00000#32, 0x10#5)
  else if ks.any (inf true) then SumResult 8 23 .rne z.toNat (infOf 8 23 true) (code32 r)
  else if ks.any (inf false) then SumResult 8 23 .rne z.toNat (infOf 8 23 false) (code32 r)
  else DotSum fmt a b z r

/-- What the special inputs of an approximate function give (R106): at a NaN the canonical NaN, NV where it signals; at the zeros, the
infinities and the negative numbers the results given, where `none` leaves it to the others. -/
def SpecialInputs (fn : Word → Word × BitVec 5) (pz nz pinf ninf : Word × BitVec 5) (negNv : Bool) : Prop :=
  (∀ w, isNaN32 w = true → fn w = (0x7FC00000#32, nvIf (isSNaN32 w))) ∧
  fn 0x00000000#32 = pz ∧ fn 0x80000000#32 = nz ∧ fn 0x7F800000#32 = pinf ∧ fn 0xFF800000#32 = ninf ∧
  (negNv = true → ∀ w, isNaN32 w = false → w.msb = true → w ≠ 0x80000000#32 → fn w = (0x7FC00000#32, 0x10#5))

/-- The FP32 word of 2^k, for a normal one. -/
def powWord (k : Int) : Word := BitVec.ofNat 32 ((k + 127).toNat * 2 ^ 23)

end Sys2Proof.Claim

/-- R76: the amounts of `shl`, `shr` and `sar` are all 32 bits of y; 32 and more shift everything out;
`rotl` takes the amount modulo 32. -/
def Sys2Proof.Claim.ShiftAmounts : Prop :=
  ∀ x y : Sys2Proof.Word,
    (y.toNat ≤ 31 → (Sys2Proof.Machine.shlW x y).toNat = x.toNat * 2 ^ y.toNat % 2 ^ 32 ∧
      (Sys2Proof.Machine.shrW x y).toNat = x.toNat / 2 ^ y.toNat ∧
      (Sys2Proof.Machine.sarW x y).toInt = x.toInt / 2 ^ y.toNat) ∧
    (32 ≤ y.toNat → Sys2Proof.Machine.shlW x y = 0#32 ∧ Sys2Proof.Machine.shrW x y = 0#32 ∧
      Sys2Proof.Machine.sarW x y = if x.getLsbD 31 then 0xFFFFFFFF#32 else 0#32) ∧
    (Sys2Proof.Machine.rotlW x y).toNat = x.toNat * 2 ^ (y.toNat % 32) % 2 ^ 32 + x.toNat / 2 ^ (32 - y.toNat % 32)

/-- R77: `bfe.u`, `bfe.s` and `bfi` take position y[4:0] and length y[13:8], at most 32; `bfe.u` reads zeros above bit 31, `bfe.s` the
sign, and `bfi` cuts the field there. -/
def Sys2Proof.Claim.BitFields : Prop :=
  ∀ x y z : Sys2Proof.Word, ∀ pos n : Nat, pos = y.toNat % 32 → n = min (y.toNat / 2 ^ 8 % 64) 32 →
    (Sys2Proof.Machine.bfeUW x y).toNat = x.toNat / 2 ^ pos % 2 ^ n ∧
    (Sys2Proof.Machine.bfeSW x y).toInt = (if n = 0 then 0 else Int.bmod (x.toInt / 2 ^ pos) (2 ^ n)) ∧
    ∀ i, i < 32 → (Sys2Proof.Machine.bfiW x y z).getLsbD i =
      if pos ≤ i ∧ i < pos + n then x.getLsbD (i - pos) else z.getLsbD i

/-- R78: result byte k of `prmt` is one of the eight bytes of x and z, by the low three bits of nibble k of y, or 0xFF or 0 by that
byte's sign where the nibble's top bit is 1. -/
def Sys2Proof.Claim.BytePermute : Prop :=
  ∀ x y z : Sys2Proof.Word, ∀ k c v : Nat, k < 4 → c = y.toNat / 2 ^ (4 * k) % 16 →
    v = (x.toNat + z.toNat * 2 ^ 32) / 2 ^ (8 * (c % 8)) % 256 →
    (Sys2Proof.Machine.prmtW x y z).toNat / 2 ^ (8 * k) % 256 =
      if c < 8 then v else if 128 ≤ v then 255 else 0

/-- R76-R78: the shift, bit-field and permute words give every lane of their run those results, and change nothing else. -/
def Sys2Proof.Claim.ShiftAndFieldWordsRun : Prop :=
  ∀ (u : Bool) (d a : Sys2Proof.LOp) (b : Sys2Proof.BOp),
    Sys2Proof.Claim.LaneCompletes (.shl u d a b) Sys2Proof.Machine.binary (Sys2Proof.Machine.fn2 Sys2Proof.Machine.shlW) false u d a b ∧
    Sys2Proof.Claim.LaneCompletes (.shr u d a b) Sys2Proof.Machine.binary (Sys2Proof.Machine.fn2 Sys2Proof.Machine.shrW) false u d a b ∧
    Sys2Proof.Claim.LaneCompletes (.sar u d a b) Sys2Proof.Machine.binary (Sys2Proof.Machine.fn2 Sys2Proof.Machine.sarW) false u d a b ∧
    Sys2Proof.Claim.LaneCompletes (.rotl u d a b) Sys2Proof.Machine.binary (Sys2Proof.Machine.fn2 Sys2Proof.Machine.rotlW) false u d a b ∧
    Sys2Proof.Claim.LaneCompletes (.bfeU u d a b) Sys2Proof.Machine.binary (Sys2Proof.Machine.fn2 Sys2Proof.Machine.bfeUW) false u d a b ∧
    Sys2Proof.Claim.LaneCompletes (.bfeS u d a b) Sys2Proof.Machine.binary (Sys2Proof.Machine.fn2 Sys2Proof.Machine.bfeSW) false u d a b ∧
    Sys2Proof.Claim.LaneCompletes (.bfi u d a b) Sys2Proof.Machine.readModify (Sys2Proof.Machine.fn3 Sys2Proof.Machine.bfiW) false u d a b ∧
    Sys2Proof.Claim.LaneCompletes (.prmt u d a b) Sys2Proof.Machine.readModify (Sys2Proof.Machine.fn3 Sys2Proof.Machine.prmtW) false u d a b

/-- R79: the divisions and remainders, with all their cases; each word gives every lane of its run that result, with no flag and no trap. -/
def Obligations.DivisionCases : Prop :=
  (∀ x : Sys2Proof.Word, Sys2Proof.Machine.udivW x 0#32 = 0xFFFFFFFF#32 ∧ Sys2Proof.Machine.uremW x 0#32 = x ∧
    Sys2Proof.Machine.sdivW x 0#32 = 0xFFFFFFFF#32 ∧ Sys2Proof.Machine.sremW x 0#32 = x) ∧
  (∀ x y : Sys2Proof.Word, y ≠ 0#32 →
    (Sys2Proof.Machine.udivW x y).toNat = x.toNat / y.toNat ∧ (Sys2Proof.Machine.uremW x y).toNat = x.toNat % y.toNat ∧
    (¬ (x = 0x80000000#32 ∧ y = 0xFFFFFFFF#32) → (Sys2Proof.Machine.sdivW x y).toInt = x.toInt.tdiv y.toInt) ∧
    (Sys2Proof.Machine.sremW x y).toInt = x.toInt.tmod y.toInt ∧
    Sys2Proof.Machine.sdivW x y * y + Sys2Proof.Machine.sremW x y = x) ∧
  Sys2Proof.Machine.sdivW 0x80000000#32 0xFFFFFFFF#32 = 0x80000000#32 ∧
  (∀ (u : Bool) (d a : Sys2Proof.LOp) (b : Sys2Proof.BOp),
    Sys2Proof.Claim.LaneCompletes (.udiv u d a b) Sys2Proof.Machine.binary (Sys2Proof.Machine.fn2 Sys2Proof.Machine.udivW) true u d a b ∧
    Sys2Proof.Claim.LaneCompletes (.sdiv u d a b) Sys2Proof.Machine.binary (Sys2Proof.Machine.fn2 Sys2Proof.Machine.sdivW) true u d a b ∧
    Sys2Proof.Claim.LaneCompletes (.urem u d a b) Sys2Proof.Machine.binary (Sys2Proof.Machine.fn2 Sys2Proof.Machine.uremW) true u d a b ∧
    Sys2Proof.Claim.LaneCompletes (.srem u d a b) Sys2Proof.Machine.binary (Sys2Proof.Machine.fn2 Sys2Proof.Machine.sremW) true u d a b)

/-- R103, R104: the minimum, the maximum and the comparisons of FP32 words, NaNs among them; each word gives every lane of its run that result
and its flags. -/
def Sys2Proof.Claim.FloatOrderCases : Prop :=
  (∀ x y : Sys2Proof.Word,
    let nv := Sys2Proof.Claim.isSNaN32 x || Sys2Proof.Claim.isSNaN32 y
    let nan := Sys2Proof.Claim.isNaN32 x || Sys2Proof.Claim.isNaN32 y
    Sys2Proof.Machine.f32Min x y =
      (if Sys2Proof.Claim.isNaN32 x && Sys2Proof.Claim.isNaN32 y then 0x7FC00000#32
        else if Sys2Proof.Claim.isNaN32 x then y else if Sys2Proof.Claim.isNaN32 y then x
        else if Sys2Proof.Claim.orderKey y < Sys2Proof.Claim.orderKey x then y else x, Sys2Proof.Claim.nvIf nv) ∧
    Sys2Proof.Machine.f32Max x y =
      (if Sys2Proof.Claim.isNaN32 x && Sys2Proof.Claim.isNaN32 y then 0x7FC00000#32
        else if Sys2Proof.Claim.isNaN32 x then y else if Sys2Proof.Claim.isNaN32 y then x
        else if Sys2Proof.Claim.orderKey x < Sys2Proof.Claim.orderKey y then y else x, Sys2Proof.Claim.nvIf nv) ∧
    Sys2Proof.Machine.f32Eq x y =
      (Sys2Proof.Word.ofBool (!nan && decide (Sys2Proof.Claim.cmpKey x = Sys2Proof.Claim.cmpKey y)), Sys2Proof.Claim.nvIf nv) ∧
    Sys2Proof.Machine.f32Lt x y =
      (Sys2Proof.Word.ofBool (!nan && decide (Sys2Proof.Claim.cmpKey x < Sys2Proof.Claim.cmpKey y)), Sys2Proof.Claim.nvIf nan) ∧
    Sys2Proof.Machine.f32Le x y =
      (Sys2Proof.Word.ofBool (!nan && decide (Sys2Proof.Claim.cmpKey x ≤ Sys2Proof.Claim.cmpKey y)), Sys2Proof.Claim.nvIf nan) ∧
    Sys2Proof.Machine.f32Un x y = (Sys2Proof.Word.ofBool nan, Sys2Proof.Claim.nvIf nv)) ∧
  ∀ (u : Bool) (d a : Sys2Proof.LOp) (b : Sys2Proof.BOp),
    Sys2Proof.Claim.LaneCompletes (.fmin u d a b) Sys2Proof.Machine.binary.float (Sys2Proof.Machine.fnF2 Sys2Proof.Machine.f32Min) false u d a b ∧
    Sys2Proof.Claim.LaneCompletes (.fmax u d a b) Sys2Proof.Machine.binary.float (Sys2Proof.Machine.fnF2 Sys2Proof.Machine.f32Max) false u d a b ∧
    Sys2Proof.Claim.LaneCompletes (.fcmpEq u d a b) Sys2Proof.Machine.binary.float (Sys2Proof.Machine.fnF2 Sys2Proof.Machine.f32Eq) false u d a b ∧
    Sys2Proof.Claim.LaneCompletes (.fcmpLt u d a b) Sys2Proof.Machine.binary.float (Sys2Proof.Machine.fnF2 Sys2Proof.Machine.f32Lt) false u d a b ∧
    Sys2Proof.Claim.LaneCompletes (.fcmpLe u d a b) Sys2Proof.Machine.binary.float (Sys2Proof.Machine.fnF2 Sys2Proof.Machine.f32Le) false u d a b ∧
    Sys2Proof.Claim.LaneCompletes (.fcmpUn u d a b) Sys2Proof.Machine.binary.float (Sys2Proof.Machine.fnF2 Sys2Proof.Machine.f32Un) false u d a b

/-- R93, R96, R102, R105-R108: the FP32 arithmetic rounds its exact result once by its mode, with the flags that R96 defines, NaNs,
infinities, signed zeros and subnormals among the operands; `hadd2`, `hmul2` and `hfma2` do the same in FP16 by half; `fclass` sets the
one bit of its operand's class. -/
def Sys2Proof.Claim.FloatArithmetic : Prop :=
  (∀ (rm : Sys2Proof.Machine.Rnd) (x y z : Sys2Proof.Word),
    Sys2Proof.Claim.SumResult 8 23 rm x.toNat y.toNat (Sys2Proof.Claim.code32 (Sys2Proof.Machine.f32Add rm x y)) ∧
    Sys2Proof.Claim.SumResult 8 23 rm x.toNat (y ^^^ 0x80000000#32).toNat (Sys2Proof.Claim.code32 (Sys2Proof.Machine.f32Sub rm x y)) ∧
    Sys2Proof.Claim.ProductResult 8 23 rm x.toNat y.toNat (Sys2Proof.Claim.code32 (Sys2Proof.Machine.f32Mul rm x y)) ∧
    Sys2Proof.Claim.FusedResult 8 23 rm x.toNat y.toNat z.toNat (Sys2Proof.Claim.code32 (Sys2Proof.Machine.f32Fma rm x y z)) ∧
    Sys2Proof.Claim.QuotientResult 8 23 rm x.toNat y.toNat (Sys2Proof.Claim.code32 (Sys2Proof.Machine.f32Div rm x y)) ∧
    Sys2Proof.Claim.RootResult 8 23 rm x.toNat (Sys2Proof.Claim.code32 (Sys2Proof.Machine.f32Sqrt rm x))) ∧
  (∀ x y z : Sys2Proof.Word,
    Sys2Proof.Claim.BothHalves (fun k => Sys2Proof.Claim.SumResult 5 10 .rne (Sys2Proof.Claim.halfOf x k) (Sys2Proof.Claim.halfOf y k))
      (Sys2Proof.Machine.halves2 (Sys2Proof.Machine.fp16.addV .rne) x y) ∧
    Sys2Proof.Claim.BothHalves (fun k => Sys2Proof.Claim.ProductResult 5 10 .rne (Sys2Proof.Claim.halfOf x k) (Sys2Proof.Claim.halfOf y k))
      (Sys2Proof.Machine.halves2 (Sys2Proof.Machine.fp16.mulV .rne) x y) ∧
    Sys2Proof.Claim.BothHalves (fun k => Sys2Proof.Claim.FusedResult 5 10 .rne (Sys2Proof.Claim.halfOf x k) (Sys2Proof.Claim.halfOf y k)
      (Sys2Proof.Claim.halfOf z k)) (Sys2Proof.Machine.halves3 x y z)) ∧
  ∀ x : Sys2Proof.Word, Sys2Proof.Machine.f32Class x =
    let e := Sys2Proof.Claim.expOf 8 23 x.toNat
    let f := Sys2Proof.Claim.fracOf 23 x.toNat
    if e = 255 then (if f = 0 then (if x.msb then 1#32 else 0x80#32) else if x.getLsbD 22 then 0x200#32 else 0x100#32)
    else if e ≠ 0 then (if x.msb then 2#32 else 0x40#32)
    else if f ≠ 0 then (if x.msb then 4#32 else 0x20#32)
    else if x.msb then 8#32 else 0x10#32

/-- R98, R106, R110, R113: the special inputs and the exact results of the approximate functions; `cvti` and `cvfi` between FP32 and integers; the
sums of `dp4`, and those of `fdp4` on E4M3, E5M2 and B8 elements with their flags, NaNs and infinities among them (log 59). The value of an approximate
function elsewhere is a free value within the rule's bound (logs 8, 60). -/
def Sys2Proof.Claim.ApproximatesAndDots : Prop :=
  Sys2Proof.Claim.SpecialInputs Sys2Proof.Machine.f32Rcp (0x7F800000#32, 0x08#5) (0xFF800000#32, 0x08#5) (0#32, 0#5) (0x80000000#32, 0#5) false ∧
  Sys2Proof.Claim.SpecialInputs Sys2Proof.Machine.f32Rsq (0x7F800000#32, 0x08#5) (0xFF800000#32, 0x08#5) (0#32, 0#5) (0x7FC00000#32, 0x10#5) true ∧
  Sys2Proof.Claim.SpecialInputs Sys2Proof.Machine.f32Ex2 (0x3F800000#32, 0#5) (0x3F800000#32, 0#5) (0x7F800000#32, 0#5) (0#32, 0#5) false ∧
  Sys2Proof.Claim.SpecialInputs Sys2Proof.Machine.f32Lg2 (0xFF800000#32, 0x08#5) (0xFF800000#32, 0x08#5) (0x7F800000#32, 0#5) (0x7FC00000#32, 0x10#5) true ∧
  Sys2Proof.Claim.SpecialInputs Sys2Proof.Machine.f32Sin (0#32, 0#5) (0x80000000#32, 0#5) (0x7FC00000#32, 0x10#5) (0x7FC00000#32, 0x10#5) false ∧
  Sys2Proof.Claim.SpecialInputs Sys2Proof.Machine.f32Cos (0x3F800000#32, 0#5) (0x3F800000#32, 0#5) (0x7FC00000#32, 0x10#5) (0x7FC00000#32, 0x10#5) false ∧
  (∀ k : Int, -126 ≤ k → k ≤ 126 →
    Sys2Proof.Machine.f32Rcp (Sys2Proof.Claim.powWord k) = (Sys2Proof.Claim.powWord (-k), 0#5) ∧
    (k % 2 = 0 → Sys2Proof.Machine.f32Rsq (Sys2Proof.Claim.powWord k) = (Sys2Proof.Claim.powWord (-(k / 2)), 0#5)) ∧
    Sys2Proof.Machine.f32Ex2 (Sys2Proof.Machine.constF32 (BitVec.ofInt 32 k)) = (Sys2Proof.Claim.powWord k, 0#5) ∧
    Sys2Proof.Machine.f32Lg2 (Sys2Proof.Claim.powWord k) = (Sys2Proof.Machine.constF32 (BitVec.ofInt 32 k), 0#5)) ∧
  (∀ (rm : Sys2Proof.Machine.Rnd) (x : Sys2Proof.Word),
    (let r := Sys2Proof.Machine.intToF32 rm false x
     Sys2Proof.Claim.FloatResult 8 23 rm (Sys2Proof.Claim.ratio (x.toInt * Sys2Proof.Claim.oneUnits 8 23) 1) false (Sys2Proof.Claim.code32 r)) ∧
    (let r := Sys2Proof.Machine.intToF32 rm true x
     Sys2Proof.Claim.FloatResult 8 23 rm (Sys2Proof.Claim.ratio (x.toNat * Sys2Proof.Claim.oneUnits 8 23) 1) false (Sys2Proof.Claim.code32 r)) ∧
    ∀ uns : Bool,
      let one : Int := Sys2Proof.Claim.oneUnits 8 23
      let u := Sys2Proof.Claim.unitsOf 8 23 x.toNat
      let n : Int := match rm with
        | .rne => let q := u / one
                  if 2 * (u % one) < one ∨ (2 * (u % one) = one ∧ q % 2 = 0) then q else q + 1
        | .rz => u.tdiv one
        | .rd => u / one
        | .ru => -(-u / one)
      let lo : Int := if uns then 0 else -2 ^ 31
      let hi : Int := if uns then 2 ^ 32 - 1 else 2 ^ 31 - 1
      Sys2Proof.Machine.f32ToInt rm uns x =
        if Sys2Proof.Claim.isNaN32 x then (0#32, 0x10#5)
        else if x.toNat % 2 ^ 31 = 0x7F800000 then (BitVec.ofInt 32 (if x.msb then lo else hi), 0x10#5)
        else if n < lo then (BitVec.ofInt 32 lo, 0x10#5) else if hi < n then (BitVec.ofInt 32 hi, 0x10#5)
        else (BitVec.ofInt 32 n, if u % one = 0 then 0#5 else 0x01#5)) ∧
  (∀ x y z : Sys2Proof.Word,
    Sys2Proof.Machine.dp4SW x y z = z + BitVec.ofInt 32 (((List.range 4).map (fun k =>
      (Sys2Proof.Claim.byteOf x k).toInt * (Sys2Proof.Claim.byteOf y k).toInt)).sum) ∧
    Sys2Proof.Machine.dp4UW x y z = z + BitVec.ofNat 32 (((List.range 4).map (fun k =>
      (Sys2Proof.Claim.byteOf x k).toNat * (Sys2Proof.Claim.byteOf y k).toNat)).sum) ∧
    ∀ fmt, fmt = 3 ∨ fmt = 4 ∨ fmt = 8 → Sys2Proof.Claim.DotResult fmt x y z (Sys2Proof.Machine.fdp4 fmt x y z))

/-- R86-R92, R94, R95, R109, R111, R112: the values and flags of conversions between FP32 and every narrow format, in every mode, saturating and
not; the codes that `pk4` and `upk` place and take; and those that `qnt` and `dqnt` scale. A value below 2^-127 that rounds up to it sets no UF in E8M0
(log 58). -/
def Sys2Proof.Claim.NarrowConversions : Prop :=
  (∀ fmt rm nosat (x : Sys2Proof.Word), 1 ≤ fmt → fmt ≤ 9 →
    Sys2Proof.Claim.ConvertResult fmt rm nosat 0 x.toNat (Sys2Proof.Machine.convert fmt rm nosat (Sys2Proof.Machine.fval x))) ∧
  (∀ fmt (S : Int) (x : Sys2Proof.Word), 3 ≤ fmt → fmt ≤ 8 →
    Sys2Proof.Claim.ConvertResult fmt .rne false S x.toNat
      (Sys2Proof.Machine.convert fmt .rne false ((Sys2Proof.Machine.fval x).scale S))) ∧
  (∀ fmt (c : Sys2Proof.Word), 1 ≤ fmt → fmt ≤ 9 →
    Sys2Proof.Claim.WidenResult fmt 0 c.toNat (Sys2Proof.Claim.code32 (Sys2Proof.Machine.widen fmt c.toNat)) ∧
    (Sys2Proof.Claim.narrowSnan fmt c.toNat = false → (Sys2Proof.Machine.widen fmt c.toNat).2 = 0#5)) ∧
  (∀ fmt (S : Int) (c : Sys2Proof.Word), 3 ≤ fmt → fmt ≤ 8 →
    Sys2Proof.Claim.WidenResult fmt S c.toNat (Sys2Proof.Claim.code32 (Sys2Proof.Machine.word32 (Sys2Proof.Machine.fp32.roundV .rne
      ((Sys2Proof.Machine.decodeFmt fmt c.toNat).scale (-S)))))) ∧
  ∀ fmt rm nosat (w0 w1 w2 w3 : Sys2Proof.Word), 3 ≤ fmt → fmt ≤ 8 →
    let n := Sys2Proof.Claim.elemBits fmt
    let code (w : Sys2Proof.Word) := Sys2Proof.Machine.convert fmt rm nosat (Sys2Proof.Machine.fval w)
    let out (k : Nat) := Sys2Proof.Machine.widen fmt (w0.toNat / 2 ^ (n * k) % 2 ^ n)
    (Sys2Proof.Machine.pack4 fmt rm nosat [w0, w1, w2, w3]).1.toNat =
      (code w0).1 + (code w1).1 * 2 ^ n + (code w2).1 * 2 ^ (2 * n) + (code w3).1 * 2 ^ (3 * n) ∧
    (Sys2Proof.Machine.pack4 fmt rm nosat [w0, w1, w2, w3]).2 = (code w0).2 ||| (code w1).2 ||| (code w2).2 ||| (code w3).2 ∧
    Sys2Proof.Machine.unpack4 fmt w0 =
      ([(out 0).1, (out 1).1, (out 2).1, (out 3).1], (out 0).2 ||| (out 1).2 ||| (out 2).2 ||| (out 3).2)

namespace Sys2Proof.Claim

open Sys2Proof.Machine

/-! ### Words that start memory accesses (R22-R26, R123, R124, R143-R145) -/

/-- What a memory word asks for: its space, whether it writes, whether it must name a flag, whether it is performed once, its operation,
its width in bytes, its data and base operands, its offset, ordering code and size in words, the data words and bytes that it reads, the
registers of its data operand, where its result goes, and which register counts allow its operands. -/
structure Access where
  global : Bool
  write : Bool
  needFlag : Bool
  u : Bool
  kind : OpKind
  w : Nat
  d : LOp
  a : LOp
  off : Int
  ord : Nat
  size : Nat
  words : Nat
  bytes : Nat
  dw : Nat
  dest : Dest
  ok : Nat → Bool

/-- The loads, stores and atomics of global memory, scratch and slices. -/
inductive MemWord : Instr → Access → Prop
  | ldgB8 (u d a ord off) : MemWord (.ldgB8 u d a ord off)
      { global := true, write := false, needFlag := true, u := u, kind := .load false, w := 1, d := d, a := a,
        off := offBytes off 1, ord := ord.toNat, size := offSize off, words := 0, bytes := 0, dw := wordsOfWidth 1,
        dest := .lane d, ok := fun regs => loadDstOk regs 1 u d && srcOk regs 2 u a && ord != 7#3 }
  | ldgB16 (u d a ord off) : MemWord (.ldgB16 u d a ord off)
      { global := true, write := false, needFlag := true, u := u, kind := .load false, w := 2, d := d, a := a,
        off := offBytes off 2, ord := ord.toNat, size := offSize off, words := 0, bytes := 0, dw := wordsOfWidth 2,
        dest := .lane d, ok := fun regs => loadDstOk regs 2 u d && srcOk regs 2 u a && ord != 7#3 }
  | ldgB32 (u d a ord off) : MemWord (.ldgB32 u d a ord off)
      { global := true, write := false, needFlag := true, u := u, kind := .load false, w := 4, d := d, a := a,
        off := offBytes off 4, ord := ord.toNat, size := offSize off, words := 0, bytes := 0, dw := wordsOfWidth 4,
        dest := .lane d, ok := fun regs => loadDstOk regs 4 u d && srcOk regs 2 u a && ord != 7#3 }
  | ldgB64 (u d a ord off) : MemWord (.ldgB64 u d a ord off)
      { global := true, write := false, needFlag := true, u := u, kind := .load false, w := 8, d := d, a := a,
        off := offBytes off 8, ord := ord.toNat, size := offSize off, words := 0, bytes := 0, dw := wordsOfWidth 8,
        dest := .lane d, ok := fun regs => loadDstOk regs 8 u d && srcOk regs 2 u a && ord != 7#3 }
  | ldgB128 (u d a ord off) : MemWord (.ldgB128 u d a ord off)
      { global := true, write := false, needFlag := true, u := u, kind := .load false, w := 16, d := d, a := a,
        off := offBytes off 16, ord := ord.toNat, size := offSize off, words := 0, bytes := 0, dw := wordsOfWidth 16,
        dest := .lane d, ok := fun regs => loadDstOk regs 16 u d && srcOk regs 2 u a && ord != 7#3 }
  | stgB8 (u d a ord off) : MemWord (.stgB8 u d a ord off)
      { global := true, write := true, needFlag := false, u := u, kind := .store false, w := 1, d := d, a := a,
        off := offBytes off 1, ord := ord.toNat, size := offSize off, words := wordsOfWidth 1, bytes := 1, dw := wordsOfWidth 1,
        dest := .none, ok := fun regs => storeSrcOk regs 1 u d && srcOk regs 2 u a && ord != 7#3 }
  | stgB16 (u d a ord off) : MemWord (.stgB16 u d a ord off)
      { global := true, write := true, needFlag := false, u := u, kind := .store false, w := 2, d := d, a := a,
        off := offBytes off 2, ord := ord.toNat, size := offSize off, words := wordsOfWidth 2, bytes := 2, dw := wordsOfWidth 2,
        dest := .none, ok := fun regs => storeSrcOk regs 2 u d && srcOk regs 2 u a && ord != 7#3 }
  | stgB32 (u d a ord off) : MemWord (.stgB32 u d a ord off)
      { global := true, write := true, needFlag := false, u := u, kind := .store false, w := 4, d := d, a := a,
        off := offBytes off 4, ord := ord.toNat, size := offSize off, words := wordsOfWidth 4, bytes := 4, dw := wordsOfWidth 4,
        dest := .none, ok := fun regs => storeSrcOk regs 4 u d && srcOk regs 2 u a && ord != 7#3 }
  | stgB64 (u d a ord off) : MemWord (.stgB64 u d a ord off)
      { global := true, write := true, needFlag := false, u := u, kind := .store false, w := 8, d := d, a := a,
        off := offBytes off 8, ord := ord.toNat, size := offSize off, words := wordsOfWidth 8, bytes := 8, dw := wordsOfWidth 8,
        dest := .none, ok := fun regs => storeSrcOk regs 8 u d && srcOk regs 2 u a && ord != 7#3 }
  | stgB128 (u d a ord off) : MemWord (.stgB128 u d a ord off)
      { global := true, write := true, needFlag := false, u := u, kind := .store false, w := 16, d := d, a := a,
        off := offBytes off 16, ord := ord.toNat, size := offSize off, words := wordsOfWidth 16, bytes := 16,
        dw := wordsOfWidth 16, dest := .none, ok := fun regs => storeSrcOk regs 16 u d && srcOk regs 2 u a && ord != 7#3 }
  | ldsB8 (u d a off) : MemWord (.ldsB8 u d a off)
      { global := false, write := false, needFlag := true, u := u, kind := .lds, w := 1, d := d, a := a, off := offBytes off 1,
        ord := 2, size := offSize off, words := 0, bytes := 0, dw := wordsOfWidth 1, dest := .lane d,
        ok := fun regs => loadDstOk regs 1 u d && localBaseOk regs a }
  | ldsB16 (u d a off) : MemWord (.ldsB16 u d a off)
      { global := false, write := false, needFlag := true, u := u, kind := .lds, w := 2, d := d, a := a, off := offBytes off 2,
        ord := 2, size := offSize off, words := 0, bytes := 0, dw := wordsOfWidth 2, dest := .lane d,
        ok := fun regs => loadDstOk regs 2 u d && localBaseOk regs a }
  | ldsB32 (u d a off) : MemWord (.ldsB32 u d a off)
      { global := false, write := false, needFlag := true, u := u, kind := .lds, w := 4, d := d, a := a, off := offBytes off 4,
        ord := 2, size := offSize off, words := 0, bytes := 0, dw := wordsOfWidth 4, dest := .lane d,
        ok := fun regs => loadDstOk regs 4 u d && localBaseOk regs a }
  | ldsB64 (u d a off) : MemWord (.ldsB64 u d a off)
      { global := false, write := false, needFlag := true, u := u, kind := .lds, w := 8, d := d, a := a, off := offBytes off 8,
        ord := 2, size := offSize off, words := 0, bytes := 0, dw := wordsOfWidth 8, dest := .lane d,
        ok := fun regs => loadDstOk regs 8 u d && localBaseOk regs a }
  | ldsB128 (u d a off) : MemWord (.ldsB128 u d a off)
      { global := false, write := false, needFlag := true, u := u, kind := .lds, w := 16, d := d, a := a,
        off := offBytes off 16, ord := 2, size := offSize off, words := 0, bytes := 0, dw := wordsOfWidth 16, dest := .lane d,
        ok := fun regs => loadDstOk regs 16 u d && localBaseOk regs a }
  | ldpB32 (u d a off) : MemWord (.ldpB32 u d a off)
      { global := false, write := false, needFlag := true, u := u, kind := .ldp, w := 4, d := d, a := a, off := offBytes off 4,
        ord := 2, size := offSize off, words := 0, bytes := 0, dw := wordsOfWidth 4, dest := .lane d,
        ok := fun regs => loadDstOk regs 4 u d && localBaseOk regs a }
  | ldpB64 (u d a off) : MemWord (.ldpB64 u d a off)
      { global := false, write := false, needFlag := true, u := u, kind := .ldp, w := 8, d := d, a := a, off := offBytes off 8,
        ord := 2, size := offSize off, words := 0, bytes := 0, dw := wordsOfWidth 8, dest := .lane d,
        ok := fun regs => loadDstOk regs 8 u d && localBaseOk regs a }
  | ldpB128 (u d a off) : MemWord (.ldpB128 u d a off)
      { global := false, write := false, needFlag := true, u := u, kind := .ldp, w := 16, d := d, a := a,
        off := offBytes off 16, ord := 2, size := offSize off, words := 0, bytes := 0, dw := wordsOfWidth 16, dest := .lane d,
        ok := fun regs => loadDstOk regs 16 u d && localBaseOk regs a }
  | stsB8 (u d a off) : MemWord (.stsB8 u d a off)
      { global := false, write := true, needFlag := false, u := u, kind := .sts, w := 1, d := d, a := a, off := offBytes off 1,
        ord := 2, size := offSize off, words := wordsOfWidth 1, bytes := 1, dw := wordsOfWidth 1, dest := .none,
        ok := fun regs => storeSrcOk regs 1 u d && localBaseOk regs a }
  | stsB16 (u d a off) : MemWord (.stsB16 u d a off)
      { global := false, write := true, needFlag := false, u := u, kind := .sts, w := 2, d := d, a := a, off := offBytes off 2,
        ord := 2, size := offSize off, words := wordsOfWidth 2, bytes := 2, dw := wordsOfWidth 2, dest := .none,
        ok := fun regs => storeSrcOk regs 2 u d && localBaseOk regs a }
  | stsB32 (u d a off) : MemWord (.stsB32 u d a off)
      { global := false, write := true, needFlag := false, u := u, kind := .sts, w := 4, d := d, a := a, off := offBytes off 4,
        ord := 2, size := offSize off, words := wordsOfWidth 4, bytes := 4, dw := wordsOfWidth 4, dest := .none,
        ok := fun regs => storeSrcOk regs 4 u d && localBaseOk regs a }
  | stsB64 (u d a off) : MemWord (.stsB64 u d a off)
      { global := false, write := true, needFlag := false, u := u, kind := .sts, w := 8, d := d, a := a, off := offBytes off 8,
        ord := 2, size := offSize off, words := wordsOfWidth 8, bytes := 8, dw := wordsOfWidth 8, dest := .none,
        ok := fun regs => storeSrcOk regs 8 u d && localBaseOk regs a }
  | stsB128 (u d a off) : MemWord (.stsB128 u d a off)
      { global := false, write := true, needFlag := false, u := u, kind := .sts, w := 16, d := d, a := a,
        off := offBytes off 16, ord := 2, size := offSize off, words := wordsOfWidth 16, bytes := 16, dw := wordsOfWidth 16,
        dest := .none, ok := fun regs => storeSrcOk regs 16 u d && localBaseOk regs a }
  | stpB32 (u d a off) : MemWord (.stpB32 u d a off)
      { global := false, write := true, needFlag := false, u := u, kind := .stp, w := 4, d := d, a := a, off := offBytes off 4,
        ord := 2, size := offSize off, words := wordsOfWidth 4, bytes := 4, dw := wordsOfWidth 4, dest := .none,
        ok := fun regs => storeSrcOk regs 4 u d && localBaseOk regs a }
  | stpB64 (u d a off) : MemWord (.stpB64 u d a off)
      { global := false, write := true, needFlag := false, u := u, kind := .stp, w := 8, d := d, a := a, off := offBytes off 8,
        ord := 2, size := offSize off, words := wordsOfWidth 8, bytes := 8, dw := wordsOfWidth 8, dest := .none,
        ok := fun regs => storeSrcOk regs 8 u d && localBaseOk regs a }
  | stpB128 (u d a off) : MemWord (.stpB128 u d a off)
      { global := false, write := true, needFlag := false, u := u, kind := .stp, w := 16, d := d, a := a,
        off := offBytes off 16, ord := 2, size := offSize off, words := wordsOfWidth 16, bytes := 16, dw := wordsOfWidth 16,
        dest := .none, ok := fun regs => storeSrcOk regs 16 u d && localBaseOk regs a }
  | atsAdd (d a wide) : MemWord (.atsAdd d a wide)
      { global := false, write := true, needFlag := true, u := false, kind := .ats 0, w := if wide then 8 else 4, d := d,
        a := a, off := 0, ord := 2, size := 1, words := atomicWords wide false, bytes := 4 * atomicWords wide false,
        dw := atomicWords wide false, dest := .lane d, ok := fun regs => atomicOk regs true wide false d && localBaseOk regs a }
  | atsMinS (d a wide) : MemWord (.atsMinS d a wide)
      { global := false, write := true, needFlag := true, u := false, kind := .ats 1, w := if wide then 8 else 4, d := d,
        a := a, off := 0, ord := 2, size := 1, words := atomicWords wide false, bytes := 4 * atomicWords wide false,
        dw := atomicWords wide false, dest := .lane d, ok := fun regs => atomicOk regs true wide false d && localBaseOk regs a }
  | atsMaxS (d a wide) : MemWord (.atsMaxS d a wide)
      { global := false, write := true, needFlag := true, u := false, kind := .ats 2, w := if wide then 8 else 4, d := d,
        a := a, off := 0, ord := 2, size := 1, words := atomicWords wide false, bytes := 4 * atomicWords wide false,
        dw := atomicWords wide false, dest := .lane d, ok := fun regs => atomicOk regs true wide false d && localBaseOk regs a }
  | atsMinU (d a wide) : MemWord (.atsMinU d a wide)
      { global := false, write := true, needFlag := true, u := false, kind := .ats 3, w := if wide then 8 else 4, d := d,
        a := a, off := 0, ord := 2, size := 1, words := atomicWords wide false, bytes := 4 * atomicWords wide false,
        dw := atomicWords wide false, dest := .lane d, ok := fun regs => atomicOk regs true wide false d && localBaseOk regs a }
  | atsMaxU (d a wide) : MemWord (.atsMaxU d a wide)
      { global := false, write := true, needFlag := true, u := false, kind := .ats 4, w := if wide then 8 else 4, d := d,
        a := a, off := 0, ord := 2, size := 1, words := atomicWords wide false, bytes := 4 * atomicWords wide false,
        dw := atomicWords wide false, dest := .lane d, ok := fun regs => atomicOk regs true wide false d && localBaseOk regs a }
  | atsAnd (d a wide) : MemWord (.atsAnd d a wide)
      { global := false, write := true, needFlag := true, u := false, kind := .ats 5, w := if wide then 8 else 4, d := d,
        a := a, off := 0, ord := 2, size := 1, words := atomicWords wide false, bytes := 4 * atomicWords wide false,
        dw := atomicWords wide false, dest := .lane d, ok := fun regs => atomicOk regs true wide false d && localBaseOk regs a }
  | atsOr (d a wide) : MemWord (.atsOr d a wide)
      { global := false, write := true, needFlag := true, u := false, kind := .ats 6, w := if wide then 8 else 4, d := d,
        a := a, off := 0, ord := 2, size := 1, words := atomicWords wide false, bytes := 4 * atomicWords wide false,
        dw := atomicWords wide false, dest := .lane d, ok := fun regs => atomicOk regs true wide false d && localBaseOk regs a }
  | atsXor (d a wide) : MemWord (.atsXor d a wide)
      { global := false, write := true, needFlag := true, u := false, kind := .ats 7, w := if wide then 8 else 4, d := d,
        a := a, off := 0, ord := 2, size := 1, words := atomicWords wide false, bytes := 4 * atomicWords wide false,
        dw := atomicWords wide false, dest := .lane d, ok := fun regs => atomicOk regs true wide false d && localBaseOk regs a }
  | atsExch (d a wide) : MemWord (.atsExch d a wide)
      { global := false, write := true, needFlag := true, u := false, kind := .ats 8, w := if wide then 8 else 4, d := d,
        a := a, off := 0, ord := 2, size := 1, words := atomicWords wide false, bytes := 4 * atomicWords wide false,
        dw := atomicWords wide false, dest := .lane d, ok := fun regs => atomicOk regs true wide false d && localBaseOk regs a }
  | atsCas (d a wide) : MemWord (.atsCas d a wide)
      { global := false, write := true, needFlag := true, u := false, kind := .ats 9, w := if wide then 8 else 4, d := d,
        a := a, off := 0, ord := 2, size := 1, words := atomicWords wide true, bytes := 4 * atomicWords wide true,
        dw := atomicWords wide true, dest := .lane d, ok := fun regs => atomicOk regs true wide true d && localBaseOk regs a }
  | atsFadd (d a) : MemWord (.atsFadd d a)
      { global := false, write := true, needFlag := true, u := false, kind := .ats 10, w := if false then 8 else 4, d := d,
        a := a, off := 0, ord := 2, size := 1, words := atomicWords false false, bytes := 4 * atomicWords false false,
        dw := atomicWords false false, dest := .lane d,
        ok := fun regs => atomicOk regs true false false d && localBaseOk regs a }
  | atgAdd (d a ord wide) : MemWord (.atgAdd d a ord wide)
      { global := true, write := true, needFlag := true, u := false, kind := .atomic 0 true, w := if wide then 8 else 4, d := d,
        a := a, off := 0, ord := ord.toNat, size := 1, words := atomicWords wide false, bytes := 4 * atomicWords wide false,
        dw := atomicWords wide false, dest := .lane d,
        ok := fun regs => atomicOk regs true wide false d && srcOk regs 2 true a && ord != 7#3 }
  | atgMinS (d a ord wide) : MemWord (.atgMinS d a ord wide)
      { global := true, write := true, needFlag := true, u := false, kind := .atomic 1 true, w := if wide then 8 else 4, d := d,
        a := a, off := 0, ord := ord.toNat, size := 1, words := atomicWords wide false, bytes := 4 * atomicWords wide false,
        dw := atomicWords wide false, dest := .lane d,
        ok := fun regs => atomicOk regs true wide false d && srcOk regs 2 true a && ord != 7#3 }
  | atgMaxS (d a ord wide) : MemWord (.atgMaxS d a ord wide)
      { global := true, write := true, needFlag := true, u := false, kind := .atomic 2 true, w := if wide then 8 else 4, d := d,
        a := a, off := 0, ord := ord.toNat, size := 1, words := atomicWords wide false, bytes := 4 * atomicWords wide false,
        dw := atomicWords wide false, dest := .lane d,
        ok := fun regs => atomicOk regs true wide false d && srcOk regs 2 true a && ord != 7#3 }
  | atgMinU (d a ord wide) : MemWord (.atgMinU d a ord wide)
      { global := true, write := true, needFlag := true, u := false, kind := .atomic 3 true, w := if wide then 8 else 4, d := d,
        a := a, off := 0, ord := ord.toNat, size := 1, words := atomicWords wide false, bytes := 4 * atomicWords wide false,
        dw := atomicWords wide false, dest := .lane d,
        ok := fun regs => atomicOk regs true wide false d && srcOk regs 2 true a && ord != 7#3 }
  | atgMaxU (d a ord wide) : MemWord (.atgMaxU d a ord wide)
      { global := true, write := true, needFlag := true, u := false, kind := .atomic 4 true, w := if wide then 8 else 4, d := d,
        a := a, off := 0, ord := ord.toNat, size := 1, words := atomicWords wide false, bytes := 4 * atomicWords wide false,
        dw := atomicWords wide false, dest := .lane d,
        ok := fun regs => atomicOk regs true wide false d && srcOk regs 2 true a && ord != 7#3 }
  | atgAnd (d a ord wide) : MemWord (.atgAnd d a ord wide)
      { global := true, write := true, needFlag := true, u := false, kind := .atomic 5 true, w := if wide then 8 else 4, d := d,
        a := a, off := 0, ord := ord.toNat, size := 1, words := atomicWords wide false, bytes := 4 * atomicWords wide false,
        dw := atomicWords wide false, dest := .lane d,
        ok := fun regs => atomicOk regs true wide false d && srcOk regs 2 true a && ord != 7#3 }
  | atgOr (d a ord wide) : MemWord (.atgOr d a ord wide)
      { global := true, write := true, needFlag := true, u := false, kind := .atomic 6 true, w := if wide then 8 else 4, d := d,
        a := a, off := 0, ord := ord.toNat, size := 1, words := atomicWords wide false, bytes := 4 * atomicWords wide false,
        dw := atomicWords wide false, dest := .lane d,
        ok := fun regs => atomicOk regs true wide false d && srcOk regs 2 true a && ord != 7#3 }
  | atgXor (d a ord wide) : MemWord (.atgXor d a ord wide)
      { global := true, write := true, needFlag := true, u := false, kind := .atomic 7 true, w := if wide then 8 else 4, d := d,
        a := a, off := 0, ord := ord.toNat, size := 1, words := atomicWords wide false, bytes := 4 * atomicWords wide false,
        dw := atomicWords wide false, dest := .lane d,
        ok := fun regs => atomicOk regs true wide false d && srcOk regs 2 true a && ord != 7#3 }
  | atgExch (d a ord wide) : MemWord (.atgExch d a ord wide)
      { global := true, write := true, needFlag := true, u := false, kind := .atomic 8 true, w := if wide then 8 else 4, d := d,
        a := a, off := 0, ord := ord.toNat, size := 1, words := atomicWords wide false, bytes := 4 * atomicWords wide false,
        dw := atomicWords wide false, dest := .lane d,
        ok := fun regs => atomicOk regs true wide false d && srcOk regs 2 true a && ord != 7#3 }
  | atgCas (d a ord wide) : MemWord (.atgCas d a ord wide)
      { global := true, write := true, needFlag := true, u := false, kind := .atomic 9 true, w := if wide then 8 else 4, d := d,
        a := a, off := 0, ord := ord.toNat, size := 1, words := atomicWords wide true, bytes := 4 * atomicWords wide true,
        dw := atomicWords wide true, dest := .lane d,
        ok := fun regs => atomicOk regs true wide true d && srcOk regs 2 true a && ord != 7#3 }
  | atgFadd (d a ord) : MemWord (.atgFadd d a ord)
      { global := true, write := true, needFlag := true, u := false, kind := .atomic 10 true, w := if false then 8 else 4,
        d := d, a := a, off := 0, ord := ord.toNat, size := 1, words := atomicWords false false,
        bytes := 4 * atomicWords false false, dw := atomicWords false false, dest := .lane d,
        ok := fun regs => atomicOk regs true false false d && srcOk regs 2 true a && ord != 7#3 }
  | redgAdd (d a ord wide) : MemWord (.redgAdd d a ord wide)
      { global := true, write := true, needFlag := false, u := false, kind := .atomic 0 false, w := if wide then 8 else 4,
        d := d, a := a, off := 0, ord := ord.toNat, size := 1, words := atomicWords wide false,
        bytes := 4 * atomicWords wide false, dw := atomicWords wide false, dest := .none,
        ok := fun regs => atomicOk regs false wide false d && srcOk regs 2 true a && ord != 7#3 }
  | redgMinS (d a ord wide) : MemWord (.redgMinS d a ord wide)
      { global := true, write := true, needFlag := false, u := false, kind := .atomic 1 false, w := if wide then 8 else 4,
        d := d, a := a, off := 0, ord := ord.toNat, size := 1, words := atomicWords wide false,
        bytes := 4 * atomicWords wide false, dw := atomicWords wide false, dest := .none,
        ok := fun regs => atomicOk regs false wide false d && srcOk regs 2 true a && ord != 7#3 }
  | redgMaxS (d a ord wide) : MemWord (.redgMaxS d a ord wide)
      { global := true, write := true, needFlag := false, u := false, kind := .atomic 2 false, w := if wide then 8 else 4,
        d := d, a := a, off := 0, ord := ord.toNat, size := 1, words := atomicWords wide false,
        bytes := 4 * atomicWords wide false, dw := atomicWords wide false, dest := .none,
        ok := fun regs => atomicOk regs false wide false d && srcOk regs 2 true a && ord != 7#3 }
  | redgMinU (d a ord wide) : MemWord (.redgMinU d a ord wide)
      { global := true, write := true, needFlag := false, u := false, kind := .atomic 3 false, w := if wide then 8 else 4,
        d := d, a := a, off := 0, ord := ord.toNat, size := 1, words := atomicWords wide false,
        bytes := 4 * atomicWords wide false, dw := atomicWords wide false, dest := .none,
        ok := fun regs => atomicOk regs false wide false d && srcOk regs 2 true a && ord != 7#3 }
  | redgMaxU (d a ord wide) : MemWord (.redgMaxU d a ord wide)
      { global := true, write := true, needFlag := false, u := false, kind := .atomic 4 false, w := if wide then 8 else 4,
        d := d, a := a, off := 0, ord := ord.toNat, size := 1, words := atomicWords wide false,
        bytes := 4 * atomicWords wide false, dw := atomicWords wide false, dest := .none,
        ok := fun regs => atomicOk regs false wide false d && srcOk regs 2 true a && ord != 7#3 }
  | redgAnd (d a ord wide) : MemWord (.redgAnd d a ord wide)
      { global := true, write := true, needFlag := false, u := false, kind := .atomic 5 false, w := if wide then 8 else 4,
        d := d, a := a, off := 0, ord := ord.toNat, size := 1, words := atomicWords wide false,
        bytes := 4 * atomicWords wide false, dw := atomicWords wide false, dest := .none,
        ok := fun regs => atomicOk regs false wide false d && srcOk regs 2 true a && ord != 7#3 }
  | redgOr (d a ord wide) : MemWord (.redgOr d a ord wide)
      { global := true, write := true, needFlag := false, u := false, kind := .atomic 6 false, w := if wide then 8 else 4,
        d := d, a := a, off := 0, ord := ord.toNat, size := 1, words := atomicWords wide false,
        bytes := 4 * atomicWords wide false, dw := atomicWords wide false, dest := .none,
        ok := fun regs => atomicOk regs false wide false d && srcOk regs 2 true a && ord != 7#3 }
  | redgXor (d a ord wide) : MemWord (.redgXor d a ord wide)
      { global := true, write := true, needFlag := false, u := false, kind := .atomic 7 false, w := if wide then 8 else 4,
        d := d, a := a, off := 0, ord := ord.toNat, size := 1, words := atomicWords wide false,
        bytes := 4 * atomicWords wide false, dw := atomicWords wide false, dest := .none,
        ok := fun regs => atomicOk regs false wide false d && srcOk regs 2 true a && ord != 7#3 }
  | redgFadd (d a ord) : MemWord (.redgFadd d a ord)
      { global := true, write := true, needFlag := false, u := false, kind := .atomic 10 false, w := if false then 8 else 4,
        d := d, a := a, off := 0, ord := ord.toNat, size := 1, words := atomicWords false false,
        bytes := 4 * atomicWords false false, dw := atomicWords false false, dest := .none,
        ok := fun regs => atomicOk regs false false false d && srcOk regs 2 true a && ord != 7#3 }
  | ldga (d a ord wide) : MemWord (.ldga d a ord wide)
      { global := true, write := false, needFlag := true, u := false, kind := .load true, w := if wide then 8 else 4, d := d,
        a := a, off := 0, ord := ord.toNat, size := 1, words := 0, bytes := 0, dw := if wide then 2 else 1, dest := .lane d,
        ok := fun regs => loadDstOk regs (if wide then 8 else 4) true d && (!wide || d != .zero) && d.noPort && srcOk regs 2 true a && ord != 7#3 &&
          ord != 0#3 }
  | stgr (d a ord wide) : MemWord (.stgr d a ord wide)
      { global := true, write := true, needFlag := false, u := false, kind := .store true, w := if wide then 8 else 4, d := d,
        a := a, off := 0, ord := ord.toNat, size := 1, words := if wide then 2 else 1, bytes := if wide then 8 else 4,
        dw := if wide then 2 else 1, dest := .none,
        ok := fun regs => storeSrcOk regs (if wide then 8 else 4) true d && (!wide || d != .zero) && d.noPort && srcOk regs 2 true a && ord != 7#3 &&
          ord != 0#3 }

/-- The flag that counts the accesses: SETA where the word has a result, SETB otherwise (R16). -/
def Access.flag (m : Access) (x : Issuer) : Option Nat := if m.needFlag then x.seta else x.setb

/-- Base plus offset of a lane's access (R22). -/
def Access.sum (m : Access) (x : Issuer) (l : Nat) : Int :=
  (if m.global then ((x.cr.thread l).readD l m.a).toNat else ((x.cr.thread l).readW l m.a).toNat : Nat) + m.off

/-- The address of a lane's access: that, modulo 2^64 or 2^32 (R123, R143). -/
def Access.addr (m : Access) (x : Issuer) (l : Nat) : Nat := (m.sum x l % ((if m.global then 2 ^ 64 else 2 ^ 32 : Nat) : Int)).toNat

/-- The bytes that a local access reaches: the 2 KiB of a slice, or the squad's allotment (R123). -/
def Access.limit (m : Access) (s : State) (x : Issuer) : Nat :=
  match m.kind with
  | .ldp => 0x800
  | .stp => 0x800
  | _ => (s.squad x.cr.squad).allot

/-- The main-file lines, and those of ports, that a memory word names. -/
def Access.lines (m : Access) : List Nat := linesOf m.dw m.d ++ linesOf (if m.global then 2 else 1) m.a

/-- The threads of each access: those of the run once where U is set, one by one where it is not (R34). -/
def Access.groups (m : Access) (x : Issuer) : List (List Nat) := if m.u then [x.run.lanes] else x.run.lanes.map (fun l => [l])

/-- The operation of one access. -/
def Access.op (m : Access) (s : State) (x : Issuer) (k : Nat) (g : List Nat) (pa : Nat) : Op :=
  let l := g.headD 0
  { id := s.nextId + k, kind := m.kind, crew := x.c, lanes := g, flag := m.flag x, dest := m.dest, addr := m.addr x l, pa := pa, width := m.w
    ord := m.ord, data := (bytesOfWords ((x.cr.thread l).dataWords l m.d m.words 0)).take m.bytes
    pc := x.run.hdr + BitVec.ofNat 64 (4 * (x.run.idx + 1)), stage := (s.thread x.c l).stage, time := (s.thread x.c l).time, at_ := s.now
    issue := match m.kind with
      | .ats _ => x.run.lanes
      | .atomic _ _ => x.run.lanes
      | _ => [] }

/-- Addresses translated one after the other for the run's core and space, with the TLBs as the translations leave them; nothing
where one does not translate. -/
def opened (x : Issuer) (w : Bool) : State → List Nat → Option (List Nat × State)
  | s, [] => some ([], s)
  | s, a :: as =>
    match s.access (s.coreOf x.c) (s.spaceOf x.c) a w false with
    | (.ok pa, s) => (opened x w s as).map (fun r => (pa :: r.1, r.2))
    | _ => none

/-- With U and UCHK set, the lanes of the run have the same base and the same data (R34). -/
def Access.SameRun (m : Access) (x : Issuer) : Prop :=
  m.u = true → x.cr.uchk = true → ∀ l ∈ x.run.lanes, m.sum x l = m.sum x x.lowest ∧
    (x.cr.thread l).dataWords l m.d m.words 0 = (x.cr.thread x.lowest).dataWords x.lowest m.d m.words 0

/-- The checks that a memory word makes of the run before its accesses: operands, a flag where it needs one, present lines, no flag that
counts 15, and equal sources where UCHK asks for them. -/
def Access.Ready (m : Access) (s : State) (x : Issuer) : Prop :=
  m.ok (s.regsOf x.c) = true ∧ (m.needFlag = true → (m.flag x).isSome = true) ∧
  LinesHere x m.lines ∧ (∀ l ∈ x.run.lanes, ∀ f, m.flag x = some f → (s.thread x.c l).flags.get f ≠ 15#4) ∧ m.SameRun x

/-- Between two states operations have started for the issuing run, which has moved `n` words: they are listed after those that were
outstanding, each thread's flag has counted its own, a task that an atomic belongs to has had an effect, and nothing else differs but
the TLBs, which are those of `s2`. -/
def Started (s t s2 : State) (x : Issuer) (n : Nat) (flag : Option Nat) (effect : Bool) (news : List Op) : Prop :=
  t = { s2 with crews := t.crews, ops := s.ops ++ news, nextId := s.nextId + news.length } ∧
  s2 = { s with cores := s2.cores, clusters := s2.clusters } ∧
  (∀ c, c ≠ x.c → t.crew c = s.crew c) ∧
  t.crew x.c = { x.cr with
    threads := (t.crew x.c).threads, run := runPast x n
    tasks := if effect then x.cr.tasks.map (fun k => { k with effects := true }) else x.cr.tasks } ∧
  (t.crew x.c).threads.length = x.cr.threads.length ∧
  ∀ l, if l ∈ x.run.lanes then
      t.thread x.c l = { threadPast x n (s.thread x.c l) with flags := (t.thread x.c l).flags, wrote := (t.thread x.c l).wrote } ∧
      ∀ f, (t.thread x.c l).flags.get f = (s.thread x.c l).flags.get f + (if flag = some f then 1#4 else 0#4)
    else t.thread x.c l = s.thread x.c l

/-- What an access meets as it issues (R123, R143): its address is no multiple of its width, it may not be made, its page is not mapped, or it
starts, at a physical address if it is a global one. -/
inductive Meets
  | misaligned
  | denied
  | unmapped
  | starts (pa : Nat)

/-- What the access at a lane's address meets, in this order, and the machine with the TLBs as it leaves them: a local address that has wrapped, or
whose bytes reach beyond the limit, may not be accessed. -/
def Access.meets (m : Access) (x : Issuer) (s : State) (l : Nat) : Meets × State :=
  if m.addr x l % m.w ≠ 0 then (.misaligned, s)
  else if m.global then
    match s.access (s.coreOf x.c) (s.spaceOf x.c) (m.addr x l) m.write false with
    | (.denied, s) => (.denied, s)
    | (.unmapped, s) => (.unmapped, s)
    | (.ok pa, s) => (.starts pa, s)
  else if m.sum x l < 0 ∨ 2 ^ 32 ≤ m.sum x l ∨ m.limit s x < m.addr x l + m.w then (.denied, s)
  else (.starts 0, s)

/-- What the accesses of a word meet, one after the other, each with the threads whose access it is. -/
def Access.allMeet (m : Access) (x : Issuer) : State → List (List Nat) → List (List Nat × Meets) × State
  | s, [] => ([], s)
  | s, g :: gs =>
    let r := m.meets x s (g.headD 0)
    let rest := Access.allMeet m x r.2 gs
    ((g, r.1) :: rest.1, rest.2)

/-- The threads whose access finds its page unmapped, in order: as many as there are permits park, the others back off (R281). -/
def faulting (outs : List (List Nat × Meets)) : List Nat :=
  outs.flatMap (fun o => match o.2 with
    | .unmapped => o.1
    | _ => [])

/-- The threads whose access starts. -/
def starting (outs : List (List Nat × Meets)) : List Nat :=
  outs.flatMap (fun o => match o.2 with
    | .starts _ => o.1
    | _ => [])

/-- An operation without its number. -/
def unnumbered (op : Op) : Op := { op with id := 0 }

/-- What an access is held with for its replay (R143, R278). -/
def Access.held (m : Access) (s : State) (x : Issuer) (g : List Nat) : Held :=
  { op := some (unnumbered (m.op s x 0 g 0)), fetch := false, write := m.write, addr := BitVec.ofNat 64 (m.addr x (g.headD 0))
    after := x.run.hdr + BitVec.ofNat 64 (4 * (x.run.idx + m.size + 1)), mid := !decide (x.run.idx + m.size = x.run.words.length) }

/-- What a thread of the run has become once its access has met that: parked with a cause at the access's address, with PAGE_FAULT only where
`permit` says so and else backing off, or past the word (R123, R143, R281). -/
def Access.Becomes (m : Access) (s : State) (x : Issuer) (g : List Nat) (permit : Bool) (o : Meets) (old new : Thread) : Prop :=
  let addr := BitVec.ofNat 64 (m.addr x (g.headD 0))
  match o with
  | .misaligned => new = parkedWith s .misaligned addr old
  | .denied => new = parkedWith s .protection addr old
  | .unmapped =>
    if permit then
      new = { parkedWith s .pageFault addr old with
        held := some (m.held s x g), backoffLen := 64, parked := some { cause := .pageFault, addr := addr, route := .walk, at_ := s.now } }
    else new = { old with
      stall := some .permit, backoff := old.backoffLen, backoffLen := min 4096 (2 * old.backoffLen), starve := 0 }
  | .starts _ => new = { threadPast x m.size old with flags := new.flags, wrote := new.wrote }

end Sys2Proof.Claim

/-- R16, R22-R25, R34, R123, R124, R143-R145: a load, store or atomic whose operands are legal, whose addresses are aligned, and whose
pages are mapped with the rights it needs (or whose bytes lie in the allotment or the slice), starts one operation for each thread, or one
for the run where U is set, and changes nothing else: no byte of memory, no register. -/
def Sys2Proof.Claim.MemoryWordsStartAccessesCases : Prop :=
  ∀ i m s x, Sys2Proof.Claim.MemWord i m → Sys2Proof.Claim.RunsFit s → s.issuer = some x → m.Ready s x → m.d.noPort = true →
    (∀ l ∈ x.run.lanes, m.addr x l % m.w = 0) →
    (m.global = true → ∀ pas s2, Sys2Proof.Claim.opened x m.write s ((m.groups x).map (fun g => m.addr x (g.headD 0))) = some (pas, s2) →
      ∃ t, Sys2Proof.Machine.exec i s = .next t ∧
        Sys2Proof.Claim.Started s t s2 x m.size (m.flag x) m.kind.effect
          (((m.groups x).zip pas).zipIdx.map (fun g => m.op s x g.2 g.1.1 g.1.2))) ∧
    (m.global = false → (∀ l ∈ x.run.lanes, 0 ≤ m.sum x l ∧ m.sum x l < 2 ^ 32 ∧ m.addr x l + m.w ≤ m.limit s x) →
      ∃ t, Sys2Proof.Machine.exec i s = .next t ∧
        Sys2Proof.Claim.Started s t s x m.size (m.flag x) m.kind.effect ((m.groups x).zipIdx.map (fun g => m.op s x g.2 g.1 0)))

/-- R16, R34, R70, R123, R124, R143-R145: what stops a load, store or atomic for its whole run: illegal operands, no flag where it needs one,
an absent line, a flag of a thread that counts 15, and unequal sources where UCHK asks for equal ones. -/
def Sys2Proof.Claim.MemoryWordsStop : Prop :=
  ∀ i m s x, Sys2Proof.Claim.MemWord i m → Sys2Proof.Claim.RunsFit s → s.issuer = some x →
    (m.ok (s.regsOf x.c) = false →
      ∃ t, Sys2Proof.Machine.exec i s = .next t ∧ Sys2Proof.Claim.RunParked s t x .illegalOperand 0#64) ∧
    (m.ok (s.regsOf x.c) = true → m.needFlag = true → m.flag x = none →
      ∃ t, Sys2Proof.Machine.exec i s = .next t ∧ Sys2Proof.Claim.RunParked s t x .illegalOp 0#64) ∧
    (m.ok (s.regsOf x.c) = true → (m.needFlag = true → (m.flag x).isSome = true) →
      (¬ Sys2Proof.Claim.LinesHere x m.lines →
        ∃ t, Sys2Proof.Machine.exec i s = .next t ∧ Sys2Proof.Claim.RunStalled s t x (.regMiss m.lines)) ∧
      (Sys2Proof.Claim.LinesHere x m.lines → ∀ f, m.flag x = some f → (∃ l ∈ x.run.lanes, (s.thread x.c l).flags.get f = 15#4) →
        ∃ t, Sys2Proof.Machine.exec i s = .next t ∧ Sys2Proof.Claim.RunStalled s t x (.flagFull f x.run.lanes)) ∧
      (Sys2Proof.Claim.LinesHere x m.lines → (∀ l ∈ x.run.lanes, ∀ f, m.flag x = some f → (s.thread x.c l).flags.get f ≠ 15#4) →
        ¬ m.SameRun x → ∃ t, Sys2Proof.Machine.exec i s = .next t ∧ Sys2Proof.Claim.RunParked s t x .uniformCheck 0#64))

/-- R123, R143, R145, R276, R281: what the accesses of a load, store or atomic meet, thread by thread: MISALIGNED, PROTECTION at an address that is not
canonical, has not the right asked for, or is a local one that wraps or reaches beyond the limit, and PAGE_FAULT with the access held for replay
where the page is not mapped and a permit is left, or back-off where none is. Those threads leave the run at the word; for the others the access
starts. -/
def Sys2Proof.Claim.MemoryWordsMeet : Prop :=
  ∀ i m s x outs s2, Sys2Proof.Claim.MemWord i m → Sys2Proof.Claim.RunsFit s → s.issuer = some x → m.Ready s x → m.d.noPort = true →
    m.allMeet x s (m.groups x) = (outs, s2) →
    let core := s.coreOf x.c
    let faults := Sys2Proof.Claim.faulting outs
    ∃ t, Sys2Proof.Machine.exec i s = .next t ∧
      t = { s2 with crews := t.crews, cores := t.cores, ops := t.ops, walks := t.walks, nextId := t.nextId } ∧
      (∀ c, c ≠ x.c → t.crew c = s.crew c) ∧ (t.core core).permits = (s.core core).permits - faults.length ∧
      (t.crew x.c).run = (if Sys2Proof.Claim.starting outs = [] then none
        else (Sys2Proof.Claim.runPast x m.size).map (fun r => { r with lanes := Sys2Proof.Claim.starting outs })) ∧
      t.ops.map Sys2Proof.Claim.unnumbered = s.ops.map Sys2Proof.Claim.unnumbered ++ outs.filterMap (fun o => match o.2 with
        | .starts pa => some (Sys2Proof.Claim.unnumbered (m.op s x 0 o.1 pa))
        | _ => none) ∧
      (∀ l, l ∉ x.run.lanes → t.thread x.c l = s.thread x.c l) ∧
      ∀ o ∈ outs, ∀ l ∈ o.1,
        m.Becomes s x o.1 (decide (faults.idxOf l < (s.core core).permits)) o.2 (s.thread x.c l) (t.thread x.c l) ∧
        (l ∈ faults → faults.idxOf l < (s.core core).permits → ∃ k, t.walks.find k = some (.lane x.c l))

/-- R29, R35, R155, R158: a store whose data is a port takes the word at the head of each thread's queue as it issues, and a load whose destination is a
port takes a credit of it, unless the neighbour has exited. -/
def Sys2Proof.Claim.MemoryWordsUsePorts : Prop :=
  ∀ i m s x p outs s2, Sys2Proof.Claim.MemWord i m → Sys2Proof.Claim.RunsFit s → s.issuer = some x → m.Ready s x → m.d = .port p →
    m.allMeet x s (m.groups x) = (outs, s2) → (∀ o ∈ outs, ∃ pa, o.2 = .starts pa) →
    Sys2Proof.Claim.PortsGo s x (if m.write then [p] else []) (if m.write then none else some p) →
    ∃ t, Sys2Proof.Machine.exec i s = .next t ∧ t.mem = s.mem ∧ (t.crew x.c).run = Sys2Proof.Claim.runPast x m.size ∧
      t.ops.map Sys2Proof.Claim.unnumbered = s.ops.map Sys2Proof.Claim.unnumbered ++ outs.filterMap (fun o => match o.2 with
        | .starts pa => some { Sys2Proof.Claim.unnumbered (m.op s x 0 o.1 pa) with
            data := if m.write then Sys2Proof.Machine.bytesOfNat 4 (((s.thread x.c (o.1.headD 0)).port p).queue.headD 0#32).toNat else []
            credit := !m.write && !s.neighbourExited x.c (o.1.headD 0) p }
        | _ => none) ∧
      ∀ l ∈ x.run.lanes, (s.thread x.c l).ports.length = 5 →
        ((t.thread x.c l).port p).queue = (if m.write then ((s.thread x.c l).port p).queue.drop 1 else ((s.thread x.c l).port p).queue) ∧
        (m.write = false → ((t.thread x.c l).port p).credit =
          ((s.thread x.c l).port p).credit - (if s.neighbourExited x.c l p then 0 else 1))

namespace Sys2Proof.Claim

open Sys2Proof.Machine

/-! ### Uniform loads, scratch blocks, prefetch and fences (R83, R125, R126, R137, R146, R147) -/

/-- A word of `n` words passes with no other effect: every thread of the run stands past it, and nothing else differs. -/
def Passes (i : Instr) (s : State) (x : Issuer) (n : Nat) : Prop :=
  ∃ t, exec i s = .next t ∧ OnlyRun s t x n (fun _ old new => new = threadPast x n old)

/-- No thread of the run has a flag that counts 15 operations. -/
def FlagRoom (s : State) (x : Issuer) (flag : Option Nat) : Prop :=
  ∀ l ∈ x.run.lanes, ∀ f, flag = some f → (s.thread x.c l).flags.get f ≠ 15#4

/-- An operation that the issuing run starts once for all its threads. -/
def runOp (s : State) (x : Issuer) (kind : OpKind) (flag : Option Nat) (dest : Dest) (addr pa w ord : Nat) : Op :=
  { id := s.nextId, kind := kind, crew := x.c, lanes := x.run.lanes, flag := flag, dest := dest, addr := addr, pa := pa, width := w
    ord := ord, data := [], pc := x.run.hdr + BitVec.ofNat 64 (4 * (x.run.idx + 1)), stage := (s.thread x.c x.lowest).stage
    time := (s.thread x.c x.lowest).time, at_ := s.now }

/-- The uniform loads: of global memory or scratch, words loaded, destination register, and operands. -/
inductive UniLoad : Instr → Bool → Nat → Fin 160 → UOp → UOp → Prop
  | sldgB32 (r a b) : UniLoad (.sldgB32 (.s r) a b) true 1 r a b
  | sldgB64 (r a b) : UniLoad (.sldgB64 (.s r) a b) true 2 r a b
  | sldsB32 (r a b) : UniLoad (.sldsB32 (.s r) a b) false 1 r a b
  | sldsB64 (r a b) : UniLoad (.sldsB64 (.s r) a b) false 2 r a b

/-- The fences by kind: 0 full, 1 loads, 2 stores. -/
inductive FenceWord : Instr → Nat → BitVec 3 → Prop
  | fence (sc) : FenceWord (.fence sc) 0 sc
  | fenceLd (sc) : FenceWord (.fenceLd sc) 1 sc
  | fenceSt (sc) : FenceWord (.fenceSt sc) 2 sc

/-- A fence has nothing to wait for (R137): no outstanding load (but of a store fence), store, reduction or atomic (but of a load fence)
of a thread of the run; and, at device and system scope, no write that a thread of the run has made or read and that some view has not applied
(log 18). -/
def FenceFree (s : State) (x : Issuer) (kind scope : Nat) : Prop :=
  (∀ op ∈ s.ops, op.crew = x.c → op.id < s.nextId → (∃ l ∈ op.lanes, l ∈ x.run.lanes) →
    ¬ (kind ≠ 2 ∧ op.kind.reads = true) ∧ ¬ (kind ≠ 1 ∧ op.kind.writes = true)) ∧
  (kind = 1 ∨ scope < 5 ∨ ∀ w ∈ s.mem.pend, ∀ l ∈ x.run.lanes, (x.c, l) ∉ w.threads)

/-- The pair loads by width. -/
inductive PairLoad : Instr → Nat → LOp → Bool → BOp → Prop
  | pldrB32 (d p b) : PairLoad (.pldrB32 d p b) 4 d p b
  | pldrB64 (d p b) : PairLoad (.pldrB64 d p b) 8 d p b
  | pldrB128 (d p b) : PairLoad (.pldrB128 d p b) 16 d p b

/-- Where a lane's pair load reads (R262): the record of its particle in the launch's tensor, at the offset; nothing where the thread has
no pair or the access leaves the record. -/
def pairAddr (s : State) (x : Issuer) (w : Nat) (partner : Bool) (b : BOp) (l : Nat) : Option Nat :=
  match (x.cr.thread l).pair with
  | none => none
  | some ref =>
    match s.pairLaunches.find ref.launch with
    | none => none
    | some p =>
      let t := if partner then p.q else p.p
      let off := (x.cr.readBW l false b).toNat
      if off % w = 0 ∧ off + w ≤ 4 * t.size 0 then
        some ((t.base + (if partner then ref.j else ref.i).toNat * t.stride 1 + off) % 2 ^ 64)
      else none

/-- The addresses that are translated for records of a width: where each starts, and where it goes on in the next page of 64 KB. -/
def recordPages (w : Nat) (eas : List Nat) : List Nat :=
  eas.flatMap (fun a => a :: if a % 65536 + w ≤ 65536 then [] else [(a / 65536 + 1) * 65536 % 2 ^ 64])

/-- The loads of records that start, by address, physical address, and what lies in the next page: how many bytes come before that, and its
physical address. -/
def recordOps (w : Nat) : List Nat → List Nat → List (Nat × Nat × Option (Nat × Nat))
  | a :: as, pa :: pas =>
    if a % 65536 + w ≤ 65536 then (a, pa, none) :: recordOps w as pas
    else (a, pa, some (65536 - a % 65536, pas.headD 0)) :: recordOps w as pas.tail
  | _, _ => []

end Sys2Proof.Claim

/-- R36, R83, R84: a uniform load with legal operands, an aligned address and readable bytes starts one operation for its run, counted by
SETA, overtakes what is outstanding to its registers, and changes nothing else. -/
def Sys2Proof.Claim.UniformLoadsStart : Prop :=
  ∀ i global n (r : Fin 160) a b s x f ea, Sys2Proof.Claim.UniLoad i global n r a b → Sys2Proof.Claim.RunsFit s → s.issuer = some x →
    r.val % n = 0 → x.seta = some f → Sys2Proof.Claim.FlagRoom s x (some f) → Sys2Proof.Machine.uSrcOk 1 b = true →
    (if global then a.pair?.isSome || a == .zero else Sys2Proof.Machine.uSrcOk 1 a) = true →
    ea = (((if global then (x.cr.readUD a).toNat else (x.cr.readU a).toNat) + (x.cr.readU b).toInt) %
      ((if global then 2 ^ 64 else 2 ^ 32 : Nat) : Int)).toNat → ea % (4 * n) = 0 →
    (global = true → ∀ pa s2, s.access (s.coreOf x.c) (s.spaceOf x.c) ea false false = (.ok pa, s2) →
      ∃ t, Sys2Proof.Machine.exec i s = .next t ∧
        Sys2Proof.Claim.Started (s.supersede x.c (Sys2Proof.Claim.uniRegs (.s r) n)) t
          (s2.supersede x.c (Sys2Proof.Claim.uniRegs (.s r) n)) x (Sys2Proof.Machine.uSize a b) (some f) false
          [Sys2Proof.Claim.runOp s x .sldg (some f) (.uni (Sys2Proof.Claim.uniRegs (.s r) n)) ea pa (4 * n) 0]) ∧
    (global = false → ea + 4 * n ≤ (s.squad x.cr.squad).allot →
      ∃ t, Sys2Proof.Machine.exec i s = .next t ∧
        Sys2Proof.Claim.Started (s.supersede x.c (Sys2Proof.Claim.uniRegs (.s r) n)) t
          (s.supersede x.c (Sys2Proof.Claim.uniRegs (.s r) n)) x (Sys2Proof.Machine.uSize a b) (some f) false
          [Sys2Proof.Claim.runOp s x .slds (some f) (.uni (Sys2Proof.Claim.uniRegs (.s r) n)) ea 0 (4 * n) 0])

/-- R125, R126, R137, R146, R147: `scpy` and `sfil` of aligned ranges within the allotment start one operation; `pfl2` passes, and traps where its base is no pair (log 49); a fence with
nothing to wait for passes, one with something to wait for stalls its run at the word, and a reserved scope traps. Which writes a fence at device
or system scope waits for is the model's choice where the spec leaves it open (log 18).
A `pfl2` whose a is no legal pair raises ILLEGAL_OPERAND by this model's choice (log 49). -/
def Obligations.BlockWordsAndFences : Prop :=
  (∀ (r : Fin 160) a b s x dst src n, Sys2Proof.Claim.RunsFit s → s.issuer = some x → Sys2Proof.Claim.FlagRoom s x x.setb →
    Sys2Proof.Machine.uSrcOk 1 a = true → Sys2Proof.Machine.uSrcOk 1 b = true → dst = (x.cr.s.get r.val).toNat →
    src = (x.cr.readU a).toNat → n = (x.cr.readU b).toNat → dst % 4 = 0 → n % 4 = 0 → dst + n ≤ (s.squad x.cr.squad).allot →
    (src % 4 = 0 → src + n ≤ (s.squad x.cr.squad).allot → ∃ t, Sys2Proof.Machine.exec (.scpy (.s r) a b) s = .next t ∧
      Sys2Proof.Claim.Started s t s x (Sys2Proof.Machine.uSize a b) x.setb false
        [Sys2Proof.Claim.runOp s x (.scpy src n) x.setb .none dst 0 n 2]) ∧
    ∃ t, Sys2Proof.Machine.exec (.sfil (.s r) a b) s = .next t ∧
      Sys2Proof.Claim.Started s t s x (Sys2Proof.Machine.uSize a b) x.setb false
        [Sys2Proof.Claim.runOp s x (.sfil (x.cr.readU a) n) x.setb .none dst 0 n 2]) ∧
  (∀ w a off s x, Sys2Proof.Claim.RunsFit s → s.issuer = some x → Sys2Proof.Machine.srcOk (s.regsOf x.c) 2 false a = true →
    Sys2Proof.Claim.LinesHere x (Sys2Proof.Machine.linesOf 2 a) →
    Sys2Proof.Claim.Passes (.pfl2 w a off) s x (Sys2Proof.Machine.offSize off)) ∧
  (∀ w a off s x, Sys2Proof.Claim.RunsFit s → s.issuer = some x → Sys2Proof.Machine.srcOk (s.regsOf x.c) 2 false a = false →
    ∃ t, Sys2Proof.Machine.exec (.pfl2 w a off) s = .next t ∧ Sys2Proof.Claim.RunParked s t x .illegalOperand 0#64) ∧
  (∀ i kind sc s x, Sys2Proof.Claim.FenceWord i kind sc → Sys2Proof.Claim.RunsFit s → s.issuer = some x →
    (sc = 0#3 ∨ sc = 7#3 → ∃ t, Sys2Proof.Machine.exec i s = .next t ∧ Sys2Proof.Claim.RunParked s t x .illegalOperand 0#64) ∧
    (sc ≠ 0#3 → sc ≠ 7#3 → Sys2Proof.Claim.FenceFree s x kind sc.toNat → Sys2Proof.Claim.Passes i s x 1) ∧
    (sc ≠ 0#3 → sc ≠ 7#3 → ¬ Sys2Proof.Claim.FenceFree s x kind sc.toNat → ∃ t, Sys2Proof.Machine.exec i s = .next t ∧
      Sys2Proof.Claim.RunStalled s t x (.fence sc.toNat kind s.nextId (decide (x.run.idx + 1 = x.run.words.length)))))

/-- R262: a pair load of every thread's own pair starts one global load of the particle's record for each thread, whatever the record's address:
one that reaches into another page reads from both. -/
def Sys2Proof.Claim.PairLoadsStart : Prop :=
  ∀ i w d p b s x f eas, Sys2Proof.Claim.PairLoad i w d p b → Sys2Proof.Claim.RunsFit s → s.issuer = some x →
    Sys2Proof.Machine.loadDstOk (s.regsOf x.c) w false d = true → d.noPort = true →
    Sys2Proof.Machine.bSrcOk (s.regsOf x.c) 1 false b = true → b.noPort = true → x.seta = some f →
    Sys2Proof.Claim.FlagRoom s x (some f) →
    Sys2Proof.Claim.LinesHere x (Sys2Proof.Machine.linesOf (Sys2Proof.Machine.wordsOfWidth w) d ++ Sys2Proof.Machine.bLinesOf 1 b) →
    x.run.lanes.map (Sys2Proof.Claim.pairAddr s x w p b) = eas.map some →
    ∀ pas s2, Sys2Proof.Claim.opened x false s (Sys2Proof.Claim.recordPages w eas) = some (pas, s2) →
      ∃ t, Sys2Proof.Machine.exec i s = .next t ∧ t.mem = s.mem ∧ (t.crew x.c).run = Sys2Proof.Claim.runPast x b.size ∧
        t.ops.map (fun o => (o.kind, o.lanes, o.dest, o.width, o.addr, o.pa, o.split)) =
          s.ops.map (fun o => (o.kind, o.lanes, o.dest, o.width, o.addr, o.pa, o.split)) ++
          (x.run.lanes.zip (Sys2Proof.Claim.recordOps w eas pas)).map (fun g =>
            (Sys2Proof.Machine.OpKind.load false, [g.1], Sys2Proof.Machine.Dest.lane d, w, g.2.1, g.2.2.1, g.2.2.2)) ∧
        ∀ l ∈ x.run.lanes, (t.thread x.c l).flags.get f = (s.thread x.c l).flags.get f + 1#4

namespace Sys2Proof.Claim

open Sys2Proof.Machine

/-! ### The crew group and special registers (R62, R63, R64) -/

/-- The word with a bit for each lane that a test picks. -/
def maskWhere (p : Nat → Bool) : Word := BitVec.ofNat 32 (((List.range 32).filter p).map (2 ^ ·)).sum

/-- The crew-group words: destination, the operands allowed for a register count, the lines named, the size in words, and each lane's
result from the crew's registers and the run's lanes. -/
inductive CrewWord : Instr → LOp → (Nat → Bool) → List Nat → Nat → (Crew → List Nat → Nat → Word) → Prop
  | rfl (d b) : CrewWord (.rfl d b) d (fun n => b.noPort && bSrcOk n 1 false b) (bLinesOf 1 b) b.size
      (fun cr run _ => cr.readBW (run.headD 0) false b)
  | actm (d) : CrewWord (.actm d) d (fun _ => true) [] 1 (fun _ run _ => maskWhere (fun m => run.contains m))
  | voteAny (d b) : CrewWord (.voteAny d b) d (fun n => b.noPort && bSrcOk n 1 false b) (bLinesOf 1 b) b.size
      (fun cr run _ => if ∃ m ∈ run, cr.readBW m false b ≠ 0#32 then 1#32 else 0#32)
  | voteAll (d b) : CrewWord (.voteAll d b) d (fun n => b.noPort && bSrcOk n 1 false b) (bLinesOf 1 b) b.size
      (fun cr run _ => if ∀ m ∈ run, cr.readBW m false b ≠ 0#32 then 1#32 else 0#32)
  | voteBallot (d b) : CrewWord (.voteBallot d b) d (fun n => b.noPort && bSrcOk n 1 false b) (bLinesOf 1 b) b.size
      (fun cr run _ => maskWhere (fun m => run.contains m && cr.readBW m false b != 0#32))
  | matchLanes (d b) : CrewWord (.matchLanes d b) d (fun n => b.noPort && bSrcOk n 1 false b) (bLinesOf 1 b) b.size
      (fun cr run l => maskWhere (fun m => run.contains m && cr.readBW m false b == cr.readBW l false b))
  | cmpct (d b) : CrewWord (.cmpct d b) d (fun n => b.noPort && bSrcOk n 1 false b) (bLinesOf 1 b) b.size
      (fun cr run l => match (run.filter (fun m => cr.readBW m false b != 0#32))[(run.filter (· < l)).length]? with
        | some m => BitVec.ofNat 32 m
        | none => 0xFFFFFFFF#32)
  | shfl (d a b) : CrewWord (.shfl d a b) d (fun n => a.noPort && srcOk n 1 false a && b.noPort && bSrcOk n 1 false b)
      (linesOf 1 a ++ bLinesOf 1 b) b.size
      (fun cr run l =>
        let m := (cr.readBW l false b).toNat % 32
        if m ∈ run then (cr.thread m).readW m a else (cr.thread l).readW l a)
  | shflXor (d a b) : CrewWord (.shflXor d a b) d (fun n => a.noPort && srcOk n 1 false a && b.noPort && bSrcOk n 1 false b)
      (linesOf 1 a ++ bLinesOf 1 b) b.size
      (fun cr run l =>
        let m := l ^^^ (cr.readBW l false b).toNat % 32
        if m ∈ run then (cr.thread m).readW m a else (cr.thread l).readW l a)

/-- A lane destination of one word that is no port. -/
def ownDst (s : State) (x : Issuer) (d : LOp) : Prop := dstOk (s.regsOf x.c) 1 false d = true ∧ d.noPort = true

/-- A word of `n` words gives every lane of the run one word, as a lane result without flags, and does nothing else. -/
def GivesWord (i : Instr) (s : State) (x : Issuer) (n : Nat) (d : LOp) (v : Nat → Word) : Prop :=
  ∃ t, exec i s = .next t ∧ OnlyRun s t x n (fun l => ResultOf x n d [v l] 0#5 l)

end Sys2Proof.Claim

/-- R62: each crew-group word and `shfl` gives every lane of the run its result from the values of the run's own threads, and changes
nothing else; a port in d is pushed to (R29).
That such a word pushes to a port in d is this model's reading (log 25). -/
def Obligations.CrewWordsGiveResults : Prop :=
  ∀ i d ok lines n v s x, Sys2Proof.Claim.CrewWord i d ok lines n v → Sys2Proof.Claim.RunsFit s → s.issuer = some x →
    ok (s.regsOf x.c) = true → Sys2Proof.Claim.LinesHere x (Sys2Proof.Machine.linesOf 1 d ++ lines) →
    (Sys2Proof.Claim.ownDst s x d → Sys2Proof.Claim.GivesWord i s x n d (v x.cr x.run.lanes)) ∧
    ∀ p, d = .port p → Sys2Proof.Claim.PushReady s x p →
      ∃ t, Sys2Proof.Machine.exec i s = .next t ∧ Sys2Proof.Claim.PushedTo s t x n p (v x.cr x.run.lanes)

namespace Sys2Proof.Claim

open Sys2Proof.Machine

/-- The special registers of a thread of the issuing run, by number (R63). -/
def SpecialValues (s : State) (x : Issuer) (l : Nat) : Prop :=
  let q := s.squad x.cr.squad
  let p := (s.launch q.launch).pkt
  let t := s.thread x.c l
  let clock := (s.core q.core).clock
  let placed : Nat → Word := fun n => if q.kind = .pair ∨ q.kind = .handler then 0xFFFFFFFF#32 else BitVec.ofNat 32 n
  let reads : Nat → Word → Prop := fun n w => s.special x.c l n = w
  reads 0 (BitVec.ofNat 32 x.cr.index) ∧ reads 1 (placed q.index) ∧ reads 2 (placed (q.index / p.sqpc)) ∧
  reads 3 (placed (q.index / (p.sqpc * p.cpb))) ∧ reads 4 (placed (q.index / (p.sqpc * p.cpb * p.bps))) ∧
  reads 5 (BitVec.ofNat 32 (q.core % 12)) ∧ reads 6 (BitVec.ofNat 32 (q.core / 12 % 12)) ∧ reads 7 (BitVec.ofNat 32 (q.core / 144)) ∧
  reads 8 (BitVec.ofNat 32 x.cr.slot) ∧ reads 9 (t.stage.setWidth 32) ∧ reads 10 (t.time.setWidth 32) ∧
  reads 11 ((t.time >>> 32).setWidth 32) ∧ reads 12 t.xown ∧ reads 13 t.xinn ∧
  reads 14 (match t.pair with
    | some k => k.i
    | none => 0xFFFFFFFF#32) ∧
  reads 15 (match t.pair with
    | some k => k.j
    | none => 0xFFFFFFFF#32) ∧
  reads 16 0#32 ∧ reads 17 (t.fflags.setWidth 32) ∧ reads 18 (clock.setWidth 32) ∧
  reads 19 (match t.clockHi with
    | some w => w
    | none => (clock >>> 32).setWidth 32) ∧
  reads 20 (x.cr.srFault.setWidth 32) ∧ reads 21 ((x.cr.srFault >>> 32).setWidth 32) ∧ reads 22 x.cr.mode

end Sys2Proof.Claim

/-- R63, R64, R96: `gsr` gives every lane the register's value, row by row of R63's table, a port in d being pushed to (R29), and a read of
`sr.clock.lo` latches the high word for the thread; `ssr` writes the run's floating-point flags or the crew's mode, and traps on a read-only
register and on a mode above 1.
That a port in d is pushed to is this model's reading (log 25). -/
def Obligations.SpecialRegisters : Prop :=
  (∀ s x l, s.issuer = some x → Sys2Proof.Claim.SpecialValues s x l) ∧
  (∀ p num s x, Sys2Proof.Claim.RunsFit s → s.issuer = some x → num.toNat < 23 →
    Sys2Proof.Claim.LinesHere x (Sys2Proof.Machine.linesOf 1 (.port p)) → Sys2Proof.Claim.PushReady s x p →
    ∃ t, Sys2Proof.Machine.exec (.gsr (.port p) num) s = .next t ∧
      Sys2Proof.Claim.PushedTo s t x 1 p (fun l => s.special x.c l num.toNat)) ∧
  (∀ d num s x, Sys2Proof.Claim.RunsFit s → s.issuer = some x → num.toNat < 23 → Sys2Proof.Claim.ownDst s x d →
    Sys2Proof.Claim.LinesHere x (Sys2Proof.Machine.linesOf 1 d) →
    ∃ t, Sys2Proof.Machine.exec (.gsr d num) s = .next t ∧ Sys2Proof.Claim.OnlyRun s t x 1 (fun l old new =>
      Sys2Proof.Claim.ResultOf x 1 d [s.special x.c l num.toNat] 0#5 l
        (if num = 18#9 then { old with clockHi := some (s.core (s.coreOf x.c)).clock.hi } else old) new)) ∧
  (∀ d num s x, Sys2Proof.Claim.RunsFit s → s.issuer = some x → 23 ≤ num.toNat →
    ∃ t, Sys2Proof.Machine.exec (.gsr d num) s = .next t ∧ Sys2Proof.Claim.RunParked s t x .illegalOperand 0#64) ∧
  (∀ a s x, Sys2Proof.Claim.RunsFit s → s.issuer = some x → Sys2Proof.Machine.uSrcOk 1 a = true →
    (∃ t, Sys2Proof.Machine.exec (.ssr 17#8 a) s = .next t ∧ Sys2Proof.Claim.OnlyRun s t x (1 + a.lits.length) (fun _ old new =>
      new = { Sys2Proof.Claim.threadPast x (1 + a.lits.length) old with fflags := (x.cr.readU a).setWidth 5, wrote := new.wrote })) ∧
    (∃ t, Sys2Proof.Machine.exec (.ssr 22#8 a) s = .next t ∧
      if (x.cr.readU a).toNat < 2 then
        let cr := { x.cr with mode := x.cr.readU a, wrote := Sys2Proof.Machine.insertNew 137 x.cr.wrote }
        Sys2Proof.Claim.OnlyRun (s.setCrew x.c cr) t { x with cr := cr } (1 + a.lits.length) (fun _ old new =>
          new = Sys2Proof.Claim.threadPast x (1 + a.lits.length) old)
      else Sys2Proof.Claim.RunParked s t x .illegalOperand 0#64) ∧
    ∀ num : BitVec 8, num ≠ 17#8 → num ≠ 22#8 →
      ∃ t, Sys2Proof.Machine.exec (.ssr num a) s = .next t ∧ Sys2Proof.Claim.RunParked s t x .illegalOperand 0#64)

namespace Sys2Proof.Claim

open Sys2Proof.Machine

/-! ### Control transfer, waiting and traps (R18, R27, R54, R60, R61, R65, R286) -/

/-- Between two states every thread of the issuing run has left it, each as `new` says, the run is over, and nothing else differs. -/
def RunLeaves (s t : State) (x : Issuer) (new : Nat → Thread → Thread → Prop) : Prop :=
  t = { s with crews := t.crews } ∧ (∀ c, c ≠ x.c → t.crew c = s.crew c) ∧
  t.crew x.c = { x.cr with threads := (t.crew x.c).threads, run := none } ∧
  (t.crew x.c).threads.length = x.cr.threads.length ∧
  ∀ l, if l ∈ x.run.lanes then new l (s.thread x.c l) (t.thread x.c l) else t.thread x.c l = s.thread x.c l

/-- A thread that has come to a header, and is otherwise as it was. -/
def atHeader (pc : DWord) (how : Arrival) (t : Thread) : Thread :=
  { t with pc := pc, mid := false, arrival := how, starve := 0, watchdog := 0 }

/-- The issuing word, of `n` words, is the last of its clause (R18). -/
def LastWord (x : Issuer) (n : Nat) : Prop := x.run.idx + n = x.run.words.length

/-- The header after the issuing run's clause, and a header at a signed distance in words from the clause's own (R27). -/
def nextHeader (x : Issuer) : DWord := x.run.hdr + BitVec.ofNat 64 (4 * (x.run.words.length + 1))

/-- The header at a signed distance in words. -/
def farHeader (x : Issuer) (off : BitVec 15) : DWord := x.run.hdr + BitVec.ofInt 64 (4 * off.toInt)

/-- The words that must end their clause, with their size and the register counts that allow their operands (R18, R60, R263). -/
inductive EndWord : Instr → Nat → (Nat → Bool) → Prop
  | bra (u c sense off) : EndWord (.bra u c sense off) 1 (fun regs => c.noPort && srcOk regs 1 u c)
  | call (u c off) : EndWord (.call u c off) 1 (fun regs => dstOk regs 2 u c && c != .zero)
  | ret (a) : EndWord (.ret a) 1 (fun regs => srcOk regs 2 false a)
  | jmp (a) : EndWord (.jmp a) 1 (fun _ => a.pair?.isSome)
  | exitThread : EndWord .exitThread 1 (fun _ => true)
  | bar : EndWord .bar 1 (fun _ => true)
  | nap (b) : EndWord (.nap b) b.size (fun regs => b.noPort && bSrcOk regs 1 false b)
  | pret (a) (num : BitVec 3) : EndWord (.pret a num) 1 (fun regs => decide (1 ≤ num.toNat ∧ num.toNat ≤ 4) && pretRegsOk regs num.toNat a)
  | sretResume : EndWord .sretResume 1 (fun _ => true)
  | sretSkip : EndWord .sretSkip 1 (fun _ => true)

end Sys2Proof.Claim

/-- R27, R58: `bra` sends the threads whose condition has the sense asked for to the target and the others to the next header; threads
that branch back or to their own clause under Y are marked. With U set the lowest lane decides for all. -/
def Sys2Proof.Claim.BranchesMove : Prop :=
  ∀ u c sense off s x, Sys2Proof.Claim.RunsFit s → s.issuer = some x → Sys2Proof.Claim.LastWord x 1 →
    Sys2Proof.Machine.srcOk (s.regsOf x.c) 1 u c = true → c.noPort = true →
    Sys2Proof.Claim.LinesHere x (Sys2Proof.Machine.linesOf 1 c) →
    (u = true → x.cr.uchk = true → ∀ l ∈ x.run.lanes, (x.cr.thread l).readW l c = (x.cr.thread x.lowest).readW x.lowest c) →
    ∃ t, Sys2Proof.Machine.exec (.bra u c sense off) s = .next t ∧ Sys2Proof.Claim.RunLeaves s t x (fun l old new =>
      let m := Sys2Proof.Claim.sourceLane x u l
      if ((x.cr.thread m).readW m c ≠ 0#32) = (sense = true) then
        new = { Sys2Proof.Claim.atHeader (Sys2Proof.Claim.farHeader x off) .fall old with
          yieldMark := old.yieldMark || (x.yields && decide (off.toInt ≤ 0)) }
      else new = Sys2Proof.Claim.atHeader (Sys2Proof.Claim.nextHeader x) .fall old)

/-- R15, R18, R27: `call` leaves the address of the next header in its pair and goes to its target; `ret` and `jmp` go to the address in
their pair, or trap with MISALIGNED where it is not a multiple of four. -/
def Sys2Proof.Claim.CallsAndJumpsMove : Prop :=
  (∀ u d off s x, Sys2Proof.Claim.RunsFit s → s.issuer = some x → Sys2Proof.Claim.LastWord x 1 →
    Sys2Proof.Machine.dstOk (s.regsOf x.c) 2 u d = true → d ≠ .zero →
    Sys2Proof.Claim.LinesHere x (Sys2Proof.Machine.linesOf 2 d) →
    ∃ t, Sys2Proof.Machine.exec (.call u d off) s = .next t ∧ Sys2Proof.Claim.RunLeaves s t x (fun l old new =>
      new = { Sys2Proof.Claim.atHeader (Sys2Proof.Claim.farHeader x off) .entry old with v := new.v, o := new.o, wrote := new.wrote } ∧
      ∀ y, Sys2Proof.Claim.isFile y = true → new.readW l y = Sys2Proof.Claim.regAfter d
        [(Sys2Proof.Claim.nextHeader x).setWidth 32, ((Sys2Proof.Claim.nextHeader x) >>> 32).setWidth 32] old l y)) ∧
  (∀ a s x, Sys2Proof.Claim.RunsFit s → s.issuer = some x → Sys2Proof.Claim.LastWord x 1 →
    Sys2Proof.Machine.srcOk (s.regsOf x.c) 2 false a = true → Sys2Proof.Claim.LinesHere x (Sys2Proof.Machine.linesOf 2 a) →
    let target := (x.cr.thread x.lowest).readD x.lowest a
    ∃ t, Sys2Proof.Machine.exec (.ret a) s = .next t ∧
      if target.toNat % 4 = 0 then Sys2Proof.Claim.RunLeaves s t x (fun _ old new => new = Sys2Proof.Claim.atHeader target .fall old)
      else Sys2Proof.Claim.RunParked s t x .misaligned target) ∧
  (∀ (r : Fin 160) s x, Sys2Proof.Claim.RunsFit s → s.issuer = some x → Sys2Proof.Claim.LastWord x 1 → r.val % 2 = 0 →
    let target := Sys2Proof.Word.pair (x.cr.s.get r.val) (x.cr.s.get (r.val + 1))
    ∃ t, Sys2Proof.Machine.exec (.jmp (.s r)) s = .next t ∧
      if target.toNat % 4 = 0 then Sys2Proof.Claim.RunLeaves s t x (fun _ old new => new = Sys2Proof.Claim.atHeader target .entry old)
      else Sys2Proof.Claim.RunParked s t x .misaligned target)

/-- R18, R27, R60, R263: a word that must end its clause and does not raises ILLEGAL_OP for its run; operands that it may not name, a port for the
condition of `bra` or the count of `nap` among them, raise ILLEGAL_OPERAND before that. -/
def Sys2Proof.Claim.EndWordsMustEnd : Prop :=
  ∀ i n ok s x, Sys2Proof.Claim.EndWord i n ok → Sys2Proof.Claim.RunsFit s → s.issuer = some x →
    (ok (s.regsOf x.c) = false →
      ∃ t, Sys2Proof.Machine.exec i s = .next t ∧ Sys2Proof.Claim.RunParked s t x .illegalOperand 0#64) ∧
    (ok (s.regsOf x.c) = true → ¬ Sys2Proof.Claim.LastWord x n →
      ∃ t, Sys2Proof.Machine.exec i s = .next t ∧ Sys2Proof.Claim.RunParked s t x .illegalOp 0#64)

/-- R54, R60, R61: `nap` puts its run to sleep for at most 2^20 - 1 cycles, and traps where its count is a port; a thread whose count has run down runs
again, and no other does; `bar` makes it wait at the barrier, which opens when every
thread of every crew of the squad that has not retired waits there or has exited; `exit` ends its threads, and the crew retires with its
last. -/
def Obligations.WaitsAndExits : Prop :=
  (∀ b s x, Sys2Proof.Claim.RunsFit s → s.issuer = some x → Sys2Proof.Claim.LastWord x b.size → b.noPort = true →
    Sys2Proof.Machine.bSrcOk (s.regsOf x.c) 1 false b = true → Sys2Proof.Claim.LinesHere x (Sys2Proof.Machine.bLinesOf 1 b) →
    ∃ t, Sys2Proof.Machine.exec (.nap b) s = .next t ∧ Sys2Proof.Claim.RunLeaves s t x (fun l old new =>
      new = { Sys2Proof.Claim.atHeader (Sys2Proof.Claim.nextHeader x) .fall old with
        st := .napping, nap := min (x.cr.readBW l false b).toNat (2 ^ 20 - 1) })) ∧
  (∀ p s x, Sys2Proof.Claim.RunsFit s → s.issuer = some x →
    ∃ t, Sys2Proof.Machine.exec (.nap (.lane (.port p))) s = .next t ∧ Sys2Proof.Claim.RunParked s t x .illegalOperand 0#64) ∧
  (∀ s c l, (s.thread c l).st = .napping → l < (s.crew c).threads.length → (s.crew c).resident = true →
    ∃ t, Sys2Proof.Machine.exec (.napExpiry c l) s = .next t ∧ t = { s with crews := t.crews } ∧ (∀ k, k ≠ c → t.crew k = s.crew k) ∧
      t.crew c = { s.crew c with threads := (t.crew c).threads } ∧ (t.crew c).threads.length = (s.crew c).threads.length ∧
      ∀ m, t.thread c m = if m = l ∧ (s.thread c l).nap = 0 then { s.thread c l with st := .running } else s.thread c m) ∧
  (∀ s x, Sys2Proof.Claim.RunsFit s → s.issuer = some x → Sys2Proof.Claim.LastWord x 1 →
    ∃ t w, Sys2Proof.Machine.exec .bar s = .next t ∧
      Sys2Proof.Claim.RunLeaves s w x (fun _ old new =>
        new = { Sys2Proof.Claim.atHeader (Sys2Proof.Claim.nextHeader x) .fall old with st := .atBarrier }) ∧
      let live := ((w.squad x.cr.squad).crews.filter (fun c => !(w.crew c).retired))
      if live ≠ [] ∧ ∀ c ∈ live, ∀ k ∈ (w.crew c).threads, k.st = .atBarrier ∨ k.st = .exited then
        ∀ c ∈ live, (t.crew c).threads = (w.crew c).threads.map (fun k => if k.st = .exited then k else { k with st := .running })
      else t.crews = w.crews) ∧
  (∀ s x, Sys2Proof.Claim.RunsFit s → s.issuer = some x → Sys2Proof.Claim.LastWord x 1 →
    (∀ l ∈ x.run.lanes, (s.thread x.c l).st = .running) →
    ∃ t, Sys2Proof.Machine.exec .exitThread s = .next t ∧ t.mem = s.mem ∧ (t.crew x.c).run = none ∧
      (∀ l ∈ x.run.lanes, (t.thread x.c l).st = .exited) ∧
      ((∀ k ∈ (t.crew x.c).threads, k.st = .exited) → x.cr.retired = false → (t.crew x.c).retired = true))

/-- R65: `trap` with a number up to 255 parks its run with the cause TRAP and the number, a greater one is an illegal operand, and `brk`
parks it with BREAK; each thread's PC stays at the word. -/
def Sys2Proof.Claim.ProgramTraps : Prop :=
  (∀ b s x, Sys2Proof.Claim.RunsFit s → s.issuer = some x → Sys2Proof.Machine.uSrcOk 1 b = true →
    ∃ t, Sys2Proof.Machine.exec (.trap b) s = .next t ∧
      if (x.cr.readU b).toNat ≤ 255 then Sys2Proof.Claim.RunParked s t x .trap ((x.cr.readU b).setWidth 64)
      else Sys2Proof.Claim.RunParked s t x .illegalOperand 0#64) ∧
  (∀ s x, Sys2Proof.Claim.RunsFit s → s.issuer = some x →
    ∃ t, Sys2Proof.Machine.exec .brk s = .next t ∧ Sys2Proof.Claim.RunParked s t x .break 0#64)

namespace Sys2Proof.Claim

open Sys2Proof.Machine

/-! ### Port control words (R161-R166) -/

/-- The checks that a port control word without a b operand passes: a selector below a bound, its own destination, present lines. -/
def PortWordReady (s : State) (x : Issuer) (d : LOp) (sel : BitVec 3) (bound : Nat) : Prop :=
  RunsFit s ∧ s.issuer = some x ∧ sel.toNat < bound ∧ ownDst s x d ∧ LinesHere x (linesOf 1 d)

/-- The same, with the lines that hold the queues of the ports named present too (R287). -/
def PortQueueReady (s : State) (x : Issuer) (d : LOp) (sel : BitVec 3) (bound : Nat) : Prop :=
  PortWordReady s x d sel bound ∧ LinesHere x ((portsOf sel.toNat).flatMap portLines)

/-- A lane has no peek outstanding, and no earlier operation of it is still to write a register (R17). -/
def PeekFree (s : State) (c l : Nat) (d : LOp) : Prop :=
  (s.thread c l).peeks = [] ∧ ∀ op ∈ s.ops, op.crew = c → l ∈ op.lanes → op.dest.clash op.width 4 (.lane d) = false

/-- The ports that a selector names: one of the five, or all of them at 5. -/
def selected (sel : BitVec 3) (p : Port) : Prop := sel = 5#3 ∨ p.num = sel.toNat

/-- Every lane of a whole crew that has not exited is in the run. -/
def WholeCrew (x : Issuer) : Prop := ∀ l, l < 32 → l ∈ x.run.lanes ∨ (x.cr.thread l).st = .exited

/-- The east and west queues of a crew are empty, nothing is on its way to them, and all their credits are home. -/
def RingIdle (s : State) (c : Nat) : Prop :=
  (∀ f ∈ s.flights, f.crew = c → f.port ≠ .east ∧ f.port ≠ .west) ∧
  ∀ t ∈ (s.crew c).threads, ∀ p, p = .east ∨ p = .west → (t.port p).queue = [] ∧ 8 ≤ (t.port p).credit

/-- Every thread has its five ports. -/
def FivePorts (s : State) (x : Issuer) : Prop := ∀ l ∈ x.run.lanes, (s.thread x.c l).ports.length = 5

end Sys2Proof.Claim

/-- R162, R163, R166: `pcnt` reads the number of queued entries; `psts` reads a port's count, credit, connection, exited neighbour and
ring mode, or the thread's port position; `pcfg` sets the ring mode where the whole crew is in the run and its east and west ports are
idle, and answers 2 or 1 where not. -/
def Obligations.PortStateWords : Prop :=
  (∀ d sel s x, Sys2Proof.Claim.PortWordReady s x d sel 5 → Sys2Proof.Claim.GivesWord (.pcnt d sel) s x 1 d (fun l =>
    BitVec.ofNat 32 ((s.thread x.c l).port (Sys2Proof.Machine.portOf sel.toNat)).queue.length)) ∧
  (∀ d sel s x, Sys2Proof.Claim.PortWordReady s x d sel 5 → Sys2Proof.Claim.GivesWord (.psts d sel) s x 1 d (fun l =>
    let p := Sys2Proof.Machine.portOf sel.toNat
    BitVec.ofNat 32 (((s.thread x.c l).port p).queue.length + 2 ^ 4 * ((s.thread x.c l).port p).credit +
      2 ^ 9 * (if (s.neighbour x.c l p).isSome then 1 else 0) +
      2 ^ 10 * (match s.neighbour x.c l p with
        | some n => if (s.thread n.1 n.2).st = .exited then 1 else 0
        | none => 0) +
      2 ^ 11 * (if sel.toNat < 2 ∧ x.cr.crewRing = true then 1 else 0)))) ∧
  (∀ d s x, Sys2Proof.Claim.PortWordReady s x d 5#3 6 → Sys2Proof.Claim.GivesWord (.psts d 5#3) s x 1 d (fun l =>
    BitVec.ofNat 32 (l + 2 ^ 5 * x.cr.portSlot + 2 ^ 9 * x.cr.portCore + 2 ^ 13 * x.cr.portCluster + 2 ^ 17 * x.cr.portIsland))) ∧
  (∀ d b s x, Sys2Proof.Claim.RunsFit s → s.issuer = some x → Sys2Proof.Claim.ownDst s x d → b.noPort = true →
    Sys2Proof.Machine.bSrcOk (s.regsOf x.c) 1 false b = true →
    Sys2Proof.Claim.LinesHere x (Sys2Proof.Machine.linesOf 1 d ++ Sys2Proof.Machine.bLinesOf 1 b) →
    (2 ≤ (x.cr.readBW x.lowest false b).toNat →
      ∃ t, Sys2Proof.Machine.exec (.pcfg d b) s = .next t ∧ Sys2Proof.Claim.RunParked s t x .illegalOperand 0#64) ∧
    ((x.cr.readBW x.lowest false b).toNat < 2 →
      (¬ Sys2Proof.Claim.WholeCrew x → Sys2Proof.Claim.GivesWord (.pcfg d b) s x b.size d (fun _ => 2#32)) ∧
      (Sys2Proof.Claim.WholeCrew x → ¬ Sys2Proof.Claim.RingIdle s x.c →
        Sys2Proof.Claim.GivesWord (.pcfg d b) s x b.size d (fun _ => 1#32)) ∧
      (Sys2Proof.Claim.WholeCrew x → Sys2Proof.Claim.RingIdle s x.c →
        let cr := { x.cr with
          crewRing := decide ((x.cr.readBW x.lowest false b).toNat = 1), wrote := Sys2Proof.Machine.insertNew 137 x.cr.wrote }
        ∃ t, Sys2Proof.Machine.exec (.pcfg d b) s = .next t ∧
          Sys2Proof.Claim.OnlyRun (s.setCrew x.c cr) t { x with cr := cr } b.size (fun l =>
            Sys2Proof.Claim.ResultOf x b.size d [0#32] 0#5 l))))

/-- R164, R165: `ppk` copies the head of each lane's queue and leaves the queue as it is, or waits under its flag where the queue is empty
and its feeder lives; `pfls` empties the queues that it names and gives each lane the number of entries discarded. -/
def Sys2Proof.Claim.PortQueueWordsCases : Prop :=
  (∀ d sel s x f, Sys2Proof.Claim.PortQueueReady s x d sel 5 → x.seta = some f → Sys2Proof.Claim.FlagRoom s x (some f) →
    Sys2Proof.Claim.FivePorts s x →
    let p := Sys2Proof.Machine.portOf sel.toNat
    (∀ l ∈ x.run.lanes, (s.thread x.c l).st ≠ .exited) → (∀ l ∈ x.run.lanes, Sys2Proof.Claim.PeekFree s x.c l d) →
    (∀ l ∈ x.run.lanes, ((s.thread x.c l).port p).queue = [] → ∃ n, s.neighbour x.c l p = some n ∧ (s.thread n.1 n.2).st ≠ .exited) →
    ∃ t, Sys2Proof.Machine.exec (.ppk d sel) s = .next t ∧ t.mem = s.mem ∧ (t.crew x.c).run = Sys2Proof.Claim.runPast x 1 ∧
      ∀ l ∈ x.run.lanes,
        (∀ k, ((t.thread x.c l).port k).queue = ((s.thread x.c l).port k).queue) ∧
        (t.thread x.c l).q0 = (s.thread x.c l).q0 ∧ (t.thread x.c l).q1 = (s.thread x.c l).q1 ∧
        match ((s.thread x.c l).port p).queue with
        | w :: _ => (t.thread x.c l).flags.get f = (s.thread x.c l).flags.get f ∧
          ∀ y, Sys2Proof.Claim.isFile y = true → (t.thread x.c l).readW l y = Sys2Proof.Claim.regAfter d [w] (s.thread x.c l) l y
        | [] => (t.thread x.c l).flags.get f = (s.thread x.c l).flags.get f + 1#4 ∧
          ((t.thread x.c l).port p).peeks.map (fun k => (k.flag, k.d, k.value)) = [(some f, d, none)] ∧
          ∀ y, Sys2Proof.Claim.isFile y = true → (t.thread x.c l).readW l y = (s.thread x.c l).readW l y) ∧
  (∀ d sel s x, Sys2Proof.Claim.PortQueueReady s x d sel 6 → Sys2Proof.Claim.FivePorts s x →
    ∃ t, Sys2Proof.Machine.exec (.pfls d sel) s = .next t ∧ t.mem = s.mem ∧ (t.crew x.c).run = Sys2Proof.Claim.runPast x 1 ∧
      ∀ l ∈ x.run.lanes,
        (∀ k, Sys2Proof.Claim.selected sel k → ((t.thread x.c l).port k).queue = []) ∧
        (∀ k, ¬ Sys2Proof.Claim.selected sel k → ((t.thread x.c l).port k).queue = ((s.thread x.c l).port k).queue) ∧
        let n := BitVec.ofNat 32 ((Sys2Proof.Machine.portsOf sel.toNat).map
          (fun k => ((s.thread x.c l).port k).queue.length)).sum
        (t.thread x.c l).q0 = n ∧ (t.thread x.c l).q1 = (s.thread x.c l).q0 ∧
        ∀ y, Sys2Proof.Claim.isFile y = true → (t.thread x.c l).readW l y = Sys2Proof.Claim.regAfter d [n] (s.thread x.c l) l y)

/-- R154, R164: a `ppk` of an empty queue that no thread can feed parks its lane with PORT_DISCONNECTED and the port's number. -/
def Sys2Proof.Claim.PeekDisconnected : Prop :=
  ∀ d sel s x f l, Sys2Proof.Claim.PortQueueReady s x d sel 5 → x.seta = some f → Sys2Proof.Claim.FlagRoom s x (some f) →
    x.run.lanes = [l] → ((s.thread x.c l).port (Sys2Proof.Machine.portOf sel.toNat)).queue = [] →
    (∀ n, s.neighbour x.c l (Sys2Proof.Machine.portOf sel.toNat) = some n → (s.thread n.1 n.2).st = .exited) →
    ∃ t, Sys2Proof.Machine.exec (.ppk d sel) s = .next t ∧
      Sys2Proof.Claim.RunParked s t x .portDisconnected (BitVec.ofNat 64 sel.toNat)

namespace Sys2Proof.Claim

open Sys2Proof.Machine

/-! ### The expand unit (R167-R180) -/

/-- The destination and operands of an expand word are its own and its lines present. -/
def ExpandReady (s : State) (x : Issuer) (d : LOp) : Prop :=
  RunsFit s ∧ s.issuer = some x ∧ ownDst s x d ∧ LinesHere x (linesOf 1 d)

/-- What `xld` answers for one thread, and the core's unit after it (R176): a free unit is taken, even where the range is then too long. -/
def loadOne (q code : Nat) (start : Word) (len : Nat) (u : Option Session) : Word × Option Session :=
  let own : XOwner := { code := code, start := start, length := len }
  match u with
  | none => if 2 ^ 32 ≤ len then (4#32, some { squad := q }) else (0#32, some { squad := q, owners := [own] })
  | some z =>
    if z.squad ≠ q then (2#32, u) else if z.sealed then (1#32, u) else if ∃ o ∈ z.owners, o.code = code then (3#32, u)
    else if 2 ^ 32 ≤ (z.owners.map XOwner.length).sum + len then (4#32, u)
    else (0#32, some { z with owners := insertOwner own z.owners })

/-- What it answers for the threads of a run, one after the other, and the unit in the end. -/
def loadAll (x : Issuer) (a : LOp) (b : BOp) : List Nat → Option Session → List (Nat × Word) × Option Session
  | [], u => ([], u)
  | l :: ls, u =>
    let r := loadOne x.cr.squad (32 * x.cr.index + l) ((x.cr.thread l).readW l a) (x.cr.readBW l false b).toNat u
    let rest := loadAll x a b ls r.2
    ((l, r.1) :: rest.1, rest.2)

/-- What `xdeal` answers for a lane of a sealed session that has no iteration open (R169, R177): owner code, inner index and `p0`. -/
def dealt (z : Session) (x : Issuer) (l : Nat) (t : Thread) : Word × Word × Bool :=
  match z.ranks.findIdx? (· == 32 * x.cr.index + l) with
  | none => (0x1FF#32, 0#32, false)
  | some r =>
    let f := t.xcur * z.ranks.length + r
    match z.owners.find? (fun o => decide (o.base ≤ f ∧ f < o.base + o.length)) with
    | none => (0x1FF#32, 0#32, false)
    | some o => if f < z.total then (BitVec.ofNat 32 o.code, o.start + BitVec.ofNat 32 (f - o.base), true) else (0x1FF#32, 0#32, false)

/-- A loading session as the first `xdeal` seals it (R169): each owner's base is the sum of the lengths before it, and the participants are the owners
whose threads have not exited. -/
def sealedSession (s : State) (q : Nat) (z : Session) : Session :=
  let base (k : Nat) : Nat := ((z.owners.take k).map XOwner.length).sum
  { z with
    sealed := true
    owners := z.owners.zipIdx.map (fun o => { o.1 with base := base o.2, next := base o.2 })
    ranks := (z.owners.map XOwner.code).filter (fun k =>
      decide ((s.thread ((s.squad q).crews.getD (k / 32) 0) (k % 32)).st ≠ .exited))
    total := (z.owners.map XOwner.length).sum }

/-- The expand reductions by code. -/
inductive RedWord : Instr → Nat → LOp → BOp → Prop
  | add (d b) : RedWord (.xredAdd d b) 0 d b
  | fadd (d b) : RedWord (.xredFadd d b) 1 d b
  | min (d b) : RedWord (.xredMin d b) 2 d b
  | max (d b) : RedWord (.xredMax d b) 3 d b

/-- The identity of a reduction and its step: a sum, an FP32 sum without flags, the lesser and the greater (R171). -/
def redStart (op : Nat) : Word := if op = 2 then 0x7FFFFFFF#32 else if op = 3 then 0x80000000#32 else 0#32

/-- The same table's step. -/
def redNext (op : Nat) (p v : Word) : Word :=
  if op = 0 then BitVec.ofNat 32 (p.toNat + v.toNat) else if op = 1 then f32AddQuiet p v
  else if op = 2 then (if p.toInt ≤ v.toInt then p else v) else (if v.toInt ≤ p.toInt then p else v)

/-- A session whose closed indices have been applied as far as they can be, of which index `n` is open and owner `o` has it (R169, R171). -/
def OpenAt (s : State) (q : Nat) (z : Session) (n : Nat) (o : XOwner) : Prop :=
  s.sessionOf q = some z ∧ (s.squad q).savedSession = none ∧ z.ownerOf n = some o ∧ n ∉ z.closed ∧ (∀ w ∈ z.terms, w.1 ≠ n) ∧
  (∀ k ∈ z.owners, k.next < k.base + k.length → k.next ∉ z.closed ∧ (k.next = n → k = o)) ∧
  ∀ op ∈ s.ops, op.kind ≠ .xred n ∧ ∀ f, s.redIndex q op = some f → (∃ k ∈ z.owners, k.base ≤ f ∧ f < k.next) → s.writeWaits op = true

/-- No earlier write of a lane's register is outstanding, and no peek of the lane is about to write one (R17). -/
def WritesFree (s : State) (c l : Nat) (d : LOp) : Prop :=
  (∀ k ∈ (s.thread c l).peeks, k.value = none ∧ Dest.clash 4 4 (.lane k.d) (.lane d) = false) ∧
  ∀ op ∈ s.ops, op.crew = c → l ∈ op.lanes → op.dest.clash op.width 4 (.lane d) = false

/-- An index has been closed between two states of a session: it is held as closed, or its owner has gone past it (R170, R171). -/
def ClosedNow (z z' : Session) (n : Nat) : Prop :=
  n ∈ z'.closed ∨ ∃ k ∈ z.owners, ∃ k' ∈ z'.owners, k'.code = k.code ∧ k.next ≤ n ∧ n < k'.next

/-- What an owner's partial result is when its next term comes: the identity until a reduction is fixed (R171). -/
def partOf (z : Session) (op : Nat) (o : XOwner) : Word := if z.red = none then redStart op else o.part

/-- A session still has work: an index not closed, a term held, or a term's flag counted (R179). -/
def SessionWork (s : State) (q : Nat) (z : Session) : Prop :=
  (z.owners.map (fun o => o.next - o.base)).sum + z.closed.length < (z.owners.map XOwner.length).sum ∨ z.terms ≠ [] ∨
  ∃ op ∈ s.ops, (s.crew op.crew).squad = q ∧ ∃ f, op.kind = .xred f

end Sys2Proof.Claim

/-- R168, R169, R176: `xld` answers each thread of its run, in ascending lane order, by the unit's state, takes a free unit, and registers the range of
each thread that it answers 0. -/
def Sys2Proof.Claim.ExpandLoads : Prop :=
  ∀ d a b s x, Sys2Proof.Claim.ExpandReady s x d → a.noPort = true → b.noPort = true →
    Sys2Proof.Machine.srcOk (s.regsOf x.c) 1 false a = true → Sys2Proof.Machine.bSrcOk (s.regsOf x.c) 1 false b = true →
    Sys2Proof.Claim.LinesHere x (Sys2Proof.Machine.linesOf 1 a ++ Sys2Proof.Machine.bLinesOf 1 b) →
    (s.squad x.cr.squad).savedSession = none →
    let core := (s.squad x.cr.squad).core
    let r := Sys2Proof.Claim.loadAll x a b x.run.lanes (s.core core).session
    ∃ t, Sys2Proof.Machine.exec (.xld d a b) s = .next t ∧ t.mem = s.mem ∧ (t.crew x.c).run = Sys2Proof.Claim.runPast x b.size ∧
      (t.core core).session = r.2 ∧ ∀ p ∈ r.1,
        (t.thread x.c p.1).q0 = p.2 ∧ (t.thread x.c p.1).q1 = (s.thread x.c p.1).q0 ∧
        (∀ y, Sys2Proof.Claim.isFile y = true →
          (t.thread x.c p.1).readW p.1 y = Sys2Proof.Claim.regAfter d [p.2] (s.thread x.c p.1) p.1 y) ∧
        (t.thread x.c p.1).xcur = (if p.2 = 0#32 then 0 else (s.thread x.c p.1).xcur) ∧
        (t.thread x.c p.1).xopen = (if p.2 = 0#32 then none else (s.thread x.c p.1).xopen)

/-- R169-R171, R177: `xdeal` gives each lane its next index of a sealed session, with the owner code and `p0`, and the empty answer where none is left,
the lane takes no part or its squad has no session; a loading session it seals first, with the ranges that are registered then. A lane's open iteration
it closes before, with no term. -/
def Sys2Proof.Claim.ExpandDeals : Prop :=
  (∀ d s x, Sys2Proof.Claim.RunsFit s → s.issuer = some x → Sys2Proof.Machine.dstOk (s.regsOf x.c) 2 false d = true → d ≠ .zero →
    Sys2Proof.Claim.LinesHere x (Sys2Proof.Machine.linesOf 2 d) → s.sessionOf x.cr.squad = none →
    ∃ t, Sys2Proof.Machine.exec (.xdeal d) s = .next t ∧ Sys2Proof.Claim.OnlyRun s t x 1 (fun l old new =>
      new = { Sys2Proof.Claim.threadPast x 1 old with
        v := new.v, o := new.o, p := new.p, q0 := 0x1FF#32, q1 := old.q0, wrote := new.wrote, xown := 0x1FF#32, xinn := 0#32 } ∧
      new.readW l (.p 0) = 0#32 ∧
      ∀ y, Sys2Proof.Claim.isFile y = true → y ≠ .p 0 → new.readW l y = Sys2Proof.Claim.regAfter d [0x1FF#32, 0#32] old l y)) ∧
  (∀ d s x z, Sys2Proof.Claim.RunsFit s → s.issuer = some x → Sys2Proof.Machine.dstOk (s.regsOf x.c) 2 false d = true → d ≠ .zero →
    Sys2Proof.Claim.LinesHere x (Sys2Proof.Machine.linesOf 2 d) → s.sessionOf x.cr.squad = some z →
    (s.squad x.cr.squad).savedSession = none → z.sealed = true →
    ∃ t z', Sys2Proof.Machine.exec (.xdeal d) s = .next t ∧ t.mem = s.mem ∧ (t.crew x.c).run = Sys2Proof.Claim.runPast x 1 ∧
      t.sessionOf x.cr.squad = some z' ∧ z'.terms.length ≤ z.terms.length ∧ ∀ l ∈ x.run.lanes,
      let r := Sys2Proof.Claim.dealt z x l (s.thread x.c l)
      let part := z.ranks.findIdx? (· == 32 * x.cr.index + l)
      (t.thread x.c l).q0 = r.1 ∧ (t.thread x.c l).q1 = (s.thread x.c l).q0 ∧ (t.thread x.c l).xown = r.1 ∧ (t.thread x.c l).xinn = r.2.1 ∧
      (t.thread x.c l).xcur = (s.thread x.c l).xcur + (if r.2.2 then 1 else 0) ∧
      (t.thread x.c l).xopen = (match part with
        | none => (s.thread x.c l).xopen
        | some k => if r.2.2 then some ((s.thread x.c l).xcur * z.ranks.length + k) else none) ∧
      (∀ n, part.isSome = true → (s.thread x.c l).xopen = some n → Sys2Proof.Claim.ClosedNow z z' n) ∧
      (x.run.lanes = [l] → (t.thread x.c l).readW l d = r.1 ∧ (t.thread x.c l).readW l (Sys2Proof.Machine.lopPlus d 1) = r.2.1 ∧
        (t.thread x.c l).readW l (.p 0) = Sys2Proof.Word.ofBool r.2.2)) ∧
  (∀ d s x z, Sys2Proof.Claim.RunsFit s → s.issuer = some x → Sys2Proof.Machine.dstOk (s.regsOf x.c) 2 false d = true → d ≠ .zero →
    Sys2Proof.Claim.LinesHere x (Sys2Proof.Machine.linesOf 2 d) → s.sessionOf x.cr.squad = some z →
    (s.squad x.cr.squad).savedSession = none → z.sealed = false → (∀ l ∈ x.run.lanes, (s.thread x.c l).xopen = none) →
    let z' := Sys2Proof.Claim.sealedSession s x.cr.squad z
    ∃ t, Sys2Proof.Machine.exec (.xdeal d) s = .next t ∧ t.mem = s.mem ∧ t.sessionOf x.cr.squad = some z' ∧
      (t.crew x.c).run = Sys2Proof.Claim.runPast x 1 ∧ ∀ l ∈ x.run.lanes,
      let r := Sys2Proof.Claim.dealt z' x l (s.thread x.c l)
      (t.thread x.c l).q0 = r.1 ∧ (t.thread x.c l).q1 = (s.thread x.c l).q0 ∧ (t.thread x.c l).xown = r.1 ∧ (t.thread x.c l).xinn = r.2.1 ∧
      (t.thread x.c l).readW l (.p 0) = Sys2Proof.Word.ofBool r.2.2 ∧
      ∀ y, Sys2Proof.Claim.isFile y = true → y ≠ .p 0 →
        (t.thread x.c l).readW l y = Sys2Proof.Claim.regAfter d [r.1, r.2.1] (s.thread x.c l) l y) ∧
  ∀ d s x z, Sys2Proof.Claim.RunsFit s → s.issuer = some x → Sys2Proof.Machine.dstOk (s.regsOf x.c) 2 false d = true → d ≠ .zero →
    Sys2Proof.Claim.LinesHere x (Sys2Proof.Machine.linesOf 2 d) → s.sessionOf x.cr.squad = some z → z.sealed = true →
    (∀ l ∈ x.run.lanes, (s.thread x.c l).xopen = none) →
    ∃ t, Sys2Proof.Machine.exec (.xdeal d) s = .next t ∧ Sys2Proof.Claim.OnlyRun s t x 1 (fun l old new =>
      let r := Sys2Proof.Claim.dealt z x l old
      new = { Sys2Proof.Claim.threadPast x 1 old with
        v := new.v, o := new.o, p := new.p, q0 := r.1, q1 := old.q0, wrote := new.wrote, xown := r.1, xinn := r.2.1
        xopen := if r.2.2 then some (old.xcur * z.ranks.length + ((z.ranks.findIdx? (· == 32 * x.cr.index + l)).getD 0)) else none
        xcur := if r.2.2 then old.xcur + 1 else old.xcur } ∧
      new.readW l (.p 0) = Sys2Proof.Word.ofBool r.2.2 ∧
      ∀ y, Sys2Proof.Claim.isFile y = true → y ≠ .p 0 → new.readW l y = Sys2Proof.Claim.regAfter d [r.1, r.2.1] old l y)

/-- R170, R171, R178: a reduction word of one lane with an iteration open closes its index, with the value of b as the term where that is not applied at
once; one with none, or with another operation or
destination than the session's, is an illegal operand; and a full term store stalls it. -/
def Sys2Proof.Claim.ExpandReduces : Prop :=
  ∀ i op d b s x l f, Sys2Proof.Claim.RedWord i op d b → Sys2Proof.Claim.RunsFit s → s.issuer = some x → x.run.lanes = [l] →
    Sys2Proof.Machine.redDstOk (s.regsOf x.c) d = true → b.noPort = true → Sys2Proof.Machine.bSrcOk (s.regsOf x.c) 1 false b = true →
    x.seta = some f → Sys2Proof.Claim.FlagRoom s x (some f) →
    Sys2Proof.Claim.LinesHere x (Sys2Proof.Machine.linesOf 1 d ++ Sys2Proof.Machine.bLinesOf 1 b) →
    ∃ t, Sys2Proof.Machine.exec i s = .next t ∧ t.mem = s.mem ∧
      match s.sessionOf x.cr.squad, (s.thread x.c l).xopen with
      | some z, some n =>
        if ∃ r, z.red = some r ∧ r ≠ (op, d) then Sys2Proof.Claim.RunParked s t x .illegalOperand 0#64
        else if 1024 ≤ z.terms.length ∧ ¬ ∃ o, z.ownerOf n = some o ∧ o.next = n then Sys2Proof.Claim.RunStalled s t x .termStore
        else (t.thread x.c l).xopen = none ∧ (t.crew x.c).run = Sys2Proof.Claim.runPast x b.size ∧
          ((s.squad x.cr.squad).savedSession = none → ∃ z', t.sessionOf x.cr.squad = some z' ∧ z'.red = some (op, d) ∧
            Sys2Proof.Claim.ClosedNow z z' n ∧ (n ∈ z'.closed → (n, x.cr.readBW l (op == 1) b) ∈ z'.terms))
      | _, _ => Sys2Proof.Claim.RunParked s t x .illegalOperand 0#64

/-- R171-R173, R178: a reduction word of one lane completes: it closes the open index, fixes the reduction where there is none, and gives the
session the value of b as the index's term. Where the index is its owner's next, the partial result takes a step with the term, the next index
rises by one, the flag's count is what it was, and the owner's register is written where this was its last index; where an earlier index of the
owner is open, the term is held and the flag counts it.
A term is applied in the step that closes its index where its turn has come (log 6). -/
def Obligations.ExpandTermsApply : Prop :=
  ∀ i op d b s x l f z n o, Sys2Proof.Claim.RedWord i op d b → Sys2Proof.Claim.RunsFit s → s.issuer = some x → x.run.lanes = [l] →
    Sys2Proof.Machine.redDstOk (s.regsOf x.c) d = true → b.noPort = true → Sys2Proof.Machine.bSrcOk (s.regsOf x.c) 1 false b = true →
    x.seta = some f → Sys2Proof.Claim.FlagRoom s x (some f) →
    Sys2Proof.Claim.LinesHere x (Sys2Proof.Machine.linesOf 1 d ++ Sys2Proof.Machine.bLinesOf 1 b) →
    (s.thread x.c l).xopen = some n → Sys2Proof.Claim.OpenAt s x.cr.squad z n o → (z.red = none ∨ z.red = some (op, d)) →
    Sys2Proof.Claim.WritesFree s x.c l d →
    let v := x.cr.readBW l (op == 1) b
    let p := Sys2Proof.Claim.redNext op (Sys2Proof.Claim.partOf z op o) v
    (o.next = n → (n + 1 < o.base + o.length → n + 1 ∉ z.closed) →
      ∃ t z' o', Sys2Proof.Machine.exec i s = .next t ∧ t.mem = s.mem ∧ t.ops = s.ops ∧ (t.crew x.c).run = Sys2Proof.Claim.runPast x b.size ∧
        (t.thread x.c l).xopen = none ∧ (∀ k, (t.thread x.c l).flags.get k = (s.thread x.c l).flags.get k) ∧
        t.sessionOf x.cr.squad = some z' ∧ z'.red = some (op, d) ∧ z'.closed = z.closed ∧ z'.terms = z.terms ∧
        o' ∈ z'.owners ∧ o'.code = o.code ∧ o'.next = n + 1 ∧ o'.part = p ∧
        let c := (s.squad x.cr.squad).crews.getD (o.code / 32) 0
        (n + 1 = o.base + o.length → o.written = false → (∀ k ∈ z.owners, k.base + k.length ≤ k.next →
            k.written = true ∨ k.length = 0 ∨ k.base + k.length - 1 ∈ s.redsHeld x.cr.squad) →
          o.code % 32 < (s.crew c).threads.length → (s.thread c (o.code % 32)).st ≠ .exited →
          (t.thread c (o.code % 32)).readW (o.code % 32) d = p)) ∧
    (o.next ≠ n → z.terms.length < 1024 →
      ∃ t z' o', Sys2Proof.Machine.exec i s = .next t ∧ t.mem = s.mem ∧ (t.crew x.c).run = Sys2Proof.Claim.runPast x b.size ∧
        (t.thread x.c l).xopen = none ∧
        (∀ k, (t.thread x.c l).flags.get k = (s.thread x.c l).flags.get k + (if k = f then 1#4 else 0#4)) ∧
        t.sessionOf x.cr.squad = some z' ∧ z'.red = some (op, d) ∧ z'.closed = z.closed ++ [n] ∧ z'.terms = z.terms ++ [(n, v)] ∧
        o' ∈ z'.owners ∧ o'.code = o.code ∧ o'.next = o.next ∧ o'.part = Sys2Proof.Claim.partOf z op o)

/-- R179, R180: `xend` answers 2 without a session, 1 while work remains, and otherwise 0 and frees the unit; `xst` reads the unit's
state. -/
def Sys2Proof.Claim.ExpandEnds : Prop :=
  (∀ d s x, Sys2Proof.Claim.ExpandReady s x d → ∃ t, Sys2Proof.Machine.exec (.xend d) s = .next t ∧ t.mem = s.mem ∧
    (t.crew x.c).run = Sys2Proof.Claim.runPast x 1) ∧
  (∀ d s x, Sys2Proof.Claim.ExpandReady s x d → ∃ t, Sys2Proof.Machine.exec (.xst d) s = .next t ∧ t.mem = s.mem ∧
    (t.crew x.c).run = Sys2Proof.Claim.runPast x 1) ∧
  (∀ d s x, Sys2Proof.Claim.ExpandReady s x d →
    (s.sessionOf x.cr.squad = none → Sys2Proof.Claim.GivesWord (.xend d) s x 1 d (fun _ => 2#32)) ∧
    (∀ z, s.sessionOf x.cr.squad = some z → Sys2Proof.Claim.SessionWork s x.cr.squad z →
      Sys2Proof.Claim.GivesWord (.xend d) s x 1 d (fun _ => 1#32)) ∧
    (∀ z, s.sessionOf x.cr.squad = some z → ¬ Sys2Proof.Claim.SessionWork s x.cr.squad z →
      ∃ t, Sys2Proof.Machine.exec (.xend d) s = .next t ∧ t.mem = s.mem ∧ t.sessionOf x.cr.squad = none ∧
        (t.crew x.c).run = Sys2Proof.Claim.runPast x 1 ∧
        ∀ l ∈ x.run.lanes, Sys2Proof.Claim.ResultOf x 1 d [0#32] 0#5 l (s.thread x.c l) (t.thread x.c l))) ∧
  (∀ d s x, Sys2Proof.Claim.ExpandReady s x d → Sys2Proof.Claim.GivesWord (.xst d) s x 1 d (fun _ =>
    match (s.core (s.squad x.cr.squad).core).session with
    | none => 0#32
    | some z => BitVec.ofNat 32 (2 ^ 30 * (if z.sealed then 2 else 1) +
      (if z.squad = x.cr.squad then
        2 ^ 29 + 2 ^ 19 * (if z.sealed then z.ranks.length else 0) + 2 ^ 8 * z.terms.length + z.lost else 0))))

namespace Sys2Proof.Claim

open Sys2Proof.Machine

/-! ### Tensor identifiers (R182, R203-R205) -/

/-- The base of a uniform result: the state with another squad table and next number, and what is outstanding to the destination
overtaken. -/
def withSquads (s t : State) : State := { s with squads := t.squads, nextId := t.nextId }

/-! ### Elected words (R16, R36, R37) -/

/-- The checks of an elected word's issue that come from its operands and its clause: a destination that it takes, a flag where its class
needs one, and no flag that counts 15. -/
def ElectReady (s : State) (x : Issuer) (d : UOp) : Prop :=
  RunsFit s ∧ s.issuer = some x ∧ electDstOk d = true ∧ (d ≠ .zero → x.seta.isSome = true) ∧ FlagRoom s x (x.electFlag d)

/-- What a later status to the word's register overtakes. -/
def statusBase (s : State) (x : Issuer) (d : UOp) : State := s.supersede x.c d.reg?.toList

/-- The run has moved `n` words, and each of its threads has counted one operation in a flag. -/
def RunCounts (s t : State) (x : Issuer) (n : Nat) (flag : Option Nat) : Prop :=
  (∀ c, c ≠ x.c → t.crew c = s.crew c) ∧
  t.crew x.c = { x.cr with threads := (t.crew x.c).threads, run := runPast x n } ∧
  (t.crew x.c).threads.length = x.cr.threads.length ∧
  ∀ l, if l ∈ x.run.lanes then
      t.thread x.c l = { threadPast x n (s.thread x.c l) with flags := (t.thread x.c l).flags, wrote := (t.thread x.c l).wrote } ∧
      ∀ f, (t.thread x.c l).flags.get f = (s.thread x.c l).flags.get f + (if flag = some f then 1#4 else 0#4)
    else t.thread x.c l = s.thread x.c l

/-- A job of the run has been queued behind the others: it holds a capability of the lowest lane's time in the core's table (R231), its
status goes to `d`, and the threads of the run count it. Nothing else of `s` differs. -/
def JobQueued (s t : State) (x : Issuer) (n : Nat) (d : UOp) (kind : JobKind) (matrix : Bool) : Prop :=
  let stage := (s.thread x.c x.lowest).stage
  let time := (s.thread x.c x.lowest).time
  ∃ cap s2, s.ctInc (s.coreOf x.c) (s.launchIdOf x.c) stage time = some (cap, s2) ∧
    t = { statusBase s2 x d with
      crews := t.crews, nextId := s.nextId + 1
      jobs := (statusBase s2 x d).jobs ++ [{
        id := s.nextId, core := s.coreOf x.c, home := s.coreOf x.c, squad := x.cr.squad, crew := x.c, lanes := x.run.lanes, flag := x.electFlag d, sd := d.reg?
        pc := x.run.hdr + BitVec.ofNat 64 (4 * (x.run.idx + 1)), stage := stage, time := time, cap := cap, kind := kind
        matrix := matrix }] } ∧
    RunCounts (statusBase s x d) t x n (x.electFlag d)

/-- The capability of an operation of the run may be counted at its own place (R232, R243), and the core's table has room for it (R233). -/
def CapRoom (s : State) (x : Issuer) : Prop :=
  s.incOk (s.coreOf x.c) (s.launchIdOf x.c) (s.thread x.c x.lowest).stage (s.thread x.c x.lowest).time (s.thread x.c x.lowest).stage
    (s.thread x.c x.lowest).time = true ∧
  s.ctRoom (s.coreOf x.c) (s.launchIdOf x.c) (s.thread x.c x.lowest).stage (s.thread x.c x.lowest).time = true

/-- The matrix queue of the core has a place (R186). -/
def MatrixRoom (s : State) (x : Issuer) : Prop := (s.jobs.filter (fun j => j.matrix && j.core == s.coreOf x.c)).length < 8

/-- The copy queue of the core has a place (R213). -/
def CopyRoom (s : State) (x : Issuer) : Prop := (s.jobs.filter (fun j => j.isCopy && j.core == s.coreOf x.c)).length < 16

/-- The run's squad holds the engine. -/
def EngineHeld (s : State) (x : Issuer) : Prop := (s.core (s.squad x.cr.squad).core).engine.holder = some x.cr.squad

/-- The run's crew holds the baton (R185). -/
def BatonHeld (s : State) (x : Issuer) : Prop :=
  EngineHeld s x ∧ (s.core (s.squad x.cr.squad).core).engine.baton = x.cr.index

/-- The machine with the latch of the engine of the run's core as an `mma` leaves it. -/
def latched (s : State) (x : Issuer) (l : Option Latch) : State :=
  s.modCore (s.coreOf x.c) (fun k => { k with engine := { k.engine with latch := l } })

/-- A block of `n` uniform registers from an even or any register up. -/
def words (x : Issuer) (r n : Nat) : List Word := (List.range n).map (fun k => x.cr.s.get (r + k))

/-- The matrix multiplications: sparse or not. -/
inductive MmaWord : Instr → Bool → UOp → UOp → Prop
  | mma (d a) : MmaWord (.mma d a) false d a
  | mmsp (d a) : MmaWord (.mmsp d a) true d a

/-- The identifier is defined and of a format that a test takes. -/
def IdOf (s : State) (x : Issuer) (n : Nat) (t : Tensor) : Prop := (s.squad x.cr.squad).tx.find n = some t

end Sys2Proof.Claim

/-- R203-R205: `tdef` defines an identifier from its descriptor in scratch where its status is 0, and leaves it otherwise; a descriptor
that is not a multiple of 16 or leaves the allotment traps. `txrd` reads a word of an identifier, 0 where it is undefined; `tfree` frees
it. -/
def Sys2Proof.Claim.TensorIdentifierWords : Prop :=
  (∀ d a b s x, Sys2Proof.Claim.RunsFit s → s.issuer = some x → Sys2Proof.Machine.uDstOk 1 d = true →
    Sys2Proof.Machine.uSrcOk 1 a = true → Sys2Proof.Machine.uSrcOk 1 b = true → (x.cr.readU a).toNat < 64 →
    let n := (x.cr.readU a).toNat
    let addr := (x.cr.readU b).toNat
    (addr % 16 ≠ 0 → ∃ t, Sys2Proof.Machine.exec (.tdef d a b) s = .next t ∧
      Sys2Proof.Claim.RunParked s t x .misaligned (BitVec.ofNat 64 addr)) ∧
    (addr % 16 = 0 → (s.squad x.cr.squad).allot < addr + 128 → ∃ t, Sys2Proof.Machine.exec (.tdef d a b) s = .next t ∧
      Sys2Proof.Claim.RunParked s t x .protection (BitVec.ofNat 64 addr)) ∧
    (addr % 16 = 0 → addr + 128 ≤ (s.squad x.cr.squad).allot →
      let k : Sys2Proof.Machine.Tensor := { words := s.descriptor x addr, uid := s.nextId }
      let st := s.tdefStatus x.cr.squad n k
      ∃ t, Sys2Proof.Machine.exec (.tdef d a b) s = .next t ∧
        Sys2Proof.Claim.UniformRun (Sys2Proof.Claim.overtakenBy (Sys2Proof.Claim.withSquads s t) x d 1) t x
          (Sys2Proof.Machine.uSize a b) d [BitVec.ofNat 32 st] ∧
        (∀ q, q ≠ x.cr.squad → t.squad q = s.squad q) ∧
        t.squad x.cr.squad = { s.squad x.cr.squad with tx := (t.squad x.cr.squad).tx } ∧
        (∀ m, m ≠ n → (t.squad x.cr.squad).tx.find m = (s.squad x.cr.squad).tx.find m) ∧
        (t.squad x.cr.squad).tx.find n = if st = 0 then some k else (s.squad x.cr.squad).tx.find n)) ∧
  (∀ d a b s x, Sys2Proof.Claim.RunsFit s → s.issuer = some x → Sys2Proof.Machine.uDstOk 1 d = true →
    Sys2Proof.Machine.uSrcOk 1 a = true → Sys2Proof.Machine.uSrcOk 1 b = true → (x.cr.readU a).toNat < 64 →
    (x.cr.readU b).toNat ≤ 48 → ∃ t, Sys2Proof.Machine.exec (.txrd d a b) s = .next t ∧
      Sys2Proof.Claim.UniformRun (Sys2Proof.Claim.overtakenBy s x d 1) t x (Sys2Proof.Machine.uSize a b) d
        [match (s.squad x.cr.squad).tx.find (x.cr.readU a).toNat with
          | none => 0#32
          | some k => k.readSel (x.cr.readU b).toNat]) ∧
  (∀ d a s x, Sys2Proof.Claim.RunsFit s → s.issuer = some x → Sys2Proof.Machine.uDstOk 1 d = true →
    Sys2Proof.Machine.uSrcOk 1 a = true → (x.cr.readU a).toNat < 64 → ∃ t, Sys2Proof.Machine.exec (.tfree d a) s = .next t ∧
      Sys2Proof.Claim.UniformRun (Sys2Proof.Claim.overtakenBy (Sys2Proof.Claim.withSquads s t) x d 1) t x (1 + a.lits.length) d
        [if ((s.squad x.cr.squad).tx.find (x.cr.readU a).toNat).isSome then 0#32 else 1#32] ∧
      ∀ q m, (t.squad q).tx.find m =
        if q = x.cr.squad ∧ m = (x.cr.readU a).toNat then none else (s.squad q).tx.find m)

/-- R190: `btn.query` reads the baton word; `btn.take` by the crew that may have the baton answers it at once, and takes a free engine;
by another it waits, its threads issuing nothing. `btn.pass` hands the baton to the next crew; a pass that releases is counted until the
squad's jobs are done. A pass by a crew without the baton raises BATON. -/
def Sys2Proof.Claim.BatonWords : Prop :=
  ∀ d s x, Sys2Proof.Claim.ElectReady s x d →
    let q := x.cr.squad
    let core := (s.squad q).core
    (∃ t, Sys2Proof.Machine.exec (.btnQuery d) s = .next t ∧
      Sys2Proof.Claim.UniformRun (Sys2Proof.Claim.statusBase s x d) t x 1 d [s.batonWord q x.cr.index]) ∧
    (Sys2Proof.Claim.BatonHeld s x → ∃ t, Sys2Proof.Machine.exec (.btnTake d) s = .next t ∧
      Sys2Proof.Claim.UniformRun (Sys2Proof.Claim.statusBase s x d) t x 1 d [s.batonWord q x.cr.index]) ∧
    ((s.core core).engine.holder = none → ∃ t, Sys2Proof.Machine.exec (.btnTake d) s = .next t ∧ t.mem = s.mem ∧
      (t.core core).engine = { holder := some q, baton := x.cr.index } ∧ (t.crew x.c).run = Sys2Proof.Claim.runPast x 1) ∧
    ((s.core core).engine.holder ≠ none → ¬ Sys2Proof.Claim.BatonHeld s x →
      ∃ t, Sys2Proof.Machine.exec (.btnTake d) s = .next t ∧ t.mem = s.mem ∧ (t.crew x.c).run = none ∧
        (∀ l ∈ x.run.lanes, (t.thread x.c l).st = .batonWait) ∧
        (t.core core).takes.map Sys2Proof.Machine.BatonWait.crew = (s.core core).takes.map Sys2Proof.Machine.BatonWait.crew ++ [x.c]) ∧
    (¬ Sys2Proof.Claim.BatonHeld s x →
      (∃ t, Sys2Proof.Machine.exec (.btnPass d) s = .next t ∧ Sys2Proof.Claim.RunParked s t x .baton 0#64) ∧
      ∃ t, Sys2Proof.Machine.exec (.btnPassRelease d) s = .next t ∧ Sys2Proof.Claim.RunParked s t x .baton 0#64) ∧
    (Sys2Proof.Claim.BatonHeld s x →
      (∃ t, Sys2Proof.Machine.exec (.btnPass d) s = .next t ∧ t.mem = s.mem ∧
        (t.core core).engine.baton = s.nextBaton q x.cr.index ∧ (t.crew x.c).run = Sys2Proof.Claim.runPast x 1) ∧
      ∃ t, Sys2Proof.Machine.exec (.btnPassRelease d) s = .next t ∧ Sys2Proof.Claim.RunCounts (Sys2Proof.Claim.statusBase s x d) t x 1 (x.electFlag d) ∧ t.mem = s.mem ∧
        (t.core (s.coreOf x.c)).engine.release.map Sys2Proof.Machine.BatonWait.crew =
          (s.core (s.coreOf x.c)).engine.release.map Sys2Proof.Machine.BatonWait.crew ++ [x.c])

/-- R185-R200: a matrix word of the crew that holds the baton (for `madd`, of a crew of the squad that holds the engine), with legal
fields and identifiers, queues its job; each of them by a crew that does not hold the baton, and `madd` where the squad does not hold the
engine, raises BATON. -/
def Obligations.MatrixWordsQueueJobs : Prop :=
  (∀ i sparse d (r : Fin 160) s x, Sys2Proof.Claim.MmaWord i sparse d (.s r) → Sys2Proof.Claim.ElectReady s x d → r.val ≤ 152 →
    let b := Sys2Proof.Claim.words x r.val 8
    Sys2Proof.Machine.firstFail (Sys2Proof.Machine.mmaChecks s x b sparse) = none → x.cr.absent = [] →
    Sys2Proof.Claim.MatrixRoom s x → Sys2Proof.Claim.CapRoom s x →
    let k := (Sys2Proof.Machine.mmaClass (Sys2Proof.Machine.bAfmt b) (Sys2Proof.Machine.bBfmt b)).getD ⟨1, 0, false, false⟩
    let l : Option Sys2Proof.Machine.Latch :=
      if Sys2Proof.Machine.bAsrc b then
        if Sys2Proof.Machine.bReuse b then (s.core (s.squad x.cr.squad).core).engine.latch
        else some { fmt := Sys2Proof.Machine.bAfmt b, chunks := x.cr.captureA k b }
      else none
    ∃ t, Sys2Proof.Machine.exec i s = .next t ∧
      Sys2Proof.Claim.JobQueued (Sys2Proof.Claim.latched s x l) t x 1 d
        (.mma b (if Sys2Proof.Machine.bAsrc b then none else s.tensor x.cr.squad (Sys2Proof.Machine.blk b 1 0 6))
          (s.tensor x.cr.squad (Sys2Proof.Machine.blk b 2 0 6))
          (if sparse then s.tensor x.cr.squad (Sys2Proof.Machine.blk b 7 0 6) else none)
          ((l.map Sys2Proof.Machine.Latch.chunks).getD [])) true) ∧
  (∀ d b s x, Sys2Proof.Claim.ElectReady s x d → Sys2Proof.Machine.uSrcOk 1 b = true → Sys2Proof.Claim.BatonHeld s x →
    (x.cr.readU b).toNat < 16 → Sys2Proof.Claim.MatrixRoom s x → Sys2Proof.Claim.CapRoom s x →
    ∃ t, Sys2Proof.Machine.exec (.mzero d b) s = .next t ∧
      Sys2Proof.Claim.JobQueued s t x (1 + b.lits.length) d (.mzero (x.cr.readU b).toNat) true) ∧
  (∀ d (r : Fin 160) s x k, Sys2Proof.Claim.ElectReady s x d → r.val ≤ 156 → Sys2Proof.Claim.BatonHeld s x →
    let b := Sys2Proof.Claim.words x r.val 4
    (b.getD 0 0#32).toNat < 2 ^ 16 → b.getD 3 0#32 = 0#32 → Sys2Proof.Claim.IdOf s x (Sys2Proof.Machine.blk b 0 4 6) k →
    Sys2Proof.Claim.MatrixRoom s x → Sys2Proof.Claim.CapRoom s x →
    (Sys2Proof.Machine.mldFmt ((b.getD 0 0#32).getLsbD 15) k.fmt = true → ∃ t, Sys2Proof.Machine.exec (.mld d (.s r)) s = .next t ∧
      Sys2Proof.Claim.JobQueued s t x 1 d (.mld b k) true) ∧
    (Sys2Proof.Machine.mstFmt ((b.getD 0 0#32).getLsbD 15) k.fmt = true → ∃ t, Sys2Proof.Machine.exec (.mst d (.s r)) s = .next t ∧
      Sys2Proof.Claim.JobQueued s t x 1 d (.mst b k) true)) ∧
  (∀ d a s x ix vx, Sys2Proof.Claim.ElectReady s x d → Sys2Proof.Machine.uSrcOk 1 a = true → Sys2Proof.Claim.EngineHeld s x →
    (x.cr.readU a).toNat < 2 ^ 19 → x.cr.absent = [] →
    Sys2Proof.Machine.maddReg (s.regsOf x.c) ((x.cr.readU a).toNat / 2 ^ 4 % 2 ^ 7) = some ix →
    Sys2Proof.Machine.maddReg (s.regsOf x.c) ((x.cr.readU a).toNat / 2 ^ 11 % 2 ^ 7) = some vx →
    Sys2Proof.Claim.MatrixRoom s x → Sys2Proof.Claim.CapRoom s x →
    ∃ t, Sys2Proof.Machine.exec (.madd d a) s = .next t ∧ Sys2Proof.Claim.JobQueued s t x (1 + a.lits.length) d
      (.madd ((x.cr.readU a).toNat % 2 ^ 4) ((x.cr.readU a).getLsbD 18)
        (x.run.lanes.map (fun l => ((x.cr.thread l).readW l ix, (x.cr.thread l).readW l vx)))) true) ∧
  (∀ d (r : Fin 160) (k : Fin 8) s x, Sys2Proof.Claim.ElectReady s x d → r.val % 2 = 0 → Sys2Proof.Claim.BatonHeld s x →
    Sys2Proof.Claim.MatrixRoom s x → Sys2Proof.Claim.CapRoom s x →
    ∃ t, Sys2Proof.Machine.exec (.mpred d (.s r) (.const ⟨k.val, by omega⟩)) s = .next t ∧
      Sys2Proof.Claim.JobQueued s t x 1 d (.mpred k.val (Sys2Proof.Word.pair (x.cr.s.get r.val) (x.cr.s.get (r.val + 1)))) true) ∧
  (∀ i sparse d (r : Fin 160) s x, Sys2Proof.Claim.MmaWord i sparse d (.s r) → Sys2Proof.Claim.ElectReady s x d → r.val ≤ 152 →
    ¬ Sys2Proof.Claim.BatonHeld s x → ∃ t, Sys2Proof.Machine.exec i s = .next t ∧ Sys2Proof.Claim.RunParked s t x .baton 0#64) ∧
  (∀ d (r : Fin 160) b s x, Sys2Proof.Claim.ElectReady s x d → ¬ Sys2Proof.Claim.BatonHeld s x →
    (Sys2Proof.Machine.uSrcOk 1 b = true →
      ∃ t, Sys2Proof.Machine.exec (.mzero d b) s = .next t ∧ Sys2Proof.Claim.RunParked s t x .baton 0#64) ∧
    (r.val ≤ 156 → ∀ i ∈ [Sys2Proof.Instr.mld d (.s r), .mst d (.s r)],
      ∃ t, Sys2Proof.Machine.exec i s = .next t ∧ Sys2Proof.Claim.RunParked s t x .baton 0#64) ∧
    (r.val % 2 = 0 → ∀ k : Fin 8, ∃ t, Sys2Proof.Machine.exec (.mpred d (.s r) (.const ⟨k.val, by omega⟩)) s = .next t ∧
      Sys2Proof.Claim.RunParked s t x .baton 0#64)) ∧
  (∀ d a s x, Sys2Proof.Claim.ElectReady s x d → Sys2Proof.Machine.uSrcOk 1 a = true → ¬ Sys2Proof.Claim.EngineHeld s x →
    ∃ t, Sys2Proof.Machine.exec (.madd d a) s = .next t ∧ Sys2Proof.Claim.RunParked s t x .baton 0#64)

namespace Sys2Proof.Claim

open Sys2Proof.Machine

/-! ### The copy streamer (R212-R226) -/

/-- The run's crew may issue copies: it is the producer crew of an ordinary or service squad with an allotment (R212). -/
def CopyRights (s : State) (x : Issuer) : Prop :=
  ((s.squad x.cr.squad).kind = .ordinary ∨ (s.squad x.cr.squad).kind = .service) ∧
  x.cr.index = (s.launchOf x.c).pkt.producer ∧ 0 < (s.squad x.cr.squad).allot

/-- A range that a copy may name: canonical global addresses, or bytes of the allotment (R217). -/
def CopyRange (s : State) (x : Issuer) (glob : Bool) (a n : Nat) : Prop :=
  if glob then canonical a = true else a < 2 ^ 32 ∧ a + n ≤ (s.squad x.cr.squad).allot

/-- The value of two words. -/
def dword (lo hi : Word) : Nat := lo.toNat + 2 ^ 32 * hi.toNat

/-- What `cpy` asks of its block of six words (R216-R218). -/
def CpyBlock (s : State) (x : Issuer) (b : List Word) : Prop :=
  let src := dword (b.getD 0 0#32) (b.getD 1 0#32)
  let dst := dword (b.getD 2 0#32) (b.getD 3 0#32)
  let n := (b.getD 4 0#32).toNat
  (b.getD 5 0#32).toNat < 4 ∧ n ≤ 0x80000000 ∧ src % 4 = 0 ∧ dst % 4 = 0 ∧ n % 4 = 0 ∧
  CopyRange s x ((b.getD 5 0#32).getLsbD 0) src n ∧ CopyRange s x ((b.getD 5 0#32).getLsbD 1) dst n

/-- What `cpyt` asks of its block (R216, R219, R220). -/
def CpytBlock (s : State) (x : Issuer) (b : List Word) (st dt : Tensor) : Prop :=
  (b.getD 0 0#32).toNat < 64 ∧ b.getD 1 0#32 = 0#32 ∧ (b.getD 2 0#32).toNat < 64 ∧
  (b.getD 4 0#32 = 0#32 ∨ (b.getD 4 0#32 = 16#32 ∧ narrowFmt dt.fmt = true)) ∧
  IdOf s x (b.getD 0 0#32).toNat st ∧ IdOf s x (b.getD 2 0#32).toNat dt ∧ cpytPair st dt = true

/-- The receivers that accept a multicast, and the stage and times at which capabilities are counted (R222, R231). -/
def castTo (s : State) (x : Issuer) (b : List Word) : List (Nat × Nat) :=
  s.accepting x (blk b 4 0 12) (b.getD 2 0#32).toNat (b.getD 3 0#32).toNat

/-- What `cpym` asks of its block (R216, R222). -/
def CpymBlock (s : State) (x : Issuer) (b : List Word) : Prop :=
  let src := dword (b.getD 0 0#32) (b.getD 1 0#32)
  let n := (b.getD 3 0#32).toNat
  (b.getD 4 0#32).toNat < 2 ^ 12 ∧ blk b 5 1 7 = 0 ∧ blk b 5 12 20 = 0 ∧ n ≤ 0x80000000 ∧
  src % 4 = 0 ∧ (b.getD 2 0#32).toNat % 4 = 0 ∧ n % 4 = 0 ∧ CopyRange s x ((b.getD 5 0#32).getLsbD 0) src n ∧
  (s.launchOf x.c).declares (BitVec.ofNat 4 (blk b 5 8 4)) = true ∧
  s.incOk (s.coreOf x.c) (s.launchIdOf x.c) (s.thread x.c x.lowest).stage (s.thread x.c x.lowest).time
    (s.thread x.c x.lowest).stage (s.thread x.c x.lowest).time = true ∧
  (castTo s x b = [] ∨ s.incOk (s.coreOf x.c) (s.launchIdOf x.c) (s.thread x.c x.lowest).stage (s.thread x.c x.lowest).time
    (BitVec.ofNat 4 (blk b 5 8 4)) (s.thread x.c x.lowest).time = true)

/-- The sweep that a lookup reads, with the clusters' tables as they stand once it counts as a user of it (R245, R252). -/
def lookingUp (s : State) (cl n launch : Nat) (time : DWord) : Option Nat × AList Cluster :=
  let t := (s.cluster cl).tables.getD n {}
  let w := if t.bound = some launch then t.sweeps.findIdx? (fun w => decide (w.st ≠ .free ∧ w.time = time)) else none
  (w, (s.modCluster cl (fun k => { k with tables := k.tables.modify n (fun t => match w with
    | some i => { t with sweeps := t.sweeps.modify i (fun w => { w with users := w.users + 1 }) }
    | none => t) })).clusters)

/-! ### Elected words that start one operation for their run -/

/-- The elected words that only start an operation: their destination, the uniform registers that its result fills, the operation, and
their size. -/
inductive ElectedStart (s : State) (x : Issuer) : Instr → UOp → List Nat → OpKind → Nat → Prop
  | bisx (rd ra rb : Fin 160) : rd.val % 4 = 0 → ra.val % 2 = 0 → rb.val % 2 = 0 →
      ElectedStart s x (.bisx (.s rd) (.s ra) (.s rb)) (.s rd)
        [rd.val, rd.val + 1, rd.val + 2, rd.val + 3, ra.val + 1, rb.val + 1]
        (.bisx ra.val rb.val (x.cr.s.get ra.val) (x.cr.s.get rb.val) (x.cr.s.get (ra.val + 1)) (x.cr.s.get (rb.val + 1))) 1
  | cpyst (r : Fin 160) : ElectedStart s x (.cpyst (.s r)) (.s r) [r.val] .cpyst 1
  | ftpoll (r : Fin 160) (b) : r.val % 4 = 0 → uSrcOk 1 b = true → (x.cr.readU b).toNat < 16 →
      (s.launchOf x.c).declares ((x.cr.readU b).setWidth 4) = true →
      ElectedStart s x (.ftpoll (.s r) b) (.s r) [r.val, r.val + 1, r.val + 2, r.val + 3] (.ftpoll (x.cr.readU b).toNat)
        (1 + b.lits.length)
  | cclr (d b) : electDstOk d = true → uSrcOk 1 b = true → (x.cr.readU b).toNat < 4 →
      ElectedStart s x (.cclr d b) d d.reg?.toList (.cclr (x.cr.readU b).toNat) (1 + b.lits.length)

end Sys2Proof.Claim

/-- R212-R222: a copy word of the squad's producer crew, with a block that its entry allows, queues its job behind the core's other
copies; `cpym` with a capability of the landing stage for each receiver besides its own. A crew without the rights raises
STREAM_RIGHTS.
For which receivers `cpym` takes a capability as it issues is this model's reading (log 26). -/
def Obligations.CopyWordsQueueJobs : Prop :=
  ∀ d (r : Fin 160) s x, Sys2Proof.Claim.ElectReady s x d → r.val % 2 = 0 → r.val ≤ 154 →
    let b := Sys2Proof.Claim.words x r.val 6
    (¬ Sys2Proof.Claim.CopyRights s x → ∀ i ∈ [Sys2Proof.Instr.cpy d (.s r), .cpyt d (.s r), .cpym d (.s r)],
      ∃ t, Sys2Proof.Machine.exec i s = .next t ∧ Sys2Proof.Claim.RunParked s t x .streamRights 0#64) ∧
    (Sys2Proof.Claim.CopyRights s x → Sys2Proof.Claim.CopyRoom s x →
      (Sys2Proof.Claim.CpyBlock s x b → Sys2Proof.Claim.CapRoom s x → ∃ t, Sys2Proof.Machine.exec (.cpy d (.s r)) s = .next t ∧
        Sys2Proof.Claim.JobQueued s t x 1 d (.cpy ((b.getD 5 0#32).getLsbD 0) ((b.getD 5 0#32).getLsbD 1)
          (Sys2Proof.Claim.dword (b.getD 0 0#32) (b.getD 1 0#32)) (Sys2Proof.Claim.dword (b.getD 2 0#32) (b.getD 3 0#32))
          (b.getD 4 0#32).toNat) false) ∧
      (∀ st dt, Sys2Proof.Claim.CpytBlock s x b st dt → Sys2Proof.Claim.CapRoom s x →
        ∃ t, Sys2Proof.Machine.exec (.cpyt d (.s r)) s = .next t ∧ Sys2Proof.Claim.JobQueued s t x 1 d
          (.cpyt st dt (b.getD 3 0#32).toNat (b.getD 5 0#32).toNat ((b.getD 4 0#32).getLsbD 4)) false) ∧
      (Sys2Proof.Claim.CpymBlock s x b →
        ∀ own caps s2, s.ctIncs (s.coreOf x.c) (s.launchIdOf x.c)
          (((s.thread x.c x.lowest).stage, (s.thread x.c x.lowest).time) :: (Sys2Proof.Claim.castTo s x b).map (fun _ =>
            (BitVec.ofNat 4 (Sys2Proof.Machine.blk b 5 8 4), (s.thread x.c x.lowest).time))) = some (own :: caps, s2) →
        ∃ t j, Sys2Proof.Machine.exec (.cpym d (.s r)) s = .next t ∧ Sys2Proof.Claim.RunCounts (Sys2Proof.Claim.statusBase s x d) t x 1 (x.electFlag d) ∧
          t.mem = s.mem ∧ t.jobs = (Sys2Proof.Claim.statusBase s x d).jobs ++ [j] ∧ j.crew = x.c ∧ j.cap = own ∧ j.sd = d.reg? ∧
          j.kind = .cpym ((b.getD 5 0#32).getLsbD 0) (Sys2Proof.Claim.dword (b.getD 0 0#32) (b.getD 1 0#32)) (b.getD 2 0#32).toNat
            (b.getD 3 0#32).toNat (Sys2Proof.Machine.blk b 4 0 12) (Sys2Proof.Machine.blk b 5 8 4)
            (((Sys2Proof.Claim.castTo s x b).zip caps).map (fun p => (p.1.1, p.1.2, p.2)))
            (Sys2Proof.Machine.maskOf ((Sys2Proof.Machine.bitsBelow 12 (Sys2Proof.Machine.blk b 4 0 12)).filter
              (fun k => !(Sys2Proof.Claim.castTo s x b).any (fun p => p.1 == k))))))

/-- R206, R226, R241, R252, R253: `bisx`, `cpyst`, `ftpoll`, `cfind` and `cclr` start one operation for their run, overtake what is
outstanding to its registers, and change nothing else; `cfind` counts as a user of the sweep of its time, where the table is its launch's and
has one (R245). -/
def Obligations.ElectedWordsStart : Prop :=
  (∀ (r q : Fin 160) b s x, r.val % 4 = 0 → q.val % 2 = 0 → q.val ≤ 156 → Sys2Proof.Machine.uSrcOk 1 b = true →
    (x.cr.readU b).toNat < 4 → Sys2Proof.Claim.ElectReady s x (.s r) →
    let n := (x.cr.readU b).toNat
    let cl := s.coreOf x.c / 12
    let time := Sys2Proof.Word.pair (x.cr.s.get (q.val + 2)) (x.cr.s.get (q.val + 3))
    let regs := [r.val, r.val + 1, r.val + 2, r.val + 3]
    let base := { s.supersede x.c regs with clusters := (Sys2Proof.Claim.lookingUp s cl n (s.launchIdOf x.c) time).2 }
    ∃ t, Sys2Proof.Machine.exec (.cfind (.s r) (.s q) b) s = .next t ∧
      Sys2Proof.Claim.Started base t base x (1 + b.lits.length) (x.electFlag (.s r)) false
        [Sys2Proof.Claim.runOp s x (.cfind n (Sys2Proof.Word.pair (x.cr.s.get q.val) (x.cr.s.get (q.val + 1))) time
          (Sys2Proof.Claim.lookingUp s cl n (s.launchIdOf x.c) time).1) (x.electFlag (.s r)) (.uni regs) 0 0 4 0]) ∧
  ∀ i d regs kind n s x, Sys2Proof.Claim.ElectedStart s x i d regs kind n → Sys2Proof.Claim.ElectReady s x d →
    ∃ t, Sys2Proof.Machine.exec i s = .next t ∧
      Sys2Proof.Claim.Started (s.supersede x.c regs) t (s.supersede x.c regs) x n (x.electFlag d) false
        [Sys2Proof.Claim.runOp s x kind (x.electFlag d) (.uni regs) 0 0 4 0]

namespace Sys2Proof.Claim

open Sys2Proof.Machine

/-! ### Sweep builds and pair launches (R250-R255, R263, R268) -/

/-- The sweep builds: every record, or only the first of each voxel. -/
inductive CinsWord : Instr → Bool → UOp → UOp → Prop
  | all (d a) : CinsWord (.cins d a) false d a
  | first (d a) : CinsWord (.cinsFirst d a) true d a

/-- What `cins` asks of its block and its time (R232, R250). -/
def CinsBlock (s : State) (x : Issuer) (b : List Word) (p o c : Tensor) : Prop :=
  cinsBlockOk b = true ∧ IdOf s x (blk b 1 0 6) p ∧ IdOf s x (blk b 2 0 6) o ∧ IdOf s x (blk b 3 0 6) c ∧
  tensorIs (some p) 0 (blk b 7 0 16 + 3) = true ∧ tensorIs (some o) 14 (blk b 5 0 32) = true ∧
  tensorIs (some c) 14 (blk b 5 0 32) = true ∧
  s.incOk (s.coreOf x.c) (s.launchIdOf x.c) (s.thread x.c x.lowest).stage (s.thread x.c x.lowest).time
    (s.thread x.c x.lowest).stage (s.thread x.c x.lowest).time = true

/-- Why a table refuses a sweep of a launch at a time (R251): 3 for another launch's table, 1 for a time that it has, 2 for no free
record, 0 for no reason. -/
def sweepRefusal (t : CellTable) (launch : Nat) (time : DWord) : Nat :=
  if (∃ k, t.bound = some k ∧ k ≠ launch) then 3
  else if (∃ w ∈ t.sweeps, w.st ≠ .free ∧ w.time = time) then 1
  else if (∀ w ∈ t.sweeps, w.st ≠ .free) then 2 else 0

/-- A lane's registers from one up. -/
def laneWords (x : Issuer) (l n : Nat) (a : LOp) : List Word :=
  (List.range n).map (fun k => (x.cr.thread l).readW l (if k = 0 then a else lopPlus a k))

end Sys2Proof.Claim

/-- R250, R251: a sweep build with a legal block that its table refuses answers at once with the reason; one that it does not refuse binds
the table, takes a record for its time, and queues its job with the copies. -/
def Obligations.SweepBuildsQueue : Prop :=
  ∀ i first d (r : Fin 160) s x p o c, Sys2Proof.Claim.CinsWord i first d (.s r) → Sys2Proof.Claim.ElectReady s x d →
    r.val % 4 = 0 → r.val ≤ 148 →
    let b := Sys2Proof.Claim.words x r.val 12
    Sys2Proof.Claim.CinsBlock s x b p o c →
    let cl := s.coreOf x.c / 12
    let tb := Sys2Proof.Machine.blk b 0 0 2
    let table := ((s.cluster cl).tables.getD tb {})
    let time := (s.thread x.c x.lowest).time
    let why := Sys2Proof.Claim.sweepRefusal table (s.launchIdOf x.c) time
    (why ≠ 0 → ∃ t, Sys2Proof.Machine.exec i s = .next t ∧
      Sys2Proof.Claim.UniformRun (Sys2Proof.Claim.statusBase s x d) t x 1 d [BitVec.ofNat 32 (2 ^ 31 + why * 2 ^ 24)]) ∧
    (why = 0 → tb < (s.cluster cl).tables.length → Sys2Proof.Claim.CopyRoom s x → Sys2Proof.Claim.CapRoom s x →
      ∃ t j, Sys2Proof.Machine.exec i s = .next t ∧ Sys2Proof.Claim.RunCounts (Sys2Proof.Claim.statusBase s x d) t x 1 (x.electFlag d) ∧ t.mem = s.mem ∧
        t.jobs = (Sys2Proof.Claim.statusBase s x d).jobs ++ [j] ∧
        (∃ w, j.kind = .cins b p o c tb w first ∧ ∃ k, ((t.cluster cl).tables.getD tb {}).sweeps[w]? = some k ∧
          k.st = .building ∧ k.time = time) ∧
        ((t.cluster cl).tables.getD tb {}).bound = some (s.launchIdOf x.c))

/-- R254, R255, R268: a pair launch with a legal block, defined tensors, a core of its mask that holds pair slots, and room in the
executing core's queue is sent to the cores of its mask that hold pair slots, with a capability of its stage, and is queued on each that has room
and that no earlier launch is on its way to (R267). -/
def Sys2Proof.Claim.PairLaunchesQueue : Prop :=
  ∀ d (r : Fin 160) s x, Sys2Proof.Claim.ElectReady s x d → r.val % 4 = 0 → r.val ≤ 144 →
    let b := Sys2Proof.Claim.words x r.val 16
    let self := decide (Sys2Proof.Machine.blk b 0 2 1 = 1)
    let px := Sys2Proof.Machine.blk b 5 0 16
    let stage := BitVec.ofNat 4 (Sys2Proof.Machine.blk b 0 6 4)
    let time := (s.thread x.c x.lowest).time
    let cores := (s.pairCores (s.launchIdOf x.c) (s.coreOf x.c / 12) (Sys2Proof.Machine.blk b 12 0 12)).1
    let width := Sys2Proof.Machine.blk b 0 4 2 + 1
    ∀ p q ap aq, Sys2Proof.Machine.plnchBlockOk b = true → Sys2Proof.Claim.IdOf s x (Sys2Proof.Machine.blk b 1 0 6) p →
    (if self then q = p else Sys2Proof.Claim.IdOf s x (Sys2Proof.Machine.blk b 1 8 6) q) →
    Sys2Proof.Claim.IdOf s x (Sys2Proof.Machine.blk b 3 0 6) ap →
    (if self then aq = ap else Sys2Proof.Claim.IdOf s x (Sys2Proof.Machine.blk b 3 8 6) aq) →
    Sys2Proof.Machine.tensorIs (some p) 0 (px + 3) = true →
    Sys2Proof.Machine.tensorIs (some q) 0 ((if self then px else Sys2Proof.Machine.blk b 5 16 16) + 3) = true →
    Sys2Proof.Machine.tensorIs (some ap) 0 width = true → Sys2Proof.Machine.tensorIs (some aq) 0 width = true →
    (Sys2Proof.Machine.blk b 0 3 1 = 0 ∨
      (Sys2Proof.Machine.tensorIs (s.tensor x.cr.squad (Sys2Proof.Machine.blk b 2 0 6)) 14 0 = true ∧
        Sys2Proof.Machine.tensorIs (s.tensor x.cr.squad (Sys2Proof.Machine.blk b 2 8 6)) 14 0 = true)) →
    7 ≤ s.regsOf x.c → Sys2Proof.Claim.dword (b.getD 8 0#32) (b.getD 9 0#32) % 4 = 0 → cores ≠ [] →
    s.incOk (s.coreOf x.c) (s.launchIdOf x.c) (s.thread x.c x.lowest).stage time stage time = true →
    (s.core (s.coreOf x.c)).isthmus.length < 4 → s.ctRoom (s.coreOf x.c) (s.launchIdOf x.c) stage time = true →
    ∃ t l, Sys2Proof.Machine.exec (.plnch d (.s r)) s = .next t ∧ Sys2Proof.Claim.RunCounts (Sys2Proof.Claim.statusBase s x d) t x 1 (x.electFlag d) ∧ t.mem = s.mem ∧
      t.pairLaunches.find s.nextId = some l ∧ l.crew = x.c ∧ l.block = b ∧ l.p = p ∧ l.q = q ∧ l.accp = ap ∧ l.accq = aq ∧
      l.stage = stage ∧ l.time = time ∧ l.sd = d.reg? ∧ l.cores.map Sys2Proof.Machine.PairCore.core = cores ∧
      ∀ k ∈ cores, (s.core k).isthmus.length < 4 → (∀ w ∈ s.pairLaunches, ∀ y ∈ w.2.cores, y.core = k → y.arrived = true) →
        s.nextId ∈ (t.core k).isthmus

/-- R263: `pret` returns its registers for each thread's pair and ends the thread; a thread without a pair, or with fewer accumulator
fields than registers, parks with ILLEGAL_OPERAND. -/
def Sys2Proof.Claim.PairReturns : Prop :=
  ∀ a (num : BitVec 3) s x l, Sys2Proof.Claim.RunsFit s → s.issuer = some x → x.run.lanes = [l] → Sys2Proof.Claim.LastWord x 1 →
    1 ≤ num.toNat → num.toNat ≤ 4 → Sys2Proof.Machine.pretRegsOk (s.regsOf x.c) num.toNat a = true →
    Sys2Proof.Claim.LinesHere x (Sys2Proof.Machine.linesOf num.toNat a) → (s.thread x.c l).st = .running →
    ((s.thread x.c l).pair = none → ∃ t, Sys2Proof.Machine.exec (.pret a num) s = .next t ∧
      Sys2Proof.Claim.RunParked s t x .illegalOperand 0#64) ∧
    (∀ ref p, (s.thread x.c l).pair = some ref → s.pairLaunches.find ref.launch = some p →
      if Sys2Proof.Machine.blk p.block 0 4 2 + 1 < num.toNat then
        ∃ t, Sys2Proof.Machine.exec (.pret a num) s = .next t ∧ Sys2Proof.Claim.RunParked s t x .illegalOperand 0#64
      else
        ∃ t, Sys2Proof.Machine.exec (.pret a num) s = .next t ∧ t.mem = s.mem ∧ (t.thread x.c l).st = .exited ∧
          ∃ u, t.pairLaunches.find ref.launch = some u ∧ ∀ k ∈ u.cores, k.core = ref.core → ∀ y, k.pairs[ref.place]? = some y →
            y.st = .returned (Sys2Proof.Claim.laneWords x l num.toNat a))

namespace Sys2Proof.Claim

open Sys2Proof.Machine

/-! ### Device launches, tasks and messages (R309-R313) -/

/-- Where a push goes (R311): to its own squad, or with ANY to one of the cohort's that `fewest` picks; nowhere where no squad with queues is there to
take it (log 34). -/
def pushTo (s : State) (x : Issuer) (v : Nat) : Option Nat :=
  if v / 8 % 2 = 1 then s.fewest x.cr.squad (v % 8)
  else if (s.squad x.cr.squad).kind = .ordinary then some x.cr.squad else none

/-- Why an entry is not enqueued (R311): 3 for a launch without queues, 1 for no such task handler, 2 for a full queue, or for none (log 34), 0 where
it is. -/
def pushStatus (s : State) (x : Issuer) (v : Nat) (w0 : Word) : Nat :=
  let k := s.launchOf x.c
  if k.pkt.persist = false then 3 else if k.taskOk (w0.toNat / 2 ^ 16) = false then 1
  else match pushTo s x v with
    | none => 2
    | some q => if 64 ≤ (s.squad q).tasks.length then 2 else 0

/-- The resident ordinary squads of a squad's launch in its cluster, and how many entries one of them has in a queue (R311, log 34). -/
def InCohort (s : State) (q k : Nat) : Prop :=
  ∃ r, (k, r) ∈ s.squads ∧ r.launch = (s.squad q).launch ∧ r.kind = .ordinary ∧ r.st = .resident ∧ r.cluster = (s.squad q).cluster
def entriesIn (s : State) (k n : Nat) : Nat := ((s.squad k).tasks.filter (fun t => t.queue == n)).length

/-- A pull waits: the crew's tasks are over but for those that have failed, and its operation is outstanding (R290, R312). -/
def PullWaits (s t : State) (x : Issuer) (r mask : Nat) : Prop :=
  let regs := (List.range 8).map (r + ·)
  (t.crew x.c).tasks = x.cr.tasks.filter Task.failed ∧ ∃ op, t.ops = (s.supersede x.c regs).ops ++ [op] ∧ op.kind = .qpull mask ∧ op.lanes = x.run.lanes ∧
    op.dest = .uni regs

end Sys2Proof.Claim

/-- R309, R313: `lnch` hands the packet at its address, a multiple of 64, to the partition; `amsg` sends its payload with a capability of
the sender's time, and is an effect of the crew's tasks (R290). Each starts one operation that its flag counts. -/
def Sys2Proof.Claim.LaunchesAndMessagesLeave : Prop :=
  (∀ d (r : Fin 160) s x, Sys2Proof.Claim.ElectReady s x d → r.val % 2 = 0 →
    let addr := Sys2Proof.Word.pair (x.cr.s.get r.val) (x.cr.s.get (r.val + 1))
    (addr.toNat % 64 ≠ 0 → ∃ t, Sys2Proof.Machine.exec (.lnch d (.s r)) s = .next t ∧ Sys2Proof.Claim.RunParked s t x .misaligned 0#64) ∧
    (addr.toNat % 64 = 0 → ∃ t u, Sys2Proof.Machine.exec (.lnch d (.s r)) s = .next t ∧
      Sys2Proof.Claim.RunCounts (Sys2Proof.Claim.statusBase s x d) t x 1 (x.electFlag d) ∧ t.mem = s.mem ∧ t.submissions = s.submissions ++ [u] ∧ u.addr = addr ∧
      u.part = s.partOfCore (s.coreOf x.c) ∧ u.space = some (s.spaceOf x.c) ∧ u.sys = (s.launchOf x.c).pkt.sys ∧
      u.op = some s.nextId ∧ t.ops = (Sys2Proof.Claim.statusBase s x d).ops ++
        [Sys2Proof.Claim.runOp s x .lnch (x.electFlag d) (.uni d.reg?.toList) addr.toNat 0 4 0])) ∧
  (∀ d (r : Fin 160) s x, Sys2Proof.Claim.ElectReady s x d → r.val ≤ 146 →
    let b := Sys2Proof.Claim.words x r.val 14
    Sys2Proof.Machine.blk b 0 0 8 = 0 → Sys2Proof.Machine.blk b 0 18 14 = 0 → Sys2Proof.Machine.blk b 1 6 10 = 0 →
    Sys2Proof.Machine.blk b 1 0 6 % 4 = 0 → Sys2Proof.Machine.blk b 1 0 6 ≤ 48 → Sys2Proof.Claim.CapRoom s x →
    let told := { x with cr := { x.cr with tasks := x.cr.tasks.map (fun k => { k with effects := true }) } }
    ∃ t m, Sys2Proof.Machine.exec (.amsg d (.s r)) s = .next t ∧
      Sys2Proof.Claim.RunCounts (Sys2Proof.Claim.statusBase s x d) t told 1 (x.electFlag d) ∧ t.mem = s.mem ∧
      t.messages = s.messages ++ [m] ∧ m.launch = s.launchIdOf x.c ∧ m.handler = Sys2Proof.Machine.blk b 1 16 16 ∧
      m.payload = (Sys2Proof.Claim.words x (r.val + 2) (Sys2Proof.Machine.blk b 1 0 6 / 4)) ∧
      (Sys2Proof.Machine.blk b 0 12 4 < 12 → Sys2Proof.Machine.blk b 0 8 4 < 12 → m.target =
        144 * Sys2Proof.Machine.blk b 0 16 2 + 12 * Sys2Proof.Machine.blk b 0 12 4 + Sys2Proof.Machine.blk b 0 8 4) ∧
      m.stage = (s.thread x.c x.lowest).stage ∧ m.time = (s.thread x.c x.lowest).time)

/-- R311, R312: `qpush` answers at once and enqueues its eight words, with a capability of their time, where it answers 0; with ANY it goes to a
squad of the cohort that has the fewest entries. `qpull` ends the crew's tasks, but for those that have failed (R290), and takes the head of the lowest
nonempty queue of its mask, its threads moving to the entry's time, where the squad then holds a capability (R230); or it waits. -/
def Sys2Proof.Claim.TaskWords : Prop :=
  (∀ (s : Sys2Proof.Machine.State) q n, match s.fewest q n with
    | none => ∀ k, ¬ Sys2Proof.Claim.InCohort s q k
    | some i => Sys2Proof.Claim.InCohort s q i ∧
      ∀ k, Sys2Proof.Claim.InCohort s q k → Sys2Proof.Claim.entriesIn s i n ≤ Sys2Proof.Claim.entriesIn s k n) ∧
  (∀ d a (r : Fin 160) s x, Sys2Proof.Claim.ElectReady s x d → Sys2Proof.Machine.uSrcOk 1 a = true → r.val ≤ 152 →
    let ws := Sys2Proof.Claim.words x r.val 8
    let v := (x.cr.readU a).toNat
    let e : Sys2Proof.Machine.TaskEntry := { queue := v % 8, words := ws, cap := 0 }
    let st := Sys2Proof.Claim.pushStatus s x v (ws.headD 0#32)
    v < 16 → Sys2Proof.Machine.blk ws 0 2 6 = 0 → Sys2Proof.Machine.blk ws 0 8 8 < 16 →
    s.incOk (s.coreOf x.c) (s.launchIdOf x.c) (s.thread x.c x.lowest).stage (s.thread x.c x.lowest).time e.stage e.time = true →
    (st = 0 → ∀ q, Sys2Proof.Claim.pushTo s x v = some q → s.ctRoom (s.squad q).core (s.launchIdOf x.c) e.stage e.time = true) →
    ∃ t, Sys2Proof.Machine.exec (.qpush d a (.s r)) s = .next t ∧ t.mem = s.mem ∧
      (t.crew x.c).run = Sys2Proof.Claim.runPast x (1 + a.lits.length) ∧
      (∀ k, d = .s k → (t.crew x.c).s.get k.val = BitVec.ofNat 32 (2 ^ 31 + st)) ∧
      (∀ k : Fin 160, d ≠ .s k → (t.crew x.c).s.get k.val = x.cr.s.get k.val) ∧
      (st ≠ 0 → ∀ q, t.squad q = s.squad q) ∧
      (st = 0 → ∃ q i, Sys2Proof.Claim.pushTo s x v = some q ∧ (t.squad q).tasks = (s.squad q).tasks ++ [{ e with cap := i }])) ∧
  (∀ (r : Fin 160) a s x, Sys2Proof.Claim.ElectReady s x (.s r) → Sys2Proof.Machine.uSrcOk 1 a = true → r.val % 8 = 0 → r.val ≤ 152 →
    (x.cr.readU a).toNat ≠ 0 → (x.cr.readU a).toNat < 256 → (∀ op ∈ s.ops, op.id < s.nextId) →
    let n := 1 + a.lits.length
    ∃ t, Sys2Proof.Machine.exec (.qpull (.s r) a) s = .next t ∧ t.mem = s.mem ∧ (t.crew x.c).run = Sys2Proof.Claim.runPast x n ∧
      match (s.squad x.cr.squad).ownTask (x.cr.readU a).toNat with
      | none => Sys2Proof.Claim.PullWaits s t x r.val (x.cr.readU a).toNat
      | some e =>
        (t.crew x.c).tasks.map Sys2Proof.Machine.Task.entry =
          (x.cr.tasks.filter Sys2Proof.Machine.Task.failed).map Sys2Proof.Machine.Task.entry ++ [e] ∧
        (∃ k ∈ (t.squad x.cr.squad).caps, k.stage = e.stage ∧ k.time = e.time) ∧
        (t.squad x.cr.squad).tasks = Sys2Proof.Machine.removeOne e (s.squad x.cr.squad).tasks ∧
        (∀ l ∈ x.run.lanes, (s.thread x.c l).st ≠ .exited → (t.thread x.c l).stage = e.stage ∧ (t.thread x.c l).time = e.time) ∧
        ∀ k, k < 8 → k < e.words.length → (t.crew x.c).s.get (r.val + k) = e.words.getD k 0#32)

namespace Sys2Proof.Claim

open Sys2Proof.Machine

/-! ### Logical time (R227-R242) -/

/-- The run's threads move, each to a stage and a time that `go` gives from its own: every move passes R232, and the count table has room
for the times that the squad does not hold yet (R233). -/
def MovesFit (s : State) (x : Issuer) (go : BitVec 4 → DWord → BitVec 4 × DWord) : Prop :=
  (∀ l ∈ x.run.lanes, let t := s.thread x.c l
    go t.stage t.time = (t.stage, t.time) ∨
      s.incOk (s.coreOf x.c) (s.launchIdOf x.c) t.stage t.time (go t.stage t.time).1 (go t.stage t.time).2 = true) ∧
  (s.ctIncs (s.coreOf x.c) (s.launchIdOf x.c)
    ((((x.run.lanes.filter (fun l => go (s.thread x.c l).stage (s.thread x.c l).time != ((s.thread x.c l).stage, (s.thread x.c l).time))).map
      (fun l => go (s.thread x.c l).stage (s.thread x.c l).time)).eraseDups).filter (fun g => !s.capAt x.cr.squad g))).isSome = true ∧
  (∀ op ∈ s.ops, op.id < s.nextId) ∧ ∀ l ∈ x.run.lanes, ∀ k ∈ (s.thread x.c l).peeks, k.value = none

/-- The threads have moved, the squad holds a capability wherever one of those that changed place stands (R230, R238), and the clause's SETB
flag counts the word as long as a drop that it caused is still to be made (R237). -/
def Moved (s t : State) (x : Issuer) (n : Nat) (go : BitVec 4 → DWord → BitVec 4 × DWord) : Prop :=
  t.mem = s.mem ∧ (t.crew x.c).run = runPast x n ∧
  (∀ l ∈ x.run.lanes, let u := s.thread x.c l
    t.thread x.c l = { threadPast x n u with
      stage := (go u.stage u.time).1, time := (go u.stage u.time).2, flags := (t.thread x.c l).flags, wrote := (t.thread x.c l).wrote
      freed := u.freed && decide (go u.stage u.time = (u.stage, u.time)) } ∧
    ∀ f, (t.thread x.c l).flags.get f =
      u.flags.get f + (if x.setb = some f ∧ t.drops.any (fun d => d.op == some s.nextId) = true then 1#4 else 0#4)) ∧
  (x.c ∈ (s.squad x.cr.squad).crews → ∀ l ∈ x.run.lanes, (s.thread x.c l).st ≠ .exited →
    go (s.thread x.c l).stage (s.thread x.c l).time ≠ ((s.thread x.c l).stage, (s.thread x.c l).time) →
    t.capAt x.cr.squad ((t.thread x.c l).stage, (t.thread x.c l).time) = true)

/-- The checks of an elected word without a destination, and of its stage and time operands (R237). -/
def StageReady (s : State) (x : Issuer) (a b : UOp) : Prop :=
  ElectReady s x .zero ∧ uSrcOk 2 a = true ∧ uSrcOk 1 b = true ∧ (x.cr.readU b).toNat < 16 ∧
  (s.launchOf x.c).declares ((x.cr.readU b).setWidth 4) = true

/-- The value of a time with `n` added to counter `k`, `c0` outermost; nothing where the counter is carried past 0xFFFF (R227, R238). -/
def addTime (t : DWord) (k n : Nat) : Option DWord :=
  if t.toNat / 2 ^ (48 - 16 * k) % 2 ^ 16 + n < 2 ^ 16 then
    some (if n = 0 then t else BitVec.ofNat 64 ((t.toNat / 2 ^ (48 - 16 * k) + n) * 2 ^ (48 - 16 * k)))
  else none

/-- The program capabilities that a squad's record lists for a stage and time. -/
def progCount (s : State) (q : Nat) (g : BitVec 4) (t : DWord) : Nat :=
  (((s.squad q).progCaps.find? (fun k => k.stage == g && k.time == t)).map ProgCap.count).getD 0

end Sys2Proof.Claim

/-- R227, R232, R233, R237, R238: `ltset` moves the run's threads to a declared stage and a time, `ltinc` adds to one counter of each
thread's time and clears those below it, where every move is allowed and the count table has room. -/
def Sys2Proof.Claim.TimeMoves : Prop :=
  (∀ a b s x, Sys2Proof.Claim.StageReady s x a b →
    Sys2Proof.Claim.MovesFit s x (fun _ _ => ((x.cr.readU b).setWidth 4, x.cr.readUD a)) →
    ∃ t, Sys2Proof.Machine.exec (.ltset a b) s = .next t ∧
      Sys2Proof.Claim.Moved s t x (Sys2Proof.Machine.uSize a b) (fun _ _ => ((x.cr.readU b).setWidth 4, x.cr.readUD a))) ∧
  (∀ a b s x, Sys2Proof.Claim.ElectReady s x .zero → Sys2Proof.Machine.uSrcOk 1 a = true → Sys2Proof.Machine.uSrcOk 1 b = true →
    let k := (x.cr.readU a).toNat
    let n := (x.cr.readU b).toNat
    let go := fun (g : BitVec 4) (t : Sys2Proof.DWord) => (g, (Sys2Proof.Claim.addTime t k n).getD t)
    k ≤ 3 → n ≤ 0xFFFF → (∀ l ∈ x.run.lanes, (Sys2Proof.Claim.addTime (s.thread x.c l).time k n).isSome = true) →
    Sys2Proof.Claim.MovesFit s x go →
    ∃ t, Sys2Proof.Machine.exec (.ltinc a b) s = .next t ∧ Sys2Proof.Claim.Moved s t x (Sys2Proof.Machine.uSize a b) go) ∧
  (∀ a b s x, Sys2Proof.Claim.ElectReady s x .zero → Sys2Proof.Machine.uSrcOk 1 a = true → Sys2Proof.Machine.uSrcOk 1 b = true →
    (3 < (x.cr.readU a).toNat ∨ 0xFFFF < (x.cr.readU b).toNat) →
    ∃ t, Sys2Proof.Machine.exec (.ltinc a b) s = .next t ∧ Sys2Proof.Claim.RunParked s t x .illegalOperand 0#64)

/-- R237, R239: `ltcap` counts one more program capability of the squad at a stage and time, in an entry of the core's table; `ltdrop`
counts one less, and notes the drop of the entry that counts the last one taken (log 71), until which the clause's SETB flag counts the word. -/
def Sys2Proof.Claim.ProgramCapabilities : Prop :=
  (∀ a b s x, Sys2Proof.Claim.StageReady s x a b →
    let g := (x.cr.readU b).setWidth 4
    let u := x.cr.readUD a
    let q := x.cr.squad
    s.incOk (s.coreOf x.c) (s.launchIdOf x.c) (s.thread x.c x.lowest).stage (s.thread x.c x.lowest).time g u = true →
    Sys2Proof.Claim.progCount s q g u < 0xFFFF → ((s.squad q).progCap g u = none → (s.squad q).progCaps.length < 16) →
    s.ctRoom (s.coreOf x.c) (s.launchIdOf x.c) g u = true →
    ∃ t, Sys2Proof.Machine.exec (.ltcap a b) s = .next t ∧ t.mem = s.mem ∧ t.crews = (s.crews.set x.c (t.crew x.c)) ∧
      (t.crew x.c).run = Sys2Proof.Claim.runPast x (Sys2Proof.Machine.uSize a b) ∧
      Sys2Proof.Claim.progCount t q g u = Sys2Proof.Claim.progCount s q g u + 1) ∧
  (∀ a b s x k, Sys2Proof.Claim.StageReady s x a b →
    let g := (x.cr.readU b).setWidth 4
    let u := x.cr.readUD a
    let q := x.cr.squad
    (s.squad q).progCap g u = some k → k.count ≠ 0 → (∀ d ∈ s.drops, d.id < s.nextId) →
    ∃ t, Sys2Proof.Machine.exec (.ltdrop a b) s = .next t ∧ t.mem = s.mem ∧
      (t.crew x.c).run = Sys2Proof.Claim.runPast x (Sys2Proof.Machine.uSize a b) ∧
      (∃ d, t.drops = s.drops ++ [d] ∧ d.core = s.coreOf x.c ∧ d.entry = k.entries.headD 0 ∧ d.squad = q ∧ d.writes = s.mem.seq ∧
        s.nextId ≤ d.before ∧ d.op = x.setb.map (fun _ => s.nextId)) ∧
      (∀ l ∈ x.run.lanes, ∀ f, (t.thread x.c l).flags.get f =
        (s.thread x.c l).flags.get f + (if x.setb = some f then 1#4 else 0#4)) ∧
      ((∀ y ∈ (s.squad q).progCaps, y.stage = g → y.time = u → y = k) →
        Sys2Proof.Claim.progCount t q g u = k.count - 1))

/-- R228, R240, R242, R287: `ftwait` passes at once where its core's frontier is past the time, and otherwise counts a wait in its flag, but with
sixteen waits outstanding it stalls, whatever its frontier (R287); `ltsum` by a crew that R42 allows answers 2 for no such launch, 1 for a summary that may not be set, and
sets it otherwise; by another it raises PROTECTION.
That `ltsum` answers 2 where both refusals apply is this model's choice (log 74). -/
def Obligations.FrontierWords : Prop :=
  (∀ flag a b s x, Sys2Proof.Claim.RunsFit s → s.issuer = some x → flag.toNat < 12 → Sys2Proof.Machine.uSrcOk 1 a = true →
    Sys2Proof.Machine.uSrcOk 2 b = true → (x.cr.readU a).toNat < 16 →
    (s.launchOf x.c).declares ((x.cr.readU a).setWidth 4) = true → Sys2Proof.Claim.FlagRoom s x (some flag.toNat) →
    let u := x.cr.readUD b
    let past := match s.front (s.coreOf x.c) (s.launchIdOf x.c) ((x.cr.readU a).setWidth 4) with
      | none => true
      | some f => decide (u.toNat < f.toNat)
    (x.cr.waits.length < 16 → past = true → Sys2Proof.Claim.Passes (.ftwait flag a b) s x (Sys2Proof.Machine.uSize a b)) ∧
    (16 ≤ x.cr.waits.length → ∃ t, Sys2Proof.Machine.exec (.ftwait flag a b) s = .next t ∧
      Sys2Proof.Claim.RunStalled s t x .waitsFull) ∧
    (past = false → x.cr.waits.length < 16 → ∃ t, Sys2Proof.Machine.exec (.ftwait flag a b) s = .next t ∧ t = { s with crews := t.crews } ∧
      (t.crew x.c).run = Sys2Proof.Claim.runPast x (Sys2Proof.Machine.uSize a b) ∧
      (t.crew x.c).waits = x.cr.waits ++ [{ stage := (x.cr.readU a).toNat, time := u, flag := flag.toNat, lanes := x.run.lanes }] ∧
      ∀ l ∈ x.run.lanes, (t.thread x.c l).flags.get flag.toNat = (s.thread x.c l).flags.get flag.toNat + 1#4)) ∧
  (∀ (d : Fin 160) a b s x, Sys2Proof.Claim.ElectReady s x (.s d) → Sys2Proof.Machine.uSrcOk 1 a = true →
    Sys2Proof.Machine.uSrcOk 1 b = true →
    let v := (x.cr.readU a).toNat
    let w := x.cr.readU b
    (s.systemAllowed x.c = false → ∃ t, Sys2Proof.Machine.exec (.ltsum (.s d) a b) s = .next t ∧
      Sys2Proof.Claim.RunParked s t x .protection 0#64) ∧
    (s.systemAllowed x.c = true → v / 2 ^ 8 % 2 ^ 8 = 0 → w.toNat / 2 ^ 18 % 2 ^ 13 = 0 →
      let m := BitVec.ofNat 4 (v / 2 ^ 4 % 2 ^ 4)
      let n := BitVec.ofNat 4 (v % 2 ^ 4)
      let at_ := s.byHandle (s.partOfCore (s.coreOf x.c)) (BitVec.ofNat 16 (v / 2 ^ 16))
      let st := match at_ with
        | none => 2
        | some k => (s.launch k).sumStatus m n w
      ∃ t, Sys2Proof.Machine.exec (.ltsum (.s d) a b) s = .next t ∧
        Sys2Proof.Claim.UniformRun (Sys2Proof.Claim.statusBase { s with launches := t.launches } x (.s d)) t x
          (Sys2Proof.Machine.uSize a b) (.s d) [BitVec.ofNat 32 st] ∧
        ∀ k, (t.launch k).sums = if at_ = some k ∧ st = 0 then (s.launch k).sums.put (16 * m.toNat + n.toNat) w else (s.launch k).sums))

namespace Sys2Proof.Claim

open Sys2Proof.Machine

/-! ### System words (R42, R292-R294) -/

/-- The system words that pass at a crew that R42 allows, and whether their operands are those that they take. -/
inductive SystemWord (x : Issuer) : Instr → UOp → Nat → Bool → Bool → Prop
  | replay (d) : SystemWord x (.rplyReplayAll d) d 1 true true
  | endEntry (d a) : SystemWord x (.rplyEndEntry d a) d (1 + a.lits.length) (uSrcOk 1 a) (decide ((x.cr.readU a).toNat < 8))
  | tlbi (d b) (r : Fin 160) : r.val % 2 = 0 → SystemWord x (.tlbi d (.s r) b) d (1 + b.lits.length) (uSrcOk 1 b)
      (decide ((x.cr.readU b).toNat < 2 ^ 18 ∧ (x.cr.readU b).toNat / 2 ^ 16 ≠ 3))
  | ctxs (d b) (r : Fin 160) : r.val % 2 = 0 → SystemWord x (.ctxs d (.s r) b) d (1 + b.lits.length) (uSrcOk 1 b)
      (decide ((x.cr.readU b).toNat ≤ 2))
  | flt (d a b) : SystemWord x (.flt d a b) d (uSize a b) (uSrcOk 1 a && uSrcOk 1 b)
      (decide (((x.cr.readU a).toNat < 8 ∧ (x.cr.readU b).toNat < 8) ∨ ((x.cr.readU a).toNat = 8 ∧ (x.cr.readU b).toNat = 0)))

/-- A status destination. -/
def statusDst (d : UOp) : Prop := d = .zero ∨ ∃ r, d = .s r

end Sys2Proof.Claim

/-- R42, R292-R295: a system word by a crew that is neither in a fault-service slot nor of a SYS launch raises PROTECTION, after its operands
are checked and before their values are; a value that it does not take raises ILLEGAL_OPERAND. -/
def Sys2Proof.Claim.SystemWordsAreGuarded : Prop :=
  ∀ i d n ok value s x, Sys2Proof.Claim.SystemWord x i d n ok value → Sys2Proof.Claim.RunsFit s → s.issuer = some x →
    Sys2Proof.Claim.statusDst d →
    (ok = false → ∃ t, Sys2Proof.Machine.exec i s = .next t ∧ Sys2Proof.Claim.RunParked s t x .illegalOperand 0#64) ∧
    (ok = true → s.systemAllowed x.c = false → ∃ t, Sys2Proof.Machine.exec i s = .next t ∧
      Sys2Proof.Claim.RunParked s t x .protection 0#64) ∧
    (ok = true → s.systemAllowed x.c = true → value = false → ∃ t, Sys2Proof.Machine.exec i s = .next t ∧
      Sys2Proof.Claim.RunParked s t x .illegalOperand 0#64)

/-- R277, R278, R292-R295: `flt` reads a word of an entry of the cluster's fault buffer, or its status word; replay-all answers with what
the buffer held and raises its generation; the end of an entry empties it, kills the threads whose held access lies in its space and region, and
ends the engine jobs held there; `tlbi` holds its run until the translations are gone;
`ctxs` pins or unpins the squad whose image it names, and answers with its state. -/
def Sys2Proof.Claim.SystemWordsAct : Prop :=
  ∀ d s x, Sys2Proof.Claim.RunsFit s → s.issuer = some x → Sys2Proof.Claim.statusDst d → s.systemAllowed x.c = true →
    let cl := s.coreOf x.c / 12
    let valid := ((List.range 8).filter (fun i => ((s.cluster cl).faults.getD i none).isSome))
    (∀ a b, Sys2Proof.Machine.uSrcOk 1 a = true → Sys2Proof.Machine.uSrcOk 1 b = true →
      ((x.cr.readU a).toNat < 8 ∧ (x.cr.readU b).toNat < 8 → ∃ t, Sys2Proof.Machine.exec (.flt d a b) s = .next t ∧
        Sys2Proof.Claim.UniformRun (Sys2Proof.Claim.overtakenBy s x d 1) t x (Sys2Proof.Machine.uSize a b) d
          [match (s.cluster cl).faults.getD (x.cr.readU a).toNat none with
            | none => 0#32
            | some e => e.words.getD (x.cr.readU b).toNat 0#32]) ∧
      ((x.cr.readU a).toNat = 8 → (x.cr.readU b).toNat = 0 → ∃ t, Sys2Proof.Machine.exec (.flt d a b) s = .next t ∧
        Sys2Proof.Claim.UniformRun (Sys2Proof.Claim.overtakenBy s x d 1) t x (Sys2Proof.Machine.uSize a b) d
          [(s.cluster cl).status])) ∧
    (∃ t, Sys2Proof.Machine.exec (.rplyReplayAll d) s = .next t ∧ (t.cluster cl).gen = (s.cluster cl).gen + 1#8 ∧
      (∀ r, d = .s r → (t.crew x.c).s.get r.val =
        BitVec.ofNat 32 (2 ^ 31 + (if (s.cluster cl).dropped then 2 ^ 8 else 0) + (valid.map (2 ^ ·)).sum))) ∧
    (∀ a, Sys2Proof.Machine.uSrcOk 1 a = true → (x.cr.readU a).toNat < 8 → ∃ t, Sys2Proof.Machine.exec (.rplyEndEntry d a) s = .next t ∧
      ((t.cluster cl).faults.getD (x.cr.readU a).toNat none) = none ∧
      ((s.cluster cl).faults.getD (x.cr.readU a).toNat none = none →
        Sys2Proof.Claim.UniformRun (Sys2Proof.Claim.overtakenBy s x d 1) t x (1 + a.lits.length) d [0x80000000#32])) ∧
    (∀ a e, Sys2Proof.Machine.uSrcOk 1 a = true → (x.cr.readU a).toNat < 8 →
      (s.cluster cl).faults.getD (x.cr.readU a).toNat none = some e →
      let there (space : Nat) (v : Sys2Proof.DWord) : Prop := space = e.space ∧ v.toNat / 65536 = e.addr.toNat / 65536
      ∃ t, Sys2Proof.Machine.exec (.rplyEndEntry d a) s = .next t ∧
        ((t.cluster cl).faults.getD (x.cr.readU a).toNat none) = none ∧
        (∀ r, d = .s r → (t.crew x.c).s.get r.val = BitVec.ofNat 32 (2 ^ 31 + 2 ^ (x.cr.readU a).toNat)) ∧
        (∀ c l h, (c, s.crew c) ∈ s.crews → s.coreOf c / 12 = cl → l < (s.crew c).threads.length → (s.thread c l).held = some h →
          there (s.spaceOf c) h.addr → (t.thread c l).st = .exited) ∧
        ∀ j ∈ s.jobs, ∀ f, j.fault = some f → j.core / 12 = cl → there (s.spaceOfSquad j.squad) f.1 →
          ∃ k ∈ t.jobs, k.id = j.id ∧ k.ended = true) ∧
    (∀ b (r : Fin 160), Sys2Proof.Machine.uSrcOk 1 b = true → r.val % 2 = 0 → (x.cr.readU b).toNat < 2 ^ 18 →
      (x.cr.readU b).toNat / 2 ^ 16 ≠ 3 → ∃ t, Sys2Proof.Machine.exec (.tlbi d (.s r) b) s = .next t ∧
        Sys2Proof.Claim.RunStalled s t x (.tlbi (Sys2Proof.Word.pair (x.cr.s.get r.val) (x.cr.s.get (r.val + 1))).toNat
          ((x.cr.readU b).toNat % 2 ^ 16) ((x.cr.readU b).toNat / 2 ^ 16) d.reg? (1 + b.lits.length)
          (decide (x.run.idx + (1 + b.lits.length) = x.run.words.length)))) ∧
    (∀ b (r : Fin 160), Sys2Proof.Machine.uSrcOk 1 b = true → r.val % 2 = 0 → (x.cr.readU b).toNat ≤ 2 →
      ∃ t, Sys2Proof.Machine.exec (.ctxs d (.s r) b) s = .next t ∧ t.mem = s.mem ∧
        match s.squadAt (s.partOfCore (s.coreOf x.c)) (Sys2Proof.Word.pair (x.cr.s.get r.val) (x.cr.s.get (r.val + 1))) with
        | none => Sys2Proof.Claim.UniformRun (Sys2Proof.Claim.overtakenBy s x d 1) t x (1 + b.lits.length) d [0xC0000000#32]
        | some q =>
          (t.squad q).pinned = (if (x.cr.readU b).toNat = 0 then true else if (x.cr.readU b).toNat = 1 then false
            else (s.squad q).pinned) ∧
          ∀ n, d = .s n → (t.crew x.c).s.get n.val = (t.squad q).stateWord)

namespace Sys2Proof.Claim

open Sys2Proof.Machine

/-! ### Events of the scheduler (R14, R15, R54-R60, R281) -/

/-- The event's effect: an instruction of the part's own answers a next state, of which this holds. -/
def Gives (i : Instr) (s : State) (p : State → Prop) : Prop := ∃ t, exec i s = .next t ∧ p t

/-- The ready threads among which a selection looks for the lowest PC: the promoted ones if there are any, else those without a yield mark if there are
any, else all (R55, R57). -/
def candidates (s : State) (c : Nat) : List Nat :=
  let ready := s.readyLanes c
  let promoted := ready.filter (fun l => (s.thread c l).promoted && decide (1024 ≤ (s.thread c l).starve))
  let plain := ready.filter (fun l => !(s.thread c l).yieldMark)
  if promoted ≠ [] then promoted else if plain ≠ [] then plain else ready

/-- The run that a selection forms: the ready threads at the lowest PC of a candidate, which stand, as the lowest of them does, at a header or at a
word of one clause. -/
def NextRun (s : State) (c : Nat) (pc : DWord) (run : List Nat) : Prop :=
  (∃ l ∈ candidates s c, (s.thread c l).pc = pc) ∧ (∀ l ∈ candidates s c, pc.toNat ≤ (s.thread c l).pc.toNat) ∧
  let here := (s.readyLanes c).filter (fun l => (s.thread c l).pc = pc)
  let t := s.thread c (here.headD 0)
  run = here.filter (fun l => decide ((s.thread c l).mid = t.mid ∧ (t.mid = true → (s.thread c l).clhdr = t.clhdr)))

/-- A run is held at the header where it stands (R58): none of its threads has been held there before, and a hold runs at that header, or none runs,
its J is set, and some thread of the crew that is neither exited nor parked stands below it. -/
def HeldAtJoin (s : State) (c : Nat) (pc : DWord) (run : List Nat) : Prop :=
  (s.thread c (run.headD 0)).mid = false ∧ (∀ l ∈ run, (s.thread c l).joined = false) ∧
  match (s.crew c).hold with
  | some (h, _) => h = pc
  | none => (∃ h, s.peekHeader c pc = some h ∧ h.getLsbD 6 = true) ∧
      ∃ k ∈ (s.crew c).threads, k.st ≠ .exited ∧ k.st ≠ .parked ∧ k.pc.toNat < pc.toNat

/-- A thread that enters a clause (R15, R30). -/
def entered (hdr : DWord) (w : List Nat) (t : Thread) : Thread :=
  { t with q0 := 0#32, q1 := 0#32, wrote := w, mid := true, clhdr := hdr, pc := hdr + 4#64, arrival := .fall }

/-- A header without a fault of its own: no reserved bit, and flag codes below 12 or 15 (R15). -/
def HeaderFit (h : Word) : Prop :=
  h.toNat % 2 ^ 5 = 0 ∧ (h.toNat / 2 ^ 12 % 16 < 12 ∨ h.toNat / 2 ^ 12 % 16 = 15) ∧ (h.toNat / 2 ^ 8 % 16 < 12 ∨ h.toNat / 2 ^ 8 % 16 = 15)

/-- The lanes of a run that come to a header whose E they test (R15). -/
def testingE (s : State) (c : Nat) (r : Run) : List Nat := r.lanes.filter (fun l => (s.thread c l).arrival = .entry)

/-- A run whose clause is to be fetched, with the crew on its core. -/
def Fetches (s : State) (c : Nat) (r : Run) : Prop :=
  RunsFit s ∧ (s.crew c).run = some r ∧ r.hword = none ∧ (s.crew c).resident = true

end Sys2Proof.Claim

/-- R14, R15, R30, R54, R55, R57, R58, R60, R274, R281, R282: a selection forms the run of the ready threads at the lowest PC of its candidates, promoted ones
before all others and those with a yield mark last, and orders the fetch of its clause, or holds the run at a join; where no thread is ready it forms
none. The fetch gives the run its words: a run inside its clause goes on at its word, one at a header enters with `q0` and `q1` zero, but a faulty header
traps all of it, a clear E those that test it, a clause that may not be fetched or is not mapped all of it, and a trap vector without E kills. A thread
that was ready outside the run while its crew issued 1,024 words is promoted; a join hold ends; a nap ends; a lane that backed off for a permit goes
on.
Which event is due, and in which order, is free (log 2), and that a word at which its whole run stalls spends its pipe's cycle is log 72; that a clause is fetched in a step of its own is this model's choice (log 1). -/
def Obligations.SchedulerEvents : Prop :=
  (∀ c s pc run, s.selectable c = true → (∀ k ∈ (s.crew c).threads, k.deferred = []) → Sys2Proof.Claim.NextRun s c pc run →
    let first := s.thread c (run.headD 0)
    let cleared (k : Sys2Proof.Machine.Thread) : Sys2Proof.Machine.Thread := { k with yieldMark := false }
    (¬ Sys2Proof.Claim.HeldAtJoin s c pc run →
      Sys2Proof.Claim.Gives (.selection c) s (fun t => t = { s with crews := t.crews, agenda := s.agenda ++ [.clauseFetchDone c] } ∧
        (∀ e, e ≠ c → t.crew e = s.crew e) ∧
        (t.crew c) = { s.crew c with
          tried := true, threads := (t.crew c).threads
          run := some {
            lanes := run, hdr := if first.mid then first.clhdr else pc, hword := none, words := []
            idx := if first.mid then (pc - first.clhdr).toNat / 4 - 1 else 0 } } ∧
        ∀ l, l < (s.crew c).threads.length → t.thread c l = if l ∈ run then
          { cleared (s.thread c l) with stall := none, joined := false, promoted := false } else cleared (s.thread c l))) ∧
    (Sys2Proof.Claim.HeldAtJoin s c pc run →
      Sys2Proof.Claim.Gives (.selection c) s (fun t => t = { s with crews := t.crews } ∧ (∀ e, e ≠ c → t.crew e = s.crew e) ∧
        (t.crew c) = { s.crew c with
          tried := true, threads := (t.crew c).threads
          hold := match (s.crew c).hold with
            | some k => some k
            | none => some (pc, 64) } ∧
        ∀ l, l < (s.crew c).threads.length → t.thread c l = if l ∈ run then
          { cleared (s.thread c l) with st := .heldAtJoin, starve := 0 } else cleared (s.thread c l)))) ∧
  (∀ c s, s.selectable c = true → (∀ k ∈ (s.crew c).threads, k.deferred = []) → s.readyLanes c = [] →
    Sys2Proof.Claim.Gives (.selection c) s (fun t => t = s.setCrew c { s.crew c with tried := true })) ∧
  (∀ c s r h ws s2, Sys2Proof.Claim.Fetches s c r → s.fetchClause (s.coreOf c) (s.spaceOf c) r.hdr = (.ok (h, ws), s2) →
    ((s.thread c (r.lanes.headD 0)).mid = true →
      Sys2Proof.Claim.Gives (.clauseFetchDone c) s (fun t =>
        t = s2.setCrew c { s.crew c with run := some { r with hword := some h, words := ws } })) ∧
    ((∀ l ∈ r.lanes, (s.thread c l).mid = false) → (h.getLsbD 5 = true ∨ ∀ l ∈ r.lanes, (s.thread c l).arrival ≠ .vector) →
      let bad := if h.getLsbD 5 then [] else Sys2Proof.Claim.testingE s c r
      let rest := r.lanes.filter (fun l => !bad.contains l)
      Sys2Proof.Claim.Gives (.clauseFetchDone c) s (fun t => t = { s2 with crews := t.crews } ∧ (∀ e, e ≠ c → t.crew e = s.crew e) ∧
        (Sys2Proof.Claim.HeaderFit h →
          (t.crew c).run = (if rest = [] then none else some { r with lanes := rest, hword := some h, words := ws }) ∧
          ∀ l, t.thread c l =
            if l ∈ bad then Sys2Proof.Claim.parkedWith s .illegalOp 0#64 (s.thread c l)
            else if l ∈ r.lanes then Sys2Proof.Claim.entered r.hdr (t.thread c l).wrote (s.thread c l) else s.thread c l) ∧
        (¬ Sys2Proof.Claim.HeaderFit h → (t.crew c).run = none ∧
          ∀ l, t.thread c l = if l ∈ r.lanes then Sys2Proof.Claim.parkedWith s .illegalOp 0#64 (s.thread c l) else s.thread c l))) ∧
    (∀ l, r.lanes = [l] → (s.thread c l).mid = false → (s.thread c l).arrival = .vector → h.getLsbD 5 = false →
      Sys2Proof.Claim.Gives (.clauseFetchDone c) s (fun t => (t.thread c l).st = .exited))) ∧
  (∀ c s r va s2, Sys2Proof.Claim.Fetches s c r →
    (s.fetchClause (s.coreOf c) (s.spaceOf c) r.hdr = (.error (.denied, va), s2) →
      Sys2Proof.Claim.Gives (.clauseFetchDone c) s (fun t => t = { s2 with crews := t.crews } ∧ (t.crew c).run = none ∧
        ∀ l ∈ r.lanes, t.thread c l = Sys2Proof.Claim.parkedWith s .protection (BitVec.ofNat 64 va) (s.thread c l))) ∧
    ∀ l, r.lanes = [l] → s.fetchClause (s.coreOf c) (s.spaceOf c) r.hdr = (.error (.unmapped, va), s2) →
      Sys2Proof.Claim.Gives (.clauseFetchDone c) s (fun t => (t.crew c).run = none ∧
        if (s.core (s.coreOf c)).permits = 0 then (t.thread c l).stall = some .permit
        else (t.thread c l).st = .parked ∧ (t.thread c l).pc = (s.thread c l).pc ∧
          (t.thread c l).parked.map (fun p => (p.cause, p.addr)) = some (.pageFault, BitVec.ofNat 64 va) ∧
          (t.thread c l).held = some { op := none, fetch := true, write := false, addr := BitVec.ofNat 64 va
                                       after := (s.thread c l).pc, mid := (s.thread c l).mid })) ∧
  (∀ c l s, 1024 ≤ (s.thread c l).starve → l < (s.crew c).threads.length → Sys2Proof.Claim.Gives (.starvationPromotion c l) s (fun t =>
    t = { s with crews := t.crews } ∧ (t.thread c l).promoted = true)) ∧
  (∀ c s hdr n, (s.crew c).hold = some (hdr, n) → (s.crew c).resident = true →
    (n = 0 ∨ ∀ k ∈ (s.crew c).threads, k.st = .exited ∨ k.st = .parked ∨ hdr.toNat ≤ k.pc.toNat) →
    Sys2Proof.Claim.Gives (.joinHoldEnd c) s (fun t => t = { s with crews := t.crews } ∧ (t.crew c).hold = none ∧
      ∀ k ∈ (t.crew c).threads, k.st ≠ .heldAtJoin)) ∧
  (∀ c l s, (s.thread c l).st = .napping → (s.thread c l).nap = 0 → (s.crew c).resident = true → l < (s.crew c).threads.length →
    Sys2Proof.Claim.Gives (.napExpiry c l) s (fun t => t = { s with crews := t.crews } ∧
      t.thread c l = { s.thread c l with st := .running })) ∧
  (∀ c l s, (s.thread c l).stall = some .permit → (s.thread c l).backoff = 0 → l < (s.crew c).threads.length →
    Sys2Proof.Claim.Gives (.permitBackoffExpiry c l) s (fun t => t = { s with crews := t.crews } ∧
      t.thread c l = { s.thread c l with stall := none }))

namespace Sys2Proof.Claim

open Sys2Proof.Machine

/-! ### Accesses that are performed (R17, R121-R139, R143-R147) -/

/-- An outstanding operation that no earlier one of its threads, nor one of a lower lane of its issue, stands before (R17, R122, R132,
R134-R138); none of its threads has a peek that has read its entry or that writes a register of the operation. -/
def MayGo (s : State) (op : Op) : Prop :=
  s.opAt op.id = some op ∧ (∀ e ∈ s.ops, e.before op = false) ∧
  ∀ l ∈ op.lanes, ∀ k ∈ (s.thread op.crew l).peeks, k.value = none ∧ Dest.clash 4 op.width (.lane k.d) op.dest = false

/-- The lines of a crew's slices that an access touches stand in the slice SRAM (R114). -/
def SliceHere (s : State) (op : Op) : Prop :=
  ∀ k, 4 * k < op.addr + op.width → op.addr < 4 * k + 4 → k ∈ (s.crew op.crew).sliceIn

/-- What an atomic leaves at its location, by operation code (R24): of the old value and of its operands, in as many bytes as it is wide;
nothing where a compare-and-swap fails. -/
def atomicLeaves (code w old x y : Nat) : Option Nat :=
  let m := 256 ^ w
  let signed (v : Nat) : Int := if v < m / 2 then v else (v : Int) - m
  match code with
  | 0 => some ((old + x) % m)
  | 1 => some (if signed old ≤ signed x then old else x)
  | 2 => some (if signed x ≤ signed old then old else x)
  | 3 => some (min old x)
  | 4 => some (max old x)
  | 5 => some (old &&& x)
  | 6 => some (old ||| x)
  | 7 => some (old ^^^ x)
  | 8 => some x
  | 9 => if old = x then some y else none
  | _ => some (f32AddQuiet (BitVec.ofNat 32 old) (BitVec.ofNat 32 x)).toNat

/-- The same for an operation, from the bytes that stand at its location. -/
def leaves (op : Op) (code : Nat) (old : List Byte) : Option (List Byte) :=
  (atomicLeaves code op.width (natOfBytes old) (natOfBytes (op.data.take op.width))
    (natOfBytes ((op.data.drop op.width).take op.width))).map (bytesOfNat op.width)

/-- The bytes of an access of global memory: those at its physical address, and of a record that goes on in another page the rest there (R262). -/
def piecesOf (op : Op) : List (Nat × Nat) :=
  match op.split with
  | none => [(op.pa, op.width)]
  | some (n, pb) => [(op.pa, n), (pb, op.width - n)]

/-- An atomic that may be performed: no write to its location is on its way to its own island's view, and its line is clean. -/
def AtomicFree (s : State) (op : Op) : Prop :=
  op.split = none ∧
  s.mem.pendingTo (s.islandOf op.crew) op.pa op.width = false ∧ s.mem.poisoned op.pa op.width = false

/-- The threads of an operation. -/
def threadsOf (op : Op) : List (Nat × Nat) := op.lanes.map (fun l => (op.crew, l))

/-- Global memory as an atomic leaves it: below device scope a write of its squad and thread from its island, at device or system scope one that every
view applies at once. -/
def afterAtomic (s : State) (op : Op) (code : Nat) (g : GMem) : GMem :=
  match leaves op code (s.mem.home.read op.pa op.width) with
  | none => g
  | some bs => if op.ord < 5 then g.write (s.islandOf op.crew) (cellsAt op.pa bs) (s.crew op.crew).squad op.id (threadsOf op)
      else g.writeAll (s.islandOf op.crew) (cellsAt op.pa bs)

/-- The operation has ended: it is no longer outstanding and its counts are removed. -/
def Ended (s t : State) (op : Op) : Prop :=
  t.ops = s.ops.filter (fun o => o.id != op.id) ∧
  ∀ f l, op.flag = some f → op.lanes = [l] → l < (s.crew op.crew).threads.length →
    (t.thread op.crew l).flags.get f = (s.thread op.crew l).flags.get f - 1#4

/-- A lane operation of one living thread with a destination register. -/
def OneLane (s : State) (op : Op) (l : Nat) (d : LOp) : Prop :=
  op.lanes = [l] ∧ op.dest = .lane d ∧ d.noPort = true ∧ l < (s.crew op.crew).threads.length ∧ (s.thread op.crew l).st ≠ .exited

/-- A lane's registers after words have landed in its destination. -/
def Landed (s t : State) (op : Op) (l : Nat) (d : LOp) (ws : List Word) : Prop :=
  ∀ y, isFile y = true → (t.thread op.crew l).readW l y = regAfter d ws (s.thread op.crew l) l y

/-- No store of the operation's own threads is outstanding. -/
def NoOwnStores (s : State) (op : Op) : Prop :=
  ∀ e ∈ s.ops, e.crew = op.crew → ((∃ l ∈ e.lanes, l ∈ op.lanes) ∨ op.lanes = []) →
    isGlobalStore e = false ∧ ∀ k, sameLocalStore k e = false

/-- A write on its way is applied in a view. -/
def AppliedAt (g : GMem) (i : Nat) (w : RemoteWrite) : Prop := w.src = i ∨ ∀ v ∈ g.pend, v.dst = i → v.order ≠ w.order

/-- A view shows the byte at an address as a write that is still on its way to another view left it: no write behind it on that way, and applied in
the view, has the byte. -/
def Shows (g : GMem) (i a : Nat) (w : RemoteWrite) : Prop :=
  w.dst < 4 ∧ ∃ before after, g.pend = before ++ w :: after ∧ (∃ x ∈ w.cells, x.1 = a) ∧ AppliedAt g i w ∧
    ∀ v ∈ after, v.dst = w.dst → (∃ x ∈ v.cells, x.1 = a) → ¬ AppliedAt g i v

/-- Global memory as a read of an operation leaves it: no byte differs, and its threads are noted at the writes, of those on their way, whose bytes they
have read in their island's view (R137, log 18). -/
def ReadNoted (s : State) (op : Op) (g : GMem) : Prop :=
  ∃ f : RemoteWrite → List (Nat × Nat), g = { s.mem with pend := s.mem.pend.map (fun w => { w with threads := f w }) } ∧
    ∀ w ∈ s.mem.pend,
      ((∃ v ∈ s.mem.pend, v.id = w.id ∧ ∃ a ∈ s.viewAddrs op, Shows s.mem (s.islandOf op.crew) a v) →
        ∀ k, k ∈ f w ↔ k ∈ w.threads ∨ ∃ l ∈ op.lanes, k = (op.crew, l)) ∧
      ((∀ v ∈ s.mem.pend, v.id = w.id → ∀ a ∈ s.viewAddrs op, ¬ Shows s.mem (s.islandOf op.crew) a v) → f w = w.threads)

/-- Little-endian words of bytes; a rest shorter than a word is zero-extended (R22). -/
def wordsLE : List Byte → List Word
  | a :: b :: c :: d :: t => (d ++ c ++ b ++ a).setWidth 32 :: wordsLE t
  | [a, b, c] => [(c ++ b ++ a).setWidth 32]
  | [a, b] => [(b ++ a).setWidth 32]
  | [a] => [a.setWidth 32]
  | [] => []

/-- What a copy or a fill within scratch has still to read and to write (R125, R126): at its start every word. -/
inductive WordsLeft (op : Op) : List (Nat × Nat) → List MoveWord → Prop
  | copy (src n) : op.kind = .scpy src n →
      WordsLeft op ((List.range (n / 4)).map (fun k => (src + 4 * k, op.addr + 4 * k))) []
  | fill (v n) : op.kind = .sfil v n →
      WordsLeft op [] ((List.range (n / 4)).map (fun k => { addr := op.addr + 4 * k, val := v, bad := false }))
  | rest (reads writes) : op.kind = .moves reads writes → WordsLeft op reads writes

/-- A word as a copy reads it, with its poison. -/
def readWord (q : Squad) (p : Nat × Nat) : MoveWord :=
  { addr := p.2, val := (wordsLE (q.scratch.read p.1 4)).headD 0#32, bad := decide (p.1 / 4 ∈ q.scratchPoison) }

end Sys2Proof.Claim

/-- R22, R121, R129, R133-R137, R142-R147: a load lands the bytes of its island's view, changing no byte of memory; a store below device scope
is applied in its own island's view, one at or above it in every view; a remote view applies a write that is due; an atomic, at any scope,
leaves at its location what its operation gives of the old value and returns the old value; a fence lets its threads go once nothing that it
waits for is left. That a write at device or system scope waits for its island's causal past and is one moment in all views (logs 10, 11, 47),
and which writes a fence waits for (log 18), are the model's choices where the spec leaves them open. -/
def Sys2Proof.Claim.GlobalAccessEvents : Prop :=
  (∀ s op acq l d, Sys2Proof.Claim.MayGo s op → op.kind = .load acq → Sys2Proof.Claim.OneLane s op l d →
    (∀ p ∈ Sys2Proof.Claim.piecesOf op, s.mem.poisoned p.1 p.2 = false) → Sys2Proof.Claim.NoOwnStores s op →
    Sys2Proof.Claim.Gives (.loadDataLands op.id) s (fun t => Sys2Proof.Claim.ReadNoted s op t.mem ∧ Sys2Proof.Claim.Ended s t op ∧
      Sys2Proof.Claim.Landed s t op l d (Sys2Proof.Claim.wordsLE
        ((Sys2Proof.Claim.piecesOf op).flatMap (fun p => (s.mem.view (s.islandOf op.crew)).read p.1 p.2))))) ∧
  (∀ s op rel, Sys2Proof.Claim.MayGo s op → op.kind = .store rel →
    (op.ord < 5 → Sys2Proof.Claim.Gives (.storeApplied op.id) s (fun t => Sys2Proof.Claim.Ended s t op ∧
      t.mem = s.mem.write (s.islandOf op.crew) (Sys2Proof.Machine.cellsAt op.pa op.data) (s.crew op.crew).squad op.id
        (Sys2Proof.Claim.threadsOf op))) ∧
    (5 ≤ op.ord → s.mem.canWriteAll (s.islandOf op.crew) = true →
      Sys2Proof.Claim.Gives (.storeApplied op.id) s (fun t => Sys2Proof.Claim.Ended s t op ∧
        t.mem = s.mem.writeAll (s.islandOf op.crew) (Sys2Proof.Machine.cellsAt op.pa op.data)))) ∧
  (∀ s w, s.mem.pend.find? (fun v => v.id == w.id) = some w → s.mem.applicable w = true →
    Sys2Proof.Claim.Gives (.writeApplyRemoteView w.id) s (fun t => t = { s with mem := s.mem.applyRemote w })) ∧
  (∀ s op code l d, Sys2Proof.Claim.MayGo s op → op.kind = .atomic code true → Sys2Proof.Claim.OneLane s op l d →
    Sys2Proof.Claim.AtomicFree s op → (5 ≤ op.ord → s.mem.canWriteAll (s.islandOf op.crew) = true) →
    Sys2Proof.Claim.Gives (.globalAtomicPerform op.id) s (fun t => Sys2Proof.Claim.Ended s t op ∧
      Sys2Proof.Claim.Landed s t op l d (Sys2Proof.Claim.wordsLE (s.mem.home.read op.pa op.width)) ∧
      ∃ g, Sys2Proof.Claim.ReadNoted s op g ∧ t.mem = Sys2Proof.Claim.afterAtomic s op code g)) ∧
  (∀ s op code, Sys2Proof.Claim.MayGo s op → op.kind = .atomic code false → op.dest = .none →
    Sys2Proof.Claim.AtomicFree s op → (5 ≤ op.ord → s.mem.canWriteAll (s.islandOf op.crew) = true) →
    Sys2Proof.Claim.Gives (.globalAtomicPerform op.id) s (fun t => Sys2Proof.Claim.Ended s t op ∧
      t.mem = Sys2Proof.Claim.afterAtomic s op code s.mem)) ∧
  (∀ s c scope kind before last l, (s.thread c l).stall = some (.fence scope kind before last) → l < 32 →
    (s.thread c l).st = .running → l < (s.crew c).threads.length →
    (∀ m, m ≠ l → (s.thread c m).stall = none) →
    s.fenceMet c [l] scope kind before = true →
    Sys2Proof.Claim.Gives (.fenceRelease c) s (fun t => t = { s with crews := t.crews } ∧
      t.thread c l = { s.thread c l with stall := none, pc := (s.thread c l).pc + 4#64, mid := !last }))

/-- R123-R126, R130: accesses of scratch and slices read and write the squad's and the thread's own bytes, and no byte of global memory: loads,
stores, atomics, fills and copies, a copy reading all its words before it writes one, and others seeing the words go one by one (which go at an
event is left free, log 2; that an `stp` with U set writes the slice of every thread of its run is the model's choice, log 50); a poisoned word stops the load, and the thread takes POISON at its next header. -/
def Sys2Proof.Claim.LocalAccessEvents : Prop :=
  (∀ s op l d, Sys2Proof.Claim.MayGo s op → Sys2Proof.Claim.OneLane s op l d → Sys2Proof.Claim.NoOwnStores s op →
    let q := s.squad (s.crew op.crew).squad
    (op.kind = .lds → (∀ w ∈ q.scratchPoison, op.addr + op.width ≤ 4 * w ∨ 4 * w + 4 ≤ op.addr) →
      Sys2Proof.Claim.Gives (.localAccessComplete op.id) s (fun t => t.mem = s.mem ∧ Sys2Proof.Claim.Ended s t op ∧
        Sys2Proof.Claim.Landed s t op l d (Sys2Proof.Claim.wordsLE (q.scratch.read op.addr op.width)))) ∧
    (op.kind = .lds → 0 < op.width → (∃ w ∈ q.scratchPoison, 4 * w < op.addr + op.width ∧ op.addr < 4 * w + 4) →
      Sys2Proof.Claim.Gives (.localAccessComplete op.id) s (fun t => t.mem = s.mem ∧ Sys2Proof.Claim.Ended s t op ∧
        (∀ y, Sys2Proof.Claim.isFile y = true → (t.thread op.crew l).readW l y = (s.thread op.crew l).readW l y) ∧
        (t.thread op.crew l).deferred = (s.thread op.crew l).deferred ++
          [{ cause := .poison, addr := BitVec.ofNat 64 op.addr, defer := true }])) ∧
    (op.kind = .ldp → 0 < op.width → Sys2Proof.Claim.SliceHere s op → (∀ w ∈ (s.thread op.crew l).slicePoison, op.addr + op.width ≤ 4 * w ∨ 4 * w + 4 ≤ op.addr) →
      Sys2Proof.Claim.Gives (.localAccessComplete op.id) s (fun t => t.mem = s.mem ∧ Sys2Proof.Claim.Ended s t op ∧
        Sys2Proof.Claim.Landed s t op l d (Sys2Proof.Claim.wordsLE ((s.thread op.crew l).slice.read op.addr op.width))))) ∧
  (∀ s op, Sys2Proof.Claim.MayGo s op → op.kind = .sts →
    Sys2Proof.Claim.Gives (.localAccessComplete op.id) s (fun t => t.mem = s.mem ∧ Sys2Proof.Claim.Ended s t op ∧
      ∀ q a, (t.squad q).scratch.get a = if q = (s.crew op.crew).squad ∧ op.addr ≤ a ∧ a < op.addr + op.data.length then
        op.data.getD (a - op.addr) 0#8 else (s.squad q).scratch.get a)) ∧
  (∀ s op, Sys2Proof.Claim.MayGo s op → op.kind = .stp → 0 < op.width → op.data.length = op.width → Sys2Proof.Claim.SliceHere s op →
    Sys2Proof.Claim.Gives (.localAccessComplete op.id) s (fun t => t.mem = s.mem ∧ Sys2Proof.Claim.Ended s t op ∧
      ∀ l a, l < (s.crew op.crew).threads.length → (t.thread op.crew l).slice.get a =
        if l ∈ op.lanes ∧ op.addr ≤ a ∧ a < op.addr + op.width then op.data.getD (a - op.addr) 0#8
        else (s.thread op.crew l).slice.get a)) ∧
  (∀ s op code l d, Sys2Proof.Claim.MayGo s op → op.kind = .ats code → Sys2Proof.Claim.OneLane s op l d → 0 < op.width →
    let q := s.squad (s.crew op.crew).squad
    (∀ w ∈ q.scratchPoison, op.addr + op.width ≤ 4 * w ∨ 4 * w + 4 ≤ op.addr) →
    Sys2Proof.Claim.Gives (.localAccessComplete op.id) s (fun t => t.mem = s.mem ∧ Sys2Proof.Claim.Ended s t op ∧
      Sys2Proof.Claim.Landed s t op l d (Sys2Proof.Claim.wordsLE (q.scratch.read op.addr op.width)) ∧
      ∀ a, (t.squad (s.crew op.crew).squad).scratch.get a =
        match Sys2Proof.Claim.leaves op code (q.scratch.read op.addr op.width) with
        | none => q.scratch.get a
        | some bs => if op.addr ≤ a ∧ a < op.addr + op.width then bs.getD (a - op.addr) 0#8 else q.scratch.get a)) ∧
  (∀ s op reads writes, Sys2Proof.Claim.MayGo s op → Sys2Proof.Claim.WordsLeft op reads writes →
    (∀ w ∈ writes, w.addr % 4 = 0) → writes.Pairwise (fun v w => v.addr ≠ w.addr) →
    let own := (s.crew op.crew).squad
    Sys2Proof.Claim.Gives (.localAccessComplete op.id) s (fun t => t.mem = s.mem ∧ ∃ now : Nat → Bool,
      let put := if reads = [] then writes.filter (fun w => now w.addr) else []
      let reads' := reads.filter (fun p => !now p.2)
      let writes' := if reads = [] then writes.filter (fun w => !now w.addr)
        else writes ++ (reads.filter (fun p => now p.2)).map (Sys2Proof.Claim.readWord (s.squad own))
      (if reads' = [] ∧ writes' = [] then Sys2Proof.Claim.Ended s t op
        else t.ops = s.ops.map (fun o => if o.id = op.id then { o with kind := .moves reads' writes' } else o)) ∧
      (∀ q a, (t.squad q).scratch.get a = match put.find? (fun w => decide (q = own ∧ w.addr ≤ a ∧ a < w.addr + 4)) with
        | some w => BitVec.ofNat 8 (w.val.toNat / 256 ^ (a - w.addr))
        | none => (s.squad q).scratch.get a) ∧
      ∀ w ∈ put, (w.addr / 4 ∈ (t.squad own).scratchPoison ↔ w.bad = true))) ∧
  (∀ s op (r : Nat), Sys2Proof.Claim.MayGo s op → Sys2Proof.Claim.NoOwnStores s op → op.dest = .uni [r] → r < 160 → op.width = 4 → op.split = none →
    (op.kind = .sldg → s.mem.poisoned op.pa op.width = false → Sys2Proof.Claim.Gives (.uniformLoadLands op.id) s (fun t =>
      Sys2Proof.Claim.ReadNoted s op t.mem ∧ Sys2Proof.Claim.Ended s t op ∧ ∀ k, (t.crew op.crew).s.get k =
        if k = r then ((Sys2Proof.Claim.wordsLE ((s.mem.view (s.islandOf op.crew)).read op.pa 4)).headD 0#32) else (s.crew op.crew).s.get k)) ∧
    (op.kind = .slds → (s.squad (s.crew op.crew).squad).scratchPoison = [] → Sys2Proof.Claim.Gives (.uniformLoadLands op.id) s (fun t =>
      t.mem = s.mem ∧ Sys2Proof.Claim.Ended s t op ∧ ∀ k, (t.crew op.crew).s.get k =
        if k = r then ((Sys2Proof.Claim.wordsLE ((s.squad (s.crew op.crew).squad).scratch.read op.addr 4)).headD 0#32)
        else (s.crew op.crew).s.get k)))

namespace Sys2Proof.Claim

open Sys2Proof.Machine

/-! ### Ports and elected operations that complete (R151-R160, R206, R226, R241, R252, R253) -/

/-- An elected operation that is outstanding, with the registers that its result goes to; no `ppk` of its threads holds a value back. -/
def Waiting (s : State) (op : Op) (kind : OpKind) (regs : List Nat) : Prop :=
  s.opAt op.id = some op ∧ op.kind = kind ∧ op.dest = .uni regs ∧ ∀ l ∈ op.lanes, ∀ k ∈ (s.thread op.crew l).peeks, k.value = none

/-- Between two states an elected operation has ended with a result: its words stand in its registers, those overtaken aside, and nothing
else of its crew's uniform registers has changed. -/
def Answers (s t : State) (op : Op) (regs : List Nat) (ws : List Word) : Prop :=
  Ended s t op ∧ t.mem = s.mem ∧
  (t.crew op.crew).s = ((regs.zip ws).filter (fun p => p.1 < 160)).foldl (fun r p => r.put p.1 p.2) (s.crew op.crew).s

/-- The sweeps of a table that `cclr` reclaims for a core and a launch (R249). -/
def reclaimed (s : State) (core launch : Nat) (t : CellTable) : List Nat :=
  (List.range t.sweeps.length).filter (fun i =>
    let w := t.sweeps.getD i {}
    w.st != .free && w.users == 0 && (match s.front core launch w.stage with
      | none => true
      | some f => decide (w.time.toNat < f.toNat)))

/-- What `cclr` answers of a table that it clears (R253). -/
def clearStatus (t : CellTable) (gone : List Nat) : Word :=
  let unbound := decide (gone ≠ []) && (List.range t.sweeps.length).all (fun i => gone.contains i || (t.sweeps.getD i {}).st == .free)
  BitVec.ofNat 32 (2 ^ 31 + (if unbound then 2 ^ 30 else 0) + 2 ^ 4 * (t.entries.filter (fun e => gone.contains e.sweep)).length + gone.length)

end Sys2Proof.Claim

/-- R151, R154, R156, R160, R314: an entry in flight, its turn come, lands at the tail of its queue where that has a place, of eight, and waits in flight
where it has none; a credit comes home up to eight, and a thread that has stood
at a port word for 2^24 cycles takes PORT_STALL with the port's number: it is parked with a permit, its record on its way to the list. -/
def Sys2Proof.Claim.PortEvents : Prop :=
  (∀ s f, s.flights.find? (fun g => g.id == f.id) = some f →
    s.flights.find? (fun g => g.crew == f.crew && g.lane == f.lane && g.port == f.port) = some f →
    (s.thread f.crew f.lane).st ≠ .exited → f.lane < (s.crew f.crew).threads.length → (s.thread f.crew f.lane).ports.length = 5 →
    ((s.thread f.crew f.lane).port f.port).peeks = [] →
    s.mayArrive f.id (s.coreOf f.fromCrew / 12) (s.coreOf f.crew / 12) = true →
    Sys2Proof.Claim.Gives (.portEntryLands f.id) s (fun t =>
      (((s.thread f.crew f.lane).port f.port).queue.length < 8 →
        t = { s with crews := t.crews, flights := s.flights.filter (fun g => g.id != f.id) } ∧
        ((t.thread f.crew f.lane).port f.port).queue = ((s.thread f.crew f.lane).port f.port).queue ++ [f.word]) ∧
      (8 ≤ ((s.thread f.crew f.lane).port f.port).queue.length → t = s))) ∧
  (∀ s f, s.credits.find? (fun g => g.id == f.id) = some f → f.lane < (s.crew f.crew).threads.length →
    (s.thread f.crew f.lane).ports.length = 5 →
    Sys2Proof.Claim.Gives (.portCreditReturn f.id) s (fun t =>
      t = { s with crews := t.crews, credits := s.credits.filter (fun g => g.id != f.id) } ∧
      ((t.thread f.crew f.lane).port f.port).credit = min 8 (((s.thread f.crew f.lane).port f.port).credit + f.count))) ∧
  (∀ s c l p, s.stallPort c l = some p → (s.crew c).resident = true → (s.thread c l).st = .running → 2 ^ 24 ≤ (s.thread c l).watchdog →
    l < (s.crew c).threads.length → 0 < (s.core (s.coreOf c)).permits →
    Sys2Proof.Claim.Gives (.portStall c l) s (fun t => (t.thread c l).st = .parked ∧ (t.thread c l).pc = (s.thread c l).pc ∧
      (t.thread c l).parked.map (fun k => (k.cause, k.addr)) = some (.portStall, BitVec.ofNat 64 p) ∧
      (t.core (s.coreOf c)).permits = (s.core (s.coreOf c)).permits - 1 ∧ t.mem = s.mem ∧
      ∃ e, t.listEntries = s.listEntries ++ [e] ∧ e.permit = some (c, l) ∧ e.record.cause = 0x12#6))

/-- R206, R226, R241, R245, R252, R253, R268: the operations that `bisx`, `cpyst`, `ftpoll`, `cfind` and `cclr` started end with their words
in their registers; a lookup counts as a user of its sweep until then, and the cell-table words wait their turn (log 53). -/
def Sys2Proof.Claim.ElectedResultsLand : Prop :=
  (∀ s op regs ra rb x y oa ob, Sys2Proof.Claim.Waiting s op (.bisx ra rb x y oa ob) regs →
    Sys2Proof.Claim.Gives (.bisxComplete op.id) s (fun t => Sys2Proof.Claim.Answers s t op regs
      (let n := fun (w : Sys2Proof.Word) => BitVec.ofNat 32 ((List.range 32).filter (fun k => w.getLsbD k)).length
       [x &&& y, n x + 256#32 * n y + 65536#32 * n (x &&& y), oa, ob, oa + n x, ob + n y]))) ∧
  (∀ s op regs, Sys2Proof.Claim.Waiting s op .cpyst regs →
    Sys2Proof.Claim.Gives (.cpystComplete op.id) s (fun t => ∀ core q, core = s.coreOf op.crew → q = (s.crew op.crew).squad →
      Sys2Proof.Claim.Answers s t op regs [BitVec.ofNat 32 ((if s.copyRights op.crew then 2 ^ 31 else 0) +
        2 ^ 16 * (s.jobs.filter (fun j => j.isCopy && j.core == core && j.squad == q)).length +
        2 ^ 8 * (s.jobs.filter (fun j => j.isCopy && j.core == core)).length)])) ∧
  (∀ s op regs g, g < 16 → Sys2Proof.Claim.Waiting s op (.ftpoll g) regs →
    Sys2Proof.Claim.Gives (.ftpollComplete op.id) s (fun t => Sys2Proof.Claim.Answers s t op regs
      (match s.front (s.coreOf op.crew) (s.launchIdOf op.crew) (BitVec.ofNat 4 g) with
        | none => [0xFFFFFFFF#32, 0xFFFFFFFF#32, BitVec.ofNat 32 (2 ^ 31 + g), 0#32]
        | some u => [u.setWidth 32, (u >>> 32).setWidth 32, BitVec.ofNat 32 g, 0#32]))) ∧
  (∀ s op regs n key time sweep, Sys2Proof.Claim.Waiting s op (.cfind n key time sweep) regs → s.tableReady op n = true →
    let t0 := (s.cluster (s.coreOf op.crew / 12)).tables.getD n {}
    Sys2Proof.Claim.Gives (.cfindComplete op.id) s (fun t =>
      (t0.bound ≠ some (s.launchIdOf op.crew) → Sys2Proof.Claim.Answers s t op regs [0#32, 0#32, 0#32, 0#32]) ∧
      (t0.bound = some (s.launchIdOf op.crew) → (∀ w ∈ t0.sweeps, w.st = .free ∨ w.time ≠ time) →
        Sys2Proof.Claim.Answers s t op regs [0#32, 0#32, 8#32, 0#32]) ∧
      (∀ i w e, t0.bound = some (s.launchIdOf op.crew) → t0.sweepAt time = some i → t0.sweeps[i]? = some w → w.st = .complete →
        t0.entries.find? (fun e => e.sweep == i && e.ix == (key.setWidth 20).toInt && e.iy == ((key >>> 20).setWidth 20).toInt &&
          e.iz == ((key >>> 40).setWidth 20).toInt) = some e →
        Sys2Proof.Claim.Answers s t op regs [BitVec.ofNat 32 e.start, BitVec.ofNat 32 e.count, 15#32, BitVec.ofNat 32 w.ccount]) ∧
      (∀ i w, sweep = some i → t0.sweeps[i]? = some w → n < (s.cluster (s.coreOf op.crew / 12)).tables.length →
        (((t.cluster (s.coreOf op.crew / 12)).tables.getD n {}).sweeps[i]?).map Sys2Proof.Machine.Sweep.users = some (w.users - 1)))) ∧
  (∀ s op regs n, Sys2Proof.Claim.Waiting s op (.cclr n) regs → s.tableReady op n = true →
    let t0 := (s.cluster (s.coreOf op.crew / 12)).tables.getD n {}
    Sys2Proof.Claim.Gives (.cclrComplete op.id) s (fun t =>
      (t0.bound ≠ some (s.launchIdOf op.crew) → Sys2Proof.Claim.Answers s t op regs [0x80000000#32]) ∧
      (t0.bound = some (s.launchIdOf op.crew) → Sys2Proof.Claim.Answers s t op regs
        [Sys2Proof.Claim.clearStatus t0 (Sys2Proof.Claim.reclaimed s (s.coreOf op.crew) (s.launchIdOf op.crew) t0)]) ∧
      (t0.bound = some (s.launchIdOf op.crew) → n < (s.cluster (s.coreOf op.crew / 12)).tables.length →
        ∀ i w, t0.sweeps[i]? = some w → w.st ≠ .free → w.users = 0 →
          Sys2Proof.Machine.frontPast (s.front (s.coreOf op.crew) (s.launchIdOf op.crew) w.stage) w.time = true →
          (((t.cluster (s.coreOf op.crew / 12)).tables.getD n {}).sweeps[i]?).map Sys2Proof.Machine.Sweep.st = some .free ∧
          ∀ e ∈ ((t.cluster (s.coreOf op.crew / 12)).tables.getD n {}).entries, e.sweep ≠ i)))

namespace Sys2Proof.Claim

open Sys2Proof.Machine

/-! ### Engine jobs (R140, R186-R202, R213-R224) -/

/-- The oldest matrix job of a core. -/
def HeadJob (s : State) (core : Nat) (j : Job) : Prop :=
  s.jobs.find? (fun k => k.matrix && k.core == core) = some j ∧ s.job j.id = some j

/-- A job that runs: started, and neither held nor ended by the fault service. -/
def Runs (j : Job) : Prop := j.started = true ∧ j.fault = none ∧ j.ended = false

/-- A job has ended without an error: it is no longer queued, its status stands in its register, its flag has been counted down, and its
capability is to be dropped (R187, R215, R231). -/
def JobDone (s t : State) (j : Job) (extra : Nat) : Prop :=
  t.jobs = s.jobs.filter (fun k => k.id != j.id) ∧
  (∀ r, j.sd = some r → (t.crew j.crew).s.get r = BitVec.ofNat 32 (2 ^ 31 + extra)) ∧
  (∀ f l, j.flag = some f → j.lanes = [l] → l < (s.crew j.crew).threads.length →
    (t.thread j.crew l).flags.get f = (s.thread j.crew l).flags.get f - 1#4) ∧
  ∃ d, t.drops = s.drops ++ [d] ∧ d.core = j.core ∧ d.entry = j.cap ∧ d.squad = j.squad

/-- A job of scratch reads no poison, and one of global memory none in these pages, when both are clean. -/
def Clean (s : State) (j : Job) : Prop := (s.squad j.squad).scratchPoison = [] ∧ s.mem.poison = []

/-- The memory of a job that touches only its squad's scratch. -/
def scratchMem (s : State) (j : Job) : JobMem := s.jobMem j.core j.squad []

/-- Where the words of a multicast for a receiver go, and which are left (R222): the squad in which they have begun to land, unless it has retired
since, or the one that is found now; nowhere where there is none. -/
def receiver (s : State) (j : Job) (k loff n : Nat) : Option (Nat × List MCell) :=
  match j.landingIn k with
  | some (p, left) => if (s.squad p).st = .retired then none else some (p, left)
  | none => (s.landing (s.squad j.squad).launch (s.squad j.squad).cluster k loff n).map (fun p => (p, j.cells))

/-- A row (or, from 4 on, a column) takes part: its bit of the predicate is set (R184). -/
def inPred (s : State) (core which k : Nat) : Bool := ((s.core core).engine.preds.getD which 0#64).getLsbD k

/-- The accumulator word of an element. -/
def accWord (s : State) (core tile m n : Nat) : Word := (s.core core).engine.acc.get (4096 * tile + 64 * m + n)

end Sys2Proof.Claim

/-- R140, R186, R187, R190, R194, R195, R197, R198, R199, R200, R213, R218, R219, R222, R251: the oldest matrix job of a core starts once
its issuers' accesses and the earlier jobs that it overlaps are done; `mzero` clears its tile; `mma` and `mmsp` with scratch tensors apply
their chunks in ascending K to the elements whose predicate bits are set, `mld` loads and `mst` stores a tile of a scratch tensor, `madd`
adds its terms, integer or FP32, in lane order, `mpred` sets its predicate; the engine is released when the squad's jobs are done; a copy
starts likewise, moves its bytes within scratch, from global memory to scratch and to global memory, or converts the elements of a scratch
tensor; a copy or a build that meets an unmapped page is held with its fault; words of a multicast land in the squad that took the first of them,
which words first the spec leaves open (log 2), and a receiver that is gone, or goes before the last, is dropped; a build whose lists are written ends.
That a job's effect is applied in one step is this model's choice (log 6); what COUNT 0 beyond an allotment does, and what a transform that ends early records, is log 70. That a NaN copied between tensors of one format, neither scaled, keeps its bits is log 73. -/
def Obligations.JobEvents : Prop :=
  (∀ s core j, Sys2Proof.Claim.HeadJob s core j → j.started = false → (s.core core).engine.holder = some j.squad → s.issuerDone j = true →
    s.jobBlocked j = false → Sys2Proof.Claim.Gives (.matrixJobStart core) s (fun t =>
      t.jobs = s.jobs.map (fun k => if k.id = j.id then { k with started := true } else k) ∧ t.crews = s.crews)) ∧
  (∀ s core j tile, Sys2Proof.Claim.HeadJob s core j → Sys2Proof.Claim.Runs j → j.kind = .mzero tile → j.errs = [] → j.done = 0 → j.core = core →
    Sys2Proof.Claim.Gives (.matrixJobComplete core) s (fun t => Sys2Proof.Claim.JobDone s t j 0 ∧
      (∀ m n, m < 64 → n < 64 → Sys2Proof.Claim.accWord t core tile m n = 0#32) ∧
      ∀ k m n, k ≠ tile → m < 64 → n < 64 → Sys2Proof.Claim.accWord t core k m n = Sys2Proof.Claim.accWord s core k m n)) ∧
  (∀ s core j tile int terms, Sys2Proof.Claim.HeadJob s core j → Sys2Proof.Claim.Runs j → j.kind = .madd tile int terms → j.errs = [] →
    j.done = 0 → j.core = core → Sys2Proof.Claim.Gives (.matrixJobComplete core) s (fun t => Sys2Proof.Claim.JobDone s t j 0 ∧
      ∀ m n, m < 64 → n < 64 → Sys2Proof.Claim.accWord t core tile m n =
        (terms.filter (fun p => p.1.toNat / 64 % 64 == m && p.1.toNat % 64 == n)).foldl
          (fun a p => if int then a + p.2 else Sys2Proof.Machine.f32AddQuiet a p.2) (Sys2Proof.Claim.accWord s core tile m n))) ∧
  (∀ s core j b ta tb tm k, Sys2Proof.Claim.HeadJob s core j → Sys2Proof.Claim.Runs j → j.kind = .mma b (some ta) (some tb) tm [] →
    j.errs = [] → j.done = 0 → j.core = core → Sys2Proof.Machine.mmaClass (Sys2Proof.Machine.bAfmt b) (Sys2Proof.Machine.bBfmt b) = some k →
    ta.glob = false → tb.glob = false → (∀ t, tm = some t → t.glob = false) → Sys2Proof.Claim.Clean s j →
    Sys2Proof.Machine.bKc b ≤ 4096 →
    Sys2Proof.Claim.Gives (.matrixJobComplete core) s (fun t => Sys2Proof.Claim.JobDone s t j (Sys2Proof.Machine.bKc b) ∧
      let mem := Sys2Proof.Claim.scratchMem s j
      let kAt := fun c i => Sys2Proof.Machine.blk b 5 0 32 + c * k.n + i
      let row := fun m c => (List.range k.n).map (fun i => mem.elem ta [kAt c i, Sys2Proof.Machine.blk b 4 0 32 + m])
      let col := fun n c => (List.range k.n).map (fun i => Sys2Proof.Machine.readB mem tb tm (kAt c i) (Sys2Proof.Machine.blk b 6 0 32 + n))
      ∀ tile m n, m < 64 → n < 64 → Sys2Proof.Claim.accWord t core tile m n =
        if tile = Sys2Proof.Machine.bAcc b ∧ Sys2Proof.Claim.inPred s core (Sys2Proof.Machine.blk b 0 14 2) m = true ∧
            Sys2Proof.Claim.inPred s core (4 + Sys2Proof.Machine.blk b 0 12 2) n = true then
          (List.range (Sys2Proof.Machine.bKc b)).foldl
            (fun a c => k.step (Sys2Proof.Machine.bAfmt b) (Sys2Proof.Machine.bBfmt b) a (row m c) (col n c))
            (if Sys2Proof.Machine.bClr b then 0#32 else Sys2Proof.Claim.accWord s core tile m n)
        else Sys2Proof.Claim.accWord s core tile m n)) ∧
  (∀ s core j b x, Sys2Proof.Claim.HeadJob s core j → Sys2Proof.Claim.Runs j → j.kind = .mld b x → j.errs = [] → j.done = 0 → j.core = core →
    x.glob = false → Sys2Proof.Claim.Clean s j →
    Sys2Proof.Claim.Gives (.matrixJobComplete core) s (fun t => Sys2Proof.Claim.JobDone s t j 0 ∧
      let mem := Sys2Proof.Claim.scratchMem s j
      let part := fun m n => Sys2Proof.Machine.blk b 0 14 1 = 0 ∨
        (Sys2Proof.Claim.inPred s core (Sys2Proof.Machine.blk b 0 10 2) m = true ∧
          Sys2Proof.Claim.inPred s core (4 + Sys2Proof.Machine.blk b 0 12 2) n = true)
      let x := Sys2Proof.Machine.tileTensor false b x
      ∀ tile m n, m < 64 → n < 64 →
        (tile = Sys2Proof.Machine.blk b 0 0 4 → part m n → Sys2Proof.Claim.accWord t core tile m n =
          Sys2Proof.Machine.mldWord x (Sys2Proof.Machine.blk b 0 15 1 = 1)
            (mem.elem x [Sys2Proof.Machine.blk b 2 0 32 + n, Sys2Proof.Machine.blk b 1 0 32 + m])) ∧
        (tile ≠ Sys2Proof.Machine.blk b 0 0 4 ∨ ¬ part m n → Sys2Proof.Claim.accWord t core tile m n = Sys2Proof.Claim.accWord s core tile m n))) ∧
  (∀ s core j b x, Sys2Proof.Claim.HeadJob s core j → Sys2Proof.Claim.Runs j → j.kind = .mst b x → j.errs = [] → j.done = 0 → j.core = core →
    x.glob = false → (s.core core).engine.accPoison = [] →
    Sys2Proof.Claim.Gives (.matrixJobComplete core) s (fun t => Sys2Proof.Claim.JobDone s t j 0 ∧
      (t.core core).engine.acc = (s.core core).engine.acc ∧
      let x := Sys2Proof.Machine.tileTensor true b x
      let es := (Sys2Proof.Machine.tilePart (s.core core).engine b).map (fun p => (Sys2Proof.Machine.tileIdx b p,
        Sys2Proof.Machine.mstCode x (Sys2Proof.Machine.blk b 0 15 1 = 1)
          (Sys2Proof.Claim.accWord s core (Sys2Proof.Machine.blk b 0 0 4) p.1 p.2)))
      (t.squad j.squad).scratch = (s.squad j.squad).scratch.writeCells (Sys2Proof.Machine.resolveCells
        ((Sys2Proof.Claim.scratchMem s j).byte false) (Sys2Proof.Machine.tensorCells x (Sys2Proof.Machine.narrowFmt x.fmt) es)))) ∧
  (∀ s core j k mask, Sys2Proof.Claim.HeadJob s core j → Sys2Proof.Claim.Runs j → j.kind = .mpred k mask → j.errs = [] → j.done = 0 →
    j.core = core → k < (s.core core).engine.preds.length →
    Sys2Proof.Claim.Gives (.matrixJobComplete core) s (fun t => Sys2Proof.Claim.JobDone s t j 0 ∧
      (t.core core).engine.preds = (s.core core).engine.preds.set k mask)) ∧
  (∀ s core q w, (s.core core).engine.holder = some q → (s.core core).engine.release = [w] →
    (∀ j ∈ s.jobs, ¬ (j.matrix = true ∧ j.squad = q)) → (s.core core).takes = [] →
    Sys2Proof.Claim.Gives (.engineRelease core) s (fun t => (t.core core).engine = {} ∧ t.mem = s.mem ∧
      ∀ r, w.sd = some r → (t.crew w.crew).s.get r = 0#32)) ∧
  (∀ s j, s.job j.id = some j → j.isCopy = true → j.started = false → s.issuerDone j = true → s.jobBlocked j = false →
    Sys2Proof.Claim.Gives (.copyJobStart j.id) s (fun t =>
      t.jobs = s.jobs.map (fun k => if k.id = j.id then { k with started := true } else k) ∧ t.crews = s.crews)) ∧
  (∀ s j src dst n, s.job j.id = some j → Sys2Proof.Claim.Runs j → j.kind = .cpy false false src dst n → j.errs = [] → j.readDone = false →
    n % 4 = 0 → (s.squad j.squad).scratchPoison = [] → (s.squad j.squad).out = false →
    Sys2Proof.Claim.Gives (.copyJobComplete j.id) s (fun t => Sys2Proof.Claim.JobDone s t j 0 ∧
      ∀ a, (t.squad j.squad).scratch.get a =
        if dst ≤ a ∧ a < dst + n then (s.squad j.squad).scratch.get (src + (a - dst)) else (s.squad j.squad).scratch.get a)) ∧
  (∀ s j src dst n m s1, s.job j.id = some j → Sys2Proof.Claim.Runs j → j.kind = .cpy true false src dst n → j.errs = [] →
    j.readDone = false → n % 4 = 0 → Sys2Proof.Claim.Clean s j → (s.squad j.squad).out = false →
    s.openPages j.core (s.spaceOfSquad j.squad) (Sys2Proof.Machine.pagesOf [⟨true, src, n, false⟩]) = (.ok m, s1) →
    Sys2Proof.Claim.Gives (.copyJobComplete j.id) s (fun t => Sys2Proof.Claim.JobDone s t j 0 ∧
      ∀ a, (t.squad j.squad).scratch.get a =
        if dst ≤ a ∧ a < dst + n then (s.mem.view (j.core / 144)).get (Sys2Proof.Machine.physIn m (src + (a - dst)))
        else (s.squad j.squad).scratch.get a)) ∧
  (∀ s j ssp src dst n m s1, s.job j.id = some j → Sys2Proof.Claim.Runs j → j.kind = .cpy ssp true src dst n → j.errs = [] →
    j.readDone = true → j.cells ≠ [] → (∀ c ∈ j.cells, c.mask = 0xFF#8) → j.bad = [] → s.mem.poison = [] →
    (s.part (s.partOfCore j.core)).events.log = 0#5 →
    s.openPages j.core (s.spaceOfSquad j.squad) (Sys2Proof.Machine.cellPages j.cells) = (.ok m, s1) →
    Sys2Proof.Claim.Gives (.copyJobComplete j.id) s (fun t => Sys2Proof.Claim.JobDone s t j 0 ∧
      t.mem = s.mem.write (j.core / 144) (j.cells.map (fun c => (Sys2Proof.Machine.physIn m c.addr, c.val))) j.squad j.id [])) ∧
  (∀ s j st dt off0 off1 nosat, s.job j.id = some j → Sys2Proof.Claim.Runs j → j.kind = .cpyt st dt off0 off1 nosat → j.errs = [] →
    j.readDone = false → st.glob = false → dt.glob = false → Sys2Proof.Claim.Clean s j → (s.squad j.squad).out = false →
    Sys2Proof.Claim.Gives (.copyJobComplete j.id) s (fun t => Sys2Proof.Claim.JobDone s t j 0 ∧
      let mem := Sys2Proof.Claim.scratchMem s j
      let es := dt.indices.map (fun i => (i, Sys2Proof.Machine.cpytCode st dt nosat
        (mem.elem st ((i.getD 0 0 + off0) :: (i.getD 1 0 + off1) :: i.drop 2))))
      (t.squad j.squad).scratch = (s.squad j.squad).scratch.writeCells
        (Sys2Proof.Machine.resolveCells (mem.byte false) (Sys2Proof.Machine.tensorCells dt (Sys2Proof.Machine.narrowFmt dt.fmt) es)))) ∧
  (∀ s j ssp dsp src dst n a w s1, s.job j.id = some j → Sys2Proof.Claim.Runs j → j.kind = .cpy ssp dsp src dst n → j.readDone = false →
    s.openPages j.core (s.spaceOfSquad j.squad) (Sys2Proof.Machine.pagesOf [⟨ssp, src, n, false⟩]) = (.error (a, w, .unmapped), s1) →
    Sys2Proof.Claim.Gives (.copyJobComplete j.id) s (fun t => t.mem = s.mem ∧ t.squads = s.squads ∧ t.crews = s.crews ∧
      (t.job j.id).map (fun k => (k.fault, k.readDone)) = some (some (BitVec.ofNat 64 a, w), false))) ∧
  (∀ s j src loff n mask lstg rs drop k q cap, s.job j.id = some j → Sys2Proof.Claim.Runs j →
    j.kind = .cpym false src loff n mask lstg rs drop → j.readDone = true → j.errs = [] → rs.find? (fun r => r.1 == k) = some (k, q, cap) →
    k ∉ j.landed → j.bad = [] →
    Sys2Proof.Claim.Gives (.multicastLanding j.id k) s (fun t => match Sys2Proof.Claim.receiver s j k loff n with
      | some (p, left) => (s.squad p).out = false → t.mem = s.mem ∧ ∃ now : Nat → Bool,
          let words := left.filter (fun c => now (c.addr / 4))
          let rest := left.filter (fun c => !now (c.addr / 4))
          (t.squad p).scratch = (s.squad p).scratch.writeCells (words.map (fun c => (c.addr, c.val))) ∧
          (rest ≠ [] → (t.job j.id).map (fun i => (i.landed, i.landingIn k)) = some (j.landed, some (p, rest)) ∧ t.drops = s.drops) ∧
          (rest = [] → (t.job j.id).map Sys2Proof.Machine.Job.landed = some (j.landed ++ [k]) ∧
            ∃ d, t.drops = s.drops ++ [d] ∧ d.core = j.core ∧ d.entry = cap ∧ d.squad = j.squad)
      | none => t.mem = s.mem ∧ t.squads = s.squads ∧
        (t.job j.id).map (fun i => (i.landed, i.dropBits)) = some (j.landed ++ [k], drop ||| 2 ^ k) ∧
        ∃ d, t.drops = s.drops ++ [d] ∧ d.core = j.core ∧ d.entry = cap ∧ d.squad = j.squad)) ∧
  (∀ s j b p o c tb i first a w s1, s.job j.id = some j → Sys2Proof.Claim.Runs j → j.kind = .cins b p o c tb i first → j.readDone = false →
    j.words = [] → 0 < Sys2Proof.Machine.blk b 5 0 32 →
    s.openPages j.core (s.spaceOfSquad j.squad) (Sys2Proof.Machine.pagesOf
      (p.recordRanges (Sys2Proof.Machine.blk b 7 0 16) (Sys2Proof.Machine.blk b 4 0 32))) = (.error (a, w, .unmapped), s1) →
    Sys2Proof.Claim.Gives (.cinsJobComplete j.id) s (fun t => t.mem = s.mem ∧ t.crews = s.crews ∧
      (t.job j.id).map (fun k => (k.fault, k.readDone)) = some (some (BitVec.ofNat 64 a, w), false) ∧
      ∀ k, (t.cluster k).tables = (s.cluster k).tables)) ∧
  (∀ s j b p o c tb i first, s.job j.id = some j → Sys2Proof.Claim.Runs j → j.kind = .cins b p o c tb i first → j.errs = [] → j.readDone = true →
    j.cells = [] → Sys2Proof.Claim.Gives (.cinsJobComplete j.id) s (fun t => Sys2Proof.Claim.JobDone s t j j.done ∧
      (((s.cluster (j.core / 12)).tables.getD tb {}).sweeps[i]?.isSome = true → tb < (s.cluster (j.core / 12)).tables.length →
        (((t.cluster (j.core / 12)).tables.getD tb {}).sweeps[i]?).map Sys2Proof.Machine.Sweep.st = some .complete)))

namespace Sys2Proof.Claim

open Sys2Proof.Machine

/-! ### Capabilities and frontiers (R229-R236) -/

/-- A capability of an entry is counted one less: the entry is freed at its last, and the change is reported (R229, R234). -/
def CountedDown (s t : State) (core entry : Nat) (e : CtEntry) : Prop :=
  (t.core core).table.find entry = (if e.count ≤ 1 then none else some { e with count := e.count - 1 }) ∧
  (t.core core).reports = (s.core core).reports ++ [⟨e.launch, e.stage, e.time, -1⟩]

/-- The sum of a stage and time at the chip aggregator. -/
def chipSum (s : State) (launch : Nat) (stage : BitVec 4) (time : DWord) : Int :=
  (((s.launch launch).counts.find? (fun r => r.stage = stage ∧ r.time = time)).map Report.delta).getD 0

end Sys2Proof.Claim

/-- R99, R229, R230, R234, R235, R237, R240, R314: a capability is dropped once the writes that it guards are applied in every view, and no sooner
than the increments in other tables that come before it are acknowledged; so is one that the image record counts; the time word whose last drop it
was ends then; the giver of a hand-off counts down once the receiver's increment is reported; a report reaches the chip aggregator; and a frontier
that has risen since it was last announced to a core is announced there, the announcements to a core arriving in the order sent.
That a drop stands in a list until the writes that it guards are applied in every view is log 18's reading. -/
def Obligations.CapabilityEvents : Prop :=
  (∀ s d e, s.drops.find? (fun x => x.id == d.id) = some d → s.dropReady d = true → d.image = none → d.op = none →
    (s.core d.core).table.find d.entry = some e → Sys2Proof.Claim.Gives (.capabilityDrop d.id) s (fun t => t.drops = s.drops.filter (fun x => x.id != d.id) ∧ t.mem = s.mem ∧
      Sys2Proof.Claim.CountedDown s t d.core d.entry e)) ∧
  (∀ s d e n op, s.drops.find? (fun x => x.id == d.id) = some d → s.dropReady d = true → d.image = none → d.op = some n →
    (s.core d.core).table.find d.entry = some e → s.opAt n = some op → (∀ x ∈ s.drops, x.id ≠ d.id → x.op ≠ some n) →
    (∀ l ∈ op.lanes, ∀ k ∈ (s.thread op.crew l).peeks, k.value = none) →
    Sys2Proof.Claim.Gives (.capabilityDrop d.id) s (fun t => Sys2Proof.Claim.CountedDown s t d.core d.entry e ∧ Sys2Proof.Claim.Ended s t op)) ∧
  (∀ s d r, s.drops.find? (fun x => x.id == d.id) = some d → s.dropReady d = true → d.image = some r → d.op = none →
    (s.launches.find r.launch).isSome = true → ((s.launch r.launch).counts.Pairwise (fun a b => ¬ (a.stage = b.stage ∧ a.time = b.time))) →
    Sys2Proof.Claim.Gives (.capabilityDrop d.id) s (fun t => t.mem = s.mem ∧
      Sys2Proof.Claim.chipSum t r.launch r.stage r.time = Sys2Proof.Claim.chipSum s r.launch r.stage r.time + r.delta)) ∧
  (∀ s d, s.drops.find? (fun x => x.id == d.id) = some d → s.dropReady d = false →
    Sys2Proof.Claim.Gives (.capabilityDrop d.id) s (fun t => t = s)) ∧
  (∀ s h e, s.handoffs.find? (fun x => x.id == h.id) = some h → h.giver < 576 → h.receiver < 576 →
    (∀ r ∈ (s.core h.receiver).reports, r.launch ≠ h.launch) → (s.core h.giver).table.find h.entry = some e →
    Sys2Proof.Claim.Gives (.capabilityHandoff h.id) s (fun t => t.handoffs = s.handoffs.filter (fun x => x.id != h.id) ∧ t.mem = s.mem ∧
      Sys2Proof.Claim.CountedDown s t h.giver h.entry e)) ∧
  (∀ s core r rest, (s.core core).reports = r :: rest → (s.launches.find r.launch).isSome = true →
    ((s.launch r.launch).counts.Pairwise (fun a b => ¬ (a.stage = b.stage ∧ a.time = b.time))) →
    Sys2Proof.Claim.Gives (.countReport core) s (fun t => (t.core core).reports = rest ∧ t.mem = s.mem ∧
      Sys2Proof.Claim.chipSum t r.launch r.stage r.time = Sys2Proof.Claim.chipSum s r.launch r.stage r.time + r.delta)) ∧
  (∀ s core r rest, (s.core core).reports = r :: rest → Sys2Proof.Claim.Gives (.countReport core) s (fun t =>
    t.unacked = (s.unacked.map (fun u => if u.core = core then { u with left := u.left - 1 } else u)).filter (fun u => u.left != 0))) ∧
  (∀ (s : Sys2Proof.Machine.State) d u, u ∈ s.unacked → u.id < d.id → s.dropLaunch d = some u.launch → u.left ≠ 0 → s.dropReady d = false) ∧
  (∀ s launch stage core,
    (∀ a rest, (s.core core).announces = a :: rest → a.launch = launch → a.stage.toNat = stage →
      Sys2Proof.Claim.Gives (.frontierAnnounce launch stage core) s (fun t => t.mem = s.mem ∧ (t.core core).announces = rest ∧
        t.front core launch a.stage = a.front)) ∧
    ((∀ a rest, (s.core core).announces = a :: rest → ¬ (a.launch = launch ∧ a.stage.toNat = stage)) →
      Sys2Proof.Claim.Gives (.frontierAnnounce launch stage core) s (fun t => t = s))) ∧
  (∀ (s : Sys2Proof.Machine.State) launch stage core,
    let new := (s.launch launch).frontier stage
    ((∃ x, s.sent core launch stage = some x ∧ ∀ y, new = some y → x.toNat < y.toNat) →
      ((s.announceStage core launch stage).core core).announces =
        (s.core core).announces ++ [{ launch := launch, stage := stage, front := new }]) ∧
    ((¬ ∃ x, s.sent core launch stage = some x ∧ ∀ y, new = some y → x.toNat < y.toNat) → s.announceStage core launch stage = s))

namespace Sys2Proof.Claim

open Sys2Proof.Machine

/-! ### Pair launches at work (R254-R269) -/

/-- A core's part of its oldest pair launch. -/
def PairWork (s : State) (core id : Nat) (p : PairLaunch) (k : PairCore) : Prop :=
  (∃ rest, (s.core core).isthmus = id :: rest) ∧ s.pairLaunches.find id = some p ∧ p.cores.find? (fun c => c.core == core) = some k ∧
  p.cores.Pairwise (fun a b => a.core ≠ b.core)

/-- The stage of a pair of a launch on a core. -/
def stageOf (s : State) (core id place : Nat) : Option PairStage :=
  (s.pairLaunches.find id).bind (fun p => (p.cores.find? (fun c => c.core == core)).bind (fun k => (k.pairs[place]?).map Pair.st))

/-! The candidates of an enumeration, and which of them become pairs (R255-R259). `mem` is what the core reads. -/

/-- The record numbers at consecutive places of an index list. -/
def numbers (mem : JobMem) (base : DWord) (start count : Nat) : List Nat :=
  (List.range count).map (fun k => natOfBytes (mem.read true ((base.toNat + 4 * (start + k)) % 2 ^ 64) 4))

/-- The cells of the launch's sweep by rank, each with its owner: of rank c among E and m cores, core floor(c * m / E) (R255). -/
def cellOwners (s : State) (p : PairLaunch) : List (Cell × Nat) :=
  let cells := ((s.cluster (p.core / 12)).tables.getD p.table {}).cellsOf (p.sweep.getD 0)
  cells.zipIdx.map (fun c => (c.1, (p.cores.map PairCore.core).getD (c.2 * p.cores.length / max cells.length 1) 0))

/-- The owner of the catch-all records: the issuing core where it takes part, else the lowest (R255). -/
def catchOwner (p : PairLaunch) : Nat := if p.core ∈ p.cores.map PairCore.core then p.core else (p.cores.map PairCore.core).headD 0

/-- The cell at neighbour offset `n` of a voxel: each index modulo its box in a periodic sweep (R256). -/
def neighbour (w : Sweep) (cells : List (Cell × Nat)) (v : Int × Int × Int) (n : Nat) : Option (Cell × Nat) :=
  let along (box : Nat) (i o : Int) : Int := if w.periodic = true then (i + o) % (max box 1 : Nat) else i + o
  cells.find? (fun c => decide (c.1.ix = along w.nx v.1 ((n % 3 : Nat) - 1) ∧ c.1.iy = along w.ny v.2.1 ((n / 3 % 3 : Nat) - 1) ∧
    c.1.iz = along w.nz v.2.2 ((n / 9 : Nat) - 1)))

/-- The records that one with a voxel, or with none, is paired with: the offset number, the record, whether it is on the catch-all list, and
its owner. Of a cell that two offsets reach, the lower counts (R256, R257). -/
def partners (mem : JobMem) (p : PairLaunch) (w : Sweep) (cells : List (Cell × Nat)) (v : Option (Int × Int × Int)) :
    List (Nat × Nat × Bool × Nat) :=
  let of_ (n : Nat) (c : Cell × Nat) := (numbers mem w.obase c.1.start c.1.count).map (fun j => (n, j, false, c.2))
  (match v with
    | none => cells.flatMap (of_ 27)
    | some v => (List.range 27).flatMap (fun n => match neighbour w cells v n with
      | none => []
      | some c => if (List.range n).all (fun k => decide (neighbour w cells v k ≠ some c)) then of_ n c else []))
  ++ (numbers mem w.cbase 0 w.ccount).map (fun j => (27, j, true, catchOwner p))

/-- The records that a core owns, in retirement order, each with its candidates (R257). -/
def pairCands (s : State) (mem : JobMem) (p : PairLaunch) (core : Nat) : List (List Cand) :=
  let w := ((s.cluster (p.core / 12)).tables.getD p.table {}).sweeps.getD (p.sweep.getD 0) {}
  let cells := cellOwners s p
  let of_ (i : Nat) (v : Option (Int × Int × Int)) : List Cand :=
    (partners mem p w cells v).map (fun x => ⟨i, x.2.1, x.1, v.isNone, x.2.2.1, x.2.2.2⟩)
  if blk p.block 0 2 1 = 1 then
    (cells.filter (fun c => c.2 == core)).flatMap (fun c => (numbers mem w.obase c.1.start c.1.count).map (fun i =>
      of_ i (some (c.1.ix, c.1.iy, c.1.iz)))) ++
    (if catchOwner p = core then (numbers mem w.cbase 0 w.ccount).map (fun i => of_ i none) else [])
  else
    let count := blk p.block 11 0 32
    ((List.range count).filter (fun k => decide ((p.cores.map PairCore.core).getD (k * p.cores.length / max count 1) 0 = core))).map (fun k =>
      let i := blk p.block 10 0 32 + k
      let x := (mem.position p.p (blk p.block 5 0 16) i).1
      of_ i (w.voxel (x.getD 0 0#32) (x.getD 1 0#32) (x.getD 2 0#32)))

/-- Record `j` is on `i`'s exclusion list: the first element of the list that is not below `j` is `j` (R259). -/
def onList (mem : JobMem) (p : PairLaunch) (i j : Nat) : Bool :=
  let at_ (k : Nat) : Nat := (mem.elem p.exo [k]).code
  let el (k : Nat) : Word := BitVec.ofNat 32 (mem.elem p.exl [k]).code
  ((((List.range (at_ (i + 1))).filter (fun k => decide (at_ i ≤ k))).map el).find? (fun v => (BitVec.ofNat 32 j).sle v)) ==
    some (BitVec.ofNat 32 j)

/-- The pair that a candidate becomes, if it is accepted and not excluded (R257-R259). -/
def pairOf (mem : JobMem) (p : PairLaunch) (w : Sweep) (c : Cand) : Option Pair :=
  let self := decide (blk p.block 0 2 1 = 1)
  let pi := (mem.position p.p (blk p.block 5 0 16) c.i).1
  let pj := (mem.position (if self then p.p else p.q) (blk p.block 5 (if self then 0 else 16) 16) c.j).1
  let d (k box : Nat) : Word × Bool := axisDist w.periodic box w.h (pi.getD k 0#32) (pj.getD k 0#32)
  let sq (x : Word) : Word := (f32Mul .rne x x).1
  let r2 := f32AddQuiet (f32AddQuiet (sq (d 0 w.nx).1) (sq (d 1 w.ny).1)) (sq (d 2 w.nz).1)
  if (self && decide (c.j ≤ c.i)) || (f32Le r2 (p.block.getD 4 0#32)).1 != 1#32 || (decide (blk p.block 0 3 1 = 1) && onList mem p c.i c.j) then none
  else some { i := c.i, j := c.j, n := c.n, dx := (d 0 w.nx).1, dy := (d 1 w.ny).1, dz := (d 2 w.nz).1, r2 := r2
              wrap := (d 0 w.nx).2 || (d 1 w.ny).2 || (d 2 w.nz).2, icatch := c.icatch, jcatch := c.jcatch, jcore := c.jcore }

/-- The candidates that are left where an enumeration stands. -/
def left (k : PairCore) (cs : List (List Cand)) : List Cand :=
  match cs.drop k.unit with
  | [] => []
  | u :: us => u.drop k.src ++ us.flatten

/-- The core's TLB translates these pages for reads: page numbers with their physical places. -/
def Translated (s : State) (core space : Nat) (m : List (Nat × Nat)) : Prop :=
  ∀ q ∈ m, ∀ a, a / 65536 = q.1 → canonical a = true ∧
    ∃ e, (s.core core).tlb.find? (fun e => e.covers space a) = some e ∧ e.phys a = q.2 + a % 65536

/-- Every byte that an enumeration may read lies in these pages. -/
def Covers (s : State) (mem : JobMem) (p : PairLaunch) (core : Nat) (m : List (Nat × Nat)) : Prop :=
  let w := ((s.cluster (p.core / 12)).tables.getD p.table {}).sweeps.getD (p.sweep.getD 0) {}
  let list (base : DWord) (start count : Nat) : List Range :=
    (List.range count).map (fun k => ⟨true, (base.toNat + 4 * (start + k)) % 2 ^ 64, 4, false⟩)
  let px := blk p.block 5 0 16
  let cand (c : Cand) : List Range := p.p.recordRanges px c.i ++ p.p.recordRanges px c.j ++ p.q.recordRanges (blk p.block 5 16 16) c.j ++
    p.exo.ranges false [c.i] ++ p.exo.ranges false [c.i + 1]
  let rs := (cellOwners s p).flatMap (fun c => list w.obase c.1.start c.1.count) ++ list w.cbase 0 w.ccount ++
    (List.range (blk p.block 11 0 32)).flatMap (fun k => p.p.recordRanges px (blk p.block 10 0 32 + k)) ++
    (pairCands s mem p core).flatten.flatMap cand ++ (List.range (p.exl.size 0)).flatMap (fun k => p.exl.ranges false [k])
  (∀ r ∈ rs, ∀ q ∈ r.pages, ∃ x ∈ m, x.1 = q.1 / 65536) ∧ m.Pairwise (fun a b => a.1 ≠ b.1)

/-- A row of an accumulator with components added to it, in order, out-of-range ones left out (R264). -/
def addedRow (g : GMem) (island : Nat) (t : Tensor) (phys : Nat → Nat) (r : Nat) (f : List Word) : GMem :=
  f.zipIdx.foldl (fun g w =>
    let pa := phys (t.place [w.2, r]).1
    if t.inRange [w.2, r] = true then
      g.writeAll island (cellsAt pa (bytesOfNat 4 (f32AddQuiet (BitVec.ofNat 32 (natOfBytes (g.home.read pa 4))) w.1).toNat))
    else g) g

end Sys2Proof.Claim

/-- R255-R269: the enumeration of a core goes through the candidates of its records in retirement order, from where it stands, and packs those
within the cutoff and on no exclusion list, up to 32 or to the end, its pages translated and free of poison; a launch whose sweep is still building
waits; the enumeration of a self launch over a sweep without a cell entry or a catch-all record accepts no pair, and the core turns
to its next launch; a pair crew with 32 pairs, or 64 cycles of its core's clock after its first (R327), starts in a reserved slot, and not before, its threads those of the next pairs;
a pair that returned nothing retires, one that returned components has them added to both rows of its core, in all four views, or sends the
other core its half and waits, is held on an unmapped row, and is refused, listed and counted ERR 3 where a row may not be written; a killed one counts ERR 4; the other core applies the negated half in the order of arrival, or answers
ERR 3 where it may not; the acknowledged half is applied, in all four views at one moment, and its pair retires; a launch with nothing left writes its status and
drops its capability, after the writes of its pair squads (R141), and once what its cores counted for its pair threads is acknowledged (R235).
That halves between two stops are applied in the order in which they were sent, and a held half holds back later ones, is log 63; how a launch waits for a core's unit is log 51, how far one event enumerates is log 52, that a core turns to its next launch once its own part of one is over is log 35, and that a record without a voxel is taken from the catch-all list in a launch that is not a self launch too is log 77. -/
def Obligations.PairEvents : Prop :=
  (∀ s core id p k i, Sys2Proof.Claim.PairWork s core id p k → k.arrived = true → k.enumerated = false →
    k.fault = none → k.pairs = [] → p.stop = false → (s.keptSlot core p.launch false).isSome = true → p.sweep = some i →
    Sys2Proof.Machine.blk p.block 0 2 1 = 1 →
    let t0 := (s.cluster (p.core / 12)).tables.getD p.table {}
    t0.cellsOf i = [] → (t0.sweeps.getD i {}).ccount = 0 →
    Sys2Proof.Claim.Gives (.pairEnumerationStart core) s (fun t => t.mem = s.mem ∧
      id ∉ (t.core core).isthmus ∧ (t.pairLaunches.find id).map (fun p => (p.part core).enumerated) = some true)) ∧
  (∀ s core id p k m, Sys2Proof.Claim.PairWork s core id p k → k.arrived = true → k.enumerated = false → k.fault = none → p.stop = false →
    (s.keptSlot core p.launch false).isSome = true → p.sweep.isSome = true → (Sys2Proof.Machine.blk p.block 0 2 1 = 1 → p.q = p.p) →
    s.mem.poison = [] → (s.squad p.squad).scratchPoison = [] →
    Sys2Proof.Claim.Translated s core (s.spaceOfSquad p.squad) m →
    let mem := s.jobMem core p.squad m
    Sys2Proof.Claim.Covers s mem p core m →
    let w := ((s.cluster (p.core / 12)).tables.getD p.table {}).sweeps.getD (p.sweep.getD 0) {}
    let new := (Sys2Proof.Claim.left k (Sys2Proof.Claim.pairCands s mem p core)).filterMap (Sys2Proof.Claim.pairOf mem p w)
    let room := 32 - (k.pairs.filter (fun x => x.st == .accepted)).length
    Sys2Proof.Claim.Gives (.pairEnumerationStart core) s (fun t => t.mem = s.mem ∧
      (t.pairLaunches.find id).map (fun p => ((p.part core).pairs, p.errs)) = some (k.pairs ++ new.take room, p.errs) ∧
      (new.length < room → (t.pairLaunches.find id).map (fun p => (p.part core).enumerated) = some true))) ∧
  (∀ s core id p k i, Sys2Proof.Claim.PairWork s core id p k → p.stop = false → p.sweep = none →
    let t0 := (s.cluster (p.core / 12)).tables.getD p.table {}
    t0.bound = some p.launch → t0.sweepAt (Sys2Proof.Word.pair (p.block.getD 6 0#32) (p.block.getD 7 0#32)) = some i →
    (t0.sweeps.getD i {}).st ≠ .complete → Sys2Proof.Claim.Gives (.pairEnumerationStart core) s (fun t => t = s)) ∧
  (∀ s core id p k at_ slot f, Sys2Proof.Claim.PairWork s core id p k → p.stop = false → k.nextPair = some at_ →
    32 ≤ k.packed ∨ (0 < k.packed ∧ 64 ≤ ((s.core core).clock - k.packedAt).toNat) →
    s.keptSlot core p.launch false = some slot → (s.launch p.launch).freeFrame = some f →
    Sys2Proof.Claim.Gives (.pairCrewStart core) s (fun t => t.mem = s.mem ∧ (t.squad s.nextId).kind = .pair ∧ (t.squad s.nextId).launch = p.launch ∧
      (t.squad s.nextId).crews = [s.nextId + 1] ∧ (t.crew (s.nextId + 1)).slot = slot ∧ (t.crew (s.nextId + 1)).resident = true ∧
      (t.thread (s.nextId + 1) 0).st = .running ∧ (t.thread (s.nextId + 1) 0).pc.toNat = Sys2Proof.Machine.blkD p.block 8 ∧
      (t.thread (s.nextId + 1) 0).pair.map Sys2Proof.Machine.PairRef.place = some at_)) ∧
  (∀ s core id p k, Sys2Proof.Claim.PairWork s core id p k → k.packed < 32 → k.packed = 0 ∨ ((s.core core).clock - k.packedAt).toNat < 64 →
    Sys2Proof.Claim.Gives (.pairCrewStart core) s (fun t => t = s)) ∧
  (∀ s core id p k at_ x, Sys2Proof.Claim.PairWork s core id p k → k.rfault = none → s.mayAdd core = true →
    k.pairs.findIdx? (fun x => x.st != .done && x.st != .waiting) = some at_ → k.pairs[at_]? = some x →
    (x.st = .returned [] → Sys2Proof.Claim.Gives (.pairRetire core) s (fun t => t.mem = s.mem ∧
      Sys2Proof.Claim.stageOf t core id at_ = some .done)) ∧
    (x.st = .killed → Sys2Proof.Claim.Gives (.pairRetire core) s (fun t => t.mem = s.mem ∧
      Sys2Proof.Claim.stageOf t core id at_ = some .done ∧
      (t.pairLaunches.find id).map (fun p => (p.errs, p.aborted)) = some (p.errs ++ [4], true))) ∧
    (∀ f, x.st = .returned f → f ≠ [] →
      let space := s.spaceOfSquad p.squad
      let mine := p.accp.rowRanges x.i f.length
      (∀ m s2, x.jcore = core → s.openPages core space (Sys2Proof.Machine.pagesOf (mine ++ p.accq.rowRanges x.j f.length)) = (.ok m, s2) →
        s.mem.poison = [] → Sys2Proof.Claim.Gives (.pairRetire core) s (fun t => Sys2Proof.Claim.stageOf t core id at_ = some .done ∧
          let phys := Sys2Proof.Machine.physIn m
          t.mem = Sys2Proof.Claim.addedRow (Sys2Proof.Claim.addedRow s.mem (core / 144) p.accp phys x.i f) (core / 144) p.accq phys x.j
            (f.map (· ^^^ 0x80000000#32)))) ∧
      (∀ m s2, x.jcore ≠ core → s.openPages core space (Sys2Proof.Machine.pagesOf mine) = (.ok m, s2) →
        Sys2Proof.Claim.Gives (.pairRetire core) s (fun t => t.mem = s.mem ∧ Sys2Proof.Claim.stageOf t core id at_ = some .waiting ∧
          ∃ h, t.halves = s.halves ++ [h] ∧ h.pairLaunch = id ∧ h.core = core ∧ h.place = at_ ∧ h.jcore = x.jcore ∧ h.j = x.j ∧ h.f = f ∧
            h.answer = none ∧ h.arrived = false ∧
            h.rows = (List.range f.length).map (fun n =>
              if p.accp.inRange [n, x.i] then some (Sys2Proof.Machine.physIn m (p.accp.place [n, x.i]).1) else none))) ∧
      (∀ a w s2, s.openPages core space (Sys2Proof.Machine.pagesOf
          (mine ++ if x.jcore = core then p.accq.rowRanges x.j f.length else [])) = (.error (a, w, .unmapped), s2) →
        Sys2Proof.Claim.Gives (.pairRetire core) s (fun t => t.mem = s.mem ∧ Sys2Proof.Claim.stageOf t core id at_ = some x.st ∧
          (t.pairLaunches.find id).map (fun p => (p.part core).rfault) = some (some (BitVec.ofNat 64 a, true)))) ∧
      (∀ a w s2, s.openPages core space (Sys2Proof.Machine.pagesOf
          (mine ++ if x.jcore = core then p.accq.rowRanges x.j f.length else [])) = (.error (a, w, .denied), s2) →
        Sys2Proof.Claim.Gives (.pairRetire core) s (fun t => t.mem = s.mem ∧ Sys2Proof.Claim.stageOf t core id at_ = some .done ∧
          (t.pairLaunches.find id).map (fun p => (p.errs, p.stop, p.aborted)) = some (p.errs ++ [3], true, true))))) ∧
  (∀ s h p, s.halves.find? (fun x => x.id == h.id) = some h → h.answer = none → h.fault = none →
    h.arrived = true ∨ s.mayArrive h.id (h.core / 12) (h.jcore / 12) = true → s.mayAdd h.jcore = true →
    (∀ x ∈ s.halves, x.jcore = h.jcore → x.answer = none → x.id ≠ h.id → x.arrived = false ∧ ¬ (x.core = h.core ∧ x.id < h.id)) →
    s.pairLaunches.find h.pairLaunch = some p →
    (∀ e s2, s.openPages h.jcore (s.spaceOfSquad p.squad) (Sys2Proof.Machine.pagesOf (p.accq.rowRanges h.j h.f.length)) =
        (.error (e, true, .denied), s2) →
      Sys2Proof.Claim.Gives (.pairRemoteHalf h.id) s (fun t => t.mem = s.mem ∧
        (t.halves.find? (fun x => x.id == h.id)).map Sys2Proof.Machine.Half.answer = some (some (some 3)))) ∧
    (∀ m s2 w, h.f = [w] → s.openPages h.jcore (s.spaceOfSquad p.squad) (Sys2Proof.Machine.pagesOf (p.accq.rowRanges h.j 1)) = (.ok m, s2) →
      p.accq.inRange [0, h.j] = true →
      let pa := Sys2Proof.Machine.physIn m (p.accq.place [0, h.j]).1
      s.mem.poisoned pa 4 = false →
      Sys2Proof.Claim.Gives (.pairRemoteHalf h.id) s (fun t =>
        t.mem = s.mem.writeAll (h.jcore / 144) (Sys2Proof.Machine.cellsAt pa (Sys2Proof.Machine.bytesOfNat 4 (Sys2Proof.Machine.f32AddQuiet
          (BitVec.ofNat 32 (Sys2Proof.Machine.natOfBytes (s.mem.home.read pa 4))) (w ^^^ 0x80000000#32)).toNat)) ∧
        (t.halves.find? (fun x => x.id == h.id)).map Sys2Proof.Machine.Half.answer = some (some none)))) ∧
  (∀ s h p k x pa w, s.halves.find? (fun x => x.id == h.id) = some h → h.answer = some none → s.pairLaunches.find h.pairLaunch = some p →
    p.cores.find? (fun c => c.core == h.core) = some k → k.pairs[h.place]? = some x → h.rows = [some pa] → h.f = [w] →
    s.mem.poisoned pa 4 = false → s.mayAdd h.core = true →
    (∀ x ∈ s.halves, x.core / 12 = h.core / 12 → x.jcore / 12 = h.jcore / 12 → x.answer ≠ none → h.answeredAt ≤ x.answeredAt) →
    Sys2Proof.Claim.Gives (.pairAcknowledge h.id) s (fun t => t.halves = s.halves.filter (fun x => x.id != h.id) ∧
      t.mem = s.mem.writeAll (h.core / 144) (Sys2Proof.Machine.cellsAt pa (Sys2Proof.Machine.bytesOfNat 4 (Sys2Proof.Machine.f32AddQuiet
        (BitVec.ofNat 32 (Sys2Proof.Machine.natOfBytes (s.mem.home.read pa 4))) w).toNat)) ∧
      Sys2Proof.Claim.stageOf t h.core h.pairLaunch h.place = some .done)) ∧
  (∀ s id p, s.pairLaunches.find id = some p → s.pairsOver id p = true → p.errs = [] →
    Sys2Proof.Claim.Gives (.plnchComplete id) s (fun t => t.mem = s.mem ∧ t.pairLaunches.find id = none ∧
      (∃ d, t.drops = s.drops ++ [d] ∧ d.core = p.core ∧ d.entry = p.cap ∧ d.also = p.squads ∧
        ∀ k ∈ p.cores, ∃ u ∈ t.unacked, u.core = k.core ∧ u.launch = p.launch ∧ u.id < d.id) ∧
      ∀ r, p.sd = some r → (t.crew p.crew).s.get r = BitVec.ofNat 32 (2 ^ 31 + p.skip)))

namespace Sys2Proof.Claim

open Sys2Proof.Machine

/-! ### Traps from delivery to return (R13, R274-R276, R278, R280-R286, R290, R293) -/

/-- Where a thread resumes after `sret` (R286): at a header where its trap was delivered for an earlier cause, past the word for `skip`,
TRAP and BREAK, else at the word. `ws` are the words of the clause that trapped. -/
def resumePc (k : Thread) (skip : Bool) (ws : List Word) : DWord :=
  if k.frec.defer then k.frec.pc
  else if skip = true ∨ k.frec.cause = 1#6 ∨ k.frec.cause = 2#6 then
    if k.frec.pc = k.trapHdr then k.trapHdr + BitVec.ofNat 64 (4 * (ws.length + 1))
    else k.frec.pc + BitVec.ofNat 64 (4 * wordsAt ws ((k.frec.pc - k.trapHdr).toNat / 4 - 1))
  else k.frec.pc

/-- The place where it resumes is a word of the clause that trapped. -/
def resumesInside (k : Thread) (skip : Bool) (ws : List Word) : Bool :=
  !k.frec.defer && decide (k.trapHdr.toNat < (resumePc k skip ws).toNat ∧
    (resumePc k skip ws).toNat < (k.trapHdr + BitVec.ofNat 64 (4 * (ws.length + 1))).toNat)

/-- A thread that has returned from its handler. -/
def returned (k : Thread) (skip : Bool) (ws : List Word) : Thread :=
  let inside := resumesInside k skip ws
  { k with pc := resumePc k skip ws, mid := inside, clhdr := if inside then k.trapHdr else k.clhdr, arrival := .fall, inHandler := false
           q0 := if inside then k.qsave0 else k.q0, q1 := if inside then k.qsave1 else k.q1, starve := 0 }

/-- A thread that waits alone for the delivery of its cause; the line of four records that its own lies in can be written at a physical
address. -/
def Deliverable (s : State) (c l : Nat) (p : Parked) (pa : Nat) : Prop :=
  (s.crew c).resident = true ∧ (s.thread c l).parked = some p ∧ p.route = .deliver ∧ p.writeEnded = false ∧ l < 32 ∧
  l < (s.crew c).threads.length ∧ (∀ m, m ≠ l → (s.thread c m).parked = none) ∧
  (∃ pr, (s.access (s.coreOf c) (s.spaceOf c) ((s.crew c).image + BitVec.ofNat 64 (128 * 144 + 32 * l)).toNat true false).1 = .ok pr) ∧
  (s.access (s.coreOf c) (s.spaceOf c) ((s.crew c).image + BitVec.ofNat 64 (128 * 144 + 32 * (4 * (l / 4)))).toNat true false).1 = .ok pa

/-- The line of four fault records that a delivery writes: the lane's new one, and those of the other lanes as they stand (R283). -/
def recordsOf (s : State) (c l : Nat) (r : FaultRec) : List Byte :=
  (List.range 4).flatMap (fun i => if 4 * (l / 4) + i = l then r.bytes else (s.thread c (4 * (l / 4) + i)).frec.bytes)

/-- A thread in the trap vector's handler. -/
def vectored (r : FaultRec) (vector : DWord) (k : Thread) : Thread :=
  { k with qsave0 := k.q0, qsave1 := k.q1, trapHdr := if k.mid then k.clhdr else k.pc, frec := r, inHandler := true, pc := vector
           mid := false, arrival := .vector, st := .running, parked := none }

/-- A lane waits for the walk of its held access, which no other lane holds with it. -/
def Walking (s : State) (w c l : Nat) (h : Held) : Prop :=
  s.walks.find w = some (.lane c l) ∧ (s.thread c l).held = some h ∧ l < (s.crew c).threads.length ∧
  (s.thread c l).parked.map (fun p => (p.cause, p.route)) = some (.pageFault, .walk) ∧
  ∀ op, h.op = some op → op.lanes = [l]

/-- A thread with one more operation outstanding on a flag, if the operation counts on one (R16). -/
def counted (flag : Option Nat) (wrote : List Nat) (k : Thread) : Thread :=
  match flag with
  | none => k
  | some f => { k with flags := k.flags.put f (k.flags.get f + 1#4), wrote := wrote }

/-- Something of the squad beside a task of a crew stands at the task's stage and time: a thread that has not exited or ended its task there, or
another task (R230). -/
def HeldBeside (s : State) (c : Nat) (k : Task) : Prop :=
  ∃ d ∈ (s.squad (s.crew c).squad).crews,
    (∃ u ∈ (s.crew d).threads, u.st ≠ .exited ∧ u.freed = false ∧ u.stage = k.entry.stage ∧ u.time = k.entry.time) ∨
    ∃ o ∈ (if d = c then (s.crew c).tasks.filter (fun k => !k.failed) else (s.crew d).tasks),
      o.entry.stage = k.entry.stage ∧ o.entry.time = k.entry.time

/-- The word of a fault-list header that an entry's phase writes, with its value: COUNT, OVER, or a stage's LOST (R284). -/
def headerWord (k : Launch) (p : ListPhase) : List (Nat × Nat) :=
  match p with
  | .entry => []
  | .count => [(0, k.fcount)]
  | .over_ => [(4, k.overflows)]
  | .lost g => [(0x40 + 4 * g, (k.lost.get g).toNat)]

/-- The entry is no longer on its way, and a permit that waits for it is back. -/
def Accepted (s t : State) (e : ListEntry) : Prop :=
  t.listEntries = s.listEntries.filter (fun x => x.id != e.id) ∧
  ∀ c l, e.permit = some (c, l) → (t.core e.core).permits = min 4 ((s.core e.core).permits + 1)

end Sys2Proof.Claim

/-- R286: `sret` returns every thread of its run from the handler, to the word of its trap or past it, with the saved `q0` and `q1` where
that is inside the clause; a run with a thread that is not in a handler raises ILLEGAL_OP. -/
def Obligations.HandlersReturn : Prop :=
  ∀ i skip s x, (i = .sretResume ∧ skip = false ∨ i = .sretSkip ∧ skip = true) → Sys2Proof.Claim.RunsFit s → s.issuer = some x →
    Sys2Proof.Claim.LastWord x 1 →
    (∀ cl s2, (∀ l ∈ x.run.lanes, (s.thread x.c l).inHandler = true) → s.sretFetch x.c x.run.lanes = (cl, none, [], s2) →
      ∃ t, Sys2Proof.Machine.exec i s = .next t ∧ Sys2Proof.Claim.RunLeaves s2 t x (fun l old new =>
        ∃ ws, (l, ws) ∈ cl ∧ new = { Sys2Proof.Claim.returned old skip ws with wrote := new.wrote })) ∧
    ((∃ l ∈ x.run.lanes, (s.thread x.c l).inHandler = false) →
      ∃ t, Sys2Proof.Machine.exec i s = .next t ∧ Sys2Proof.Claim.RunParked s t x .illegalOp 0#64)

/-- R274, R276, R280-R285, R290, R293: delivery writes the line of a thread's record to its image, saves `q0` and `q1`, and turns the thread to the
trap vector; without a vector, or in a handler, the thread is killed. A walk lets a held access, counted on its flag, or a held clause fetch go on, records its fault, or refuses it.
A fault-list entry is written, then COUNT at system scope; one without room is counted in FOVER, then OVER. `tlbi` is done once the translations are gone. A failed task is queued again, with a
capability for its entry, or reported with the record and the time of the thread whose kill failed it.
Where a held record is listed, and when the header of a list is cleared, is this model's choice (log 39), and so is that a failed task joins its queue again whatever that holds (log 34), and which killed thread's record it is reported with (log 78). -/
def Obligations.TrapEvents : Prop :=
  (∀ s c l p pa, Sys2Proof.Claim.Deliverable s c l p pa →
    let k := s.thread c l
    let r := s.faultRec c l p.cause p.addr p.defer p.eng false
    let vector := (s.squadOf c).trapVec
    (k.inHandler = false → vector ≠ 0#64 → Sys2Proof.Claim.Gives (.trapDelivery c l) s (fun t =>
      t.mem = s.mem.writeSys (Sys2Proof.Machine.cellsAt pa (Sys2Proof.Claim.recordsOf s c l r)) ∧ t.thread c l = { Sys2Proof.Claim.vectored r vector k with wrote := (t.thread c l).wrote } ∧
      (t.crew c).srFault = (s.crew c).image + BitVec.ofNat 64 (128 * 144 + 32 * l) ∧ ∀ m, m ≠ l → t.thread c m = s.thread c m)) ∧
    (k.inHandler = true ∨ vector = 0#64 → k.pair = none → Sys2Proof.Claim.Gives (.trapDelivery c l) s (fun t =>
      (t.thread c l).st = .exited ∧ ∃ e, t.listEntries = s.listEntries ++ [e] ∧ e.record.kill = true ∧
        e.record.cause = (if k.inHandler then 0x15#6 else BitVec.ofNat 6 p.cause.code) ∧
        e.record.addr = (if k.inHandler then 0#64 else p.addr)))) ∧
  (∀ s w c l h, Sys2Proof.Claim.Walking s w c l h →
    let core := s.coreOf c
    let k := s.thread c l
    let back := min 4 ((s.core core).permits + 1)
    (∀ pa s2, s.access core (s.spaceOf c) h.addr.toNat h.write h.fetch = (.ok pa, s2) → (∀ op, h.op = some op → op.crew = c) →
      Sys2Proof.Claim.Gives (.pageWalk w) s (fun t => t.mem = s.mem ∧
        t.walks = (s.walks.del w).filter (fun x => x.2 != .lane c l) ∧
        t.ops = s.ops ++ h.op.toList.map (fun op => { op with pa := pa, id := s.nextId }) ∧ (t.core core).permits = back ∧
        t.thread c l = Sys2Proof.Claim.counted (h.op.bind Sys2Proof.Machine.Op.flag) (t.thread c l).wrote
          { k with st := .running, parked := none, held := none, pc := h.after, mid := h.mid, stall := none
                   arrival := if h.fetch then k.arrival else .fall })) ∧
    (∀ s2, s.access core (s.spaceOf c) h.addr.toNat h.write h.fetch = (.unmapped, s2) → Sys2Proof.Claim.Gives (.pageWalk w) s (fun t =>
      t.mem = s.mem ∧ t.walks = s.walks.del w ∧ (t.core core).permits = back ∧ (t.thread c l).held = some h ∧
      (t.thread c l).parked.map Sys2Proof.Machine.Parked.route = some .held ∧
      ((∃ e, some e ∈ (t.cluster (core / 12)).faults ∧ e.coalesces (s.laneFault c l) = true) ∨ (t.cluster (core / 12)).dropped = true))) ∧
    (∀ s2, s.access core (s.spaceOf c) h.addr.toNat h.write h.fetch = (.denied, s2) → Sys2Proof.Claim.Gives (.pageWalk w) s (fun t =>
      t.mem = s.mem ∧ (t.core core).permits = back ∧ t.thread c l = Sys2Proof.Claim.parkedWith s .protection h.addr k))) ∧
  (∀ s e, s.listEntries.find? (fun x => x.id == e.id) = some e → e.writeEnded = false → e.writeHeld = false →
    let k := s.launch e.launch
    (k.pkt.flist = 0#64 → Sys2Proof.Claim.Gives (.faultListWrite e.id) s (fun t => t.mem = s.mem ∧ Sys2Proof.Claim.Accepted s t e ∧
      (t.launch e.launch).fover = k.fover + 1)) ∧
    (k.pkt.flist ≠ 0#64 → e.phase = .entry → k.pkt.flCap ≤ k.fcount →
      Sys2Proof.Claim.Gives (.faultListWrite e.id) s (fun t => t.mem = s.mem ∧ (t.launch e.launch).fover = k.fover + 1 ∧
        (t.launch e.launch).overflows = k.overflows + 1 ∧ (t.launch e.launch).fcount = k.fcount ∧
        (t.listEntries.find? (fun x => x.id == e.id)).map Sys2Proof.Machine.ListEntry.phase = some .over_)) ∧
    (∀ pa s2, k.pkt.flist ≠ 0#64 → e.phase = .entry → k.fcount < k.pkt.flCap →
      let at_ := k.pkt.flist.toNat + 128 + 48 * k.fcount
      at_ % 65536 ≤ 65488 → s.access e.core k.pkt.space at_ true false = (.ok pa, s2) →
      Sys2Proof.Claim.Gives (.faultListWrite e.id) s (fun t => (t.launch e.launch).fcount = k.fcount + 1 ∧
        t.mem = s.mem.writeSys (Sys2Proof.Machine.cellsAt pa (e.record.bytes ++ Sys2Proof.Machine.bytesOfNat 8 e.time.toNat ++
          Sys2Proof.Machine.bytesOfNat 8 0)) ∧
        (t.listEntries.find? (fun x => x.id == e.id)).map Sys2Proof.Machine.ListEntry.phase = some .count)) ∧
    (∀ off n pa s2, k.pkt.flist ≠ 0#64 → (off, n) ∈ Sys2Proof.Claim.headerWord k e.phase →
      (k.pkt.flist.toNat + off) % 65536 ≤ 65532 → s.access e.core k.pkt.space (k.pkt.flist.toNat + off) true false = (.ok pa, s2) →
      Sys2Proof.Claim.Gives (.faultListWrite e.id) s (fun t => Sys2Proof.Claim.Accepted s t e ∧ t.launch e.launch = k ∧
        t.mem = s.mem.writeSys (Sys2Proof.Machine.cellsAt pa (Sys2Proof.Machine.bytesOfNat 4 (min n 0xFFFFFFFF)))))) ∧
  (∀ s c l va space kind sd size last, (s.thread c l).stall = some (.tlbi va space kind sd size last) → (s.thread c l).st = .running →
    (∀ m, m ≠ l → (s.thread c m).stall = none) → l < (s.crew c).threads.length →
    Sys2Proof.Claim.Gives (.tlbiDone c) s (fun t => t.mem = s.mem ∧
      t.thread c l = { s.thread c l with stall := none, pc := (s.thread c l).pc + BitVec.ofNat 64 (4 * size), mid := !last } ∧
      (∀ r, sd = some r → r < 160 → (t.crew c).s.get r = 0x80000000#32) ∧
      ∀ core, (t.core core).tlb = if s.partOfCore core = s.partOfCore (s.coreOf c) then
        (s.core core).tlb.filter (fun e => !(if kind = 0 then e.covers space va else if kind = 1 then e.space == space else true))
        else (s.core core).tlb)) ∧
  (∀ s c k, (s.crew c).tasks.filter Sys2Proof.Machine.Task.failed = [k] →
    let q := (s.crew c).squad
    let rest := (s.crew c).tasks.filter (fun k => !k.failed)
    let again := fun (cap : Nat) (t : Sys2Proof.Machine.State) => t.mem = s.mem ∧ (t.crew c).tasks = rest ∧ t.listEntries = s.listEntries ∧
      (t.squad q).tasks = (s.squad q).tasks ++ [{ k.entry with cap := cap, fails := k.entry.fails + 1, offer := none }]
    let mine := fun (x : Sys2Proof.Machine.SquadCap) => x.stage = k.entry.stage ∧ x.time = k.entry.time
    let core := (s.squad q).core
    ((k.entry.idem = true ∨ k.effects = false) ∧ k.entry.fails < 3 →
      (k.own = true → Sys2Proof.Claim.Gives (.taskFailure c) s (fun t => again k.entry.cap t ∧ (t.squad q).caps = (s.squad q).caps)) ∧
      (∀ x, k.own = false → (s.squad q).caps.find? (fun x => decide (mine x)) = some x → (s.squads.find q).isSome = true →
        (¬ Sys2Proof.Claim.HeldBeside s c k → Sys2Proof.Claim.Gives (.taskFailure c) s (fun t => again x.entry t ∧
          (t.squad q).caps = (s.squad q).caps.filter (fun x => decide (¬ mine x)))) ∧
        (Sys2Proof.Claim.HeldBeside s c k → (s.squad q).out = false →
          (∀ i s2, s.ctInc core (s.squad q).launch k.entry.stage k.entry.time = some (i, s2) →
            Sys2Proof.Claim.Gives (.taskFailure c) s (fun t => again i t ∧ (t.core core).table = (s2.core core).table ∧
              (t.squad q).caps = (s.squad q).caps)) ∧
          (s.ctInc core (s.squad q).launch k.entry.stage k.entry.time = none → Sys2Proof.Claim.Gives (.taskFailure c) s (fun t => t = s))))) ∧
    (¬ ((k.entry.idem = true ∨ k.effects = false) ∧ k.entry.fails < 3) → Sys2Proof.Claim.Gives (.taskFailure c) s (fun t => t.mem = s.mem ∧
      (t.crew c).tasks = rest ∧ (t.squad q).tasks = (s.squad q).tasks ∧
      ∃ e, t.listEntries = s.listEntries ++ [e] ∧ e.record = { k.record with kill := true } ∧ e.time = k.time)))

namespace Sys2Proof.Claim

open Sys2Proof.Machine

/-! ### Squads: placement, eviction, pre-emption, restore, retirement (R51-R53, R70-R72, R118, R289, R302, R303, R306, R307) -/

/-- A crew as placement leaves it: 32 threads running at the entry, the preloaded words in `s0` up, every other register 0. -/
def Placed (cr : Crew) (q index slot : Nat) (image entry : DWord) (stage : BitVec 4) (time : DWord) (words : List Word) : Prop :=
  cr.squad = q ∧ cr.index = index ∧ cr.slot = slot ∧ cr.resident = true ∧ cr.image = image ∧ cr.run = none ∧ cr.absent = [] ∧
  cr.threads = List.replicate 32 { pc := entry, arrival := .entry, stage := stage, time := time } ∧
  ∀ n, cr.s.get n = words.getD n 0#32

/-- A running thread of a crew stands stalled for a line. -/
def WantsLine (cr : Crew) (n : Nat) : Prop := ∃ k ∈ cr.threads, k.st = .running ∧ ∃ lines, k.stall = some (.regMiss lines) ∧ n ∈ lines

/-- The page of a line of a crew's image can be read by its core. -/
def ImageRead (s : State) (c n : Nat) : Prop :=
  ∃ pa, (s.access (s.coreOf c) (s.spaceOf c) ((s.crew c).image + BitVec.ofNat 64 (128 * n)).toNat false false).1 = .ok pa

/-- A line that stands in a crew's image is what the crew wrote there, and nothing has arrived for it since; or it holds fault records. -/
def AsWritten (s : State) (c n : Nat) : Prop :=
  ∃ old, (s.crew c).away.find n = some old ∧
    ((144 ≤ n ∧ n < 152) ∨ (s.memLine c n = some old ∧ (s.crew c).lineWords (s.squad (s.crew c).squad).image n = old))

/-- A line of a crew that is away and that is to be fetched: before its first selection, or for threads stalled for it. -/
def Fetched (cr : Crew) (n : Nat) : Prop := n ∈ cr.absent ∧ ((104 ≤ n ∧ n < 152) ∨ WantsLine cr n)

/-- A line holds what was not there as it was fetched, or it has been written since. -/
def WrittenSince (cr : Crew) (n : Nat) (words : List Word) : Prop :=
  cr.fetched.find n ≠ some words ∨ n ∈ cr.wrote ∨ ∃ k ∈ cr.threads, n ∈ k.wrote

/-- The pieces of squad state of a squad image hold some bytes, and those of its scratch others. -/
def ImageHolds (s : State) (q : Nat) (bytes scratch : List Byte) : Prop :=
  s.memPieces q (List.range 85) = some bytes ∧
  s.memPieces q ((List.range ((s.squad q).allot / 4096)).map (85 + ·)) = some scratch

/-- A held squad is back on a core, each crew in its slot with its lines still to be fetched, and its scratch as its image holds it. -/
def Restored (s t : State) (q core : Nat) (scratch : List Byte) : Prop :=
  (t.squad q).st = .resident ∧ (t.squad q).core = core ∧ (t.squad q).out = false ∧ (t.squad q).scratch = Memory.write [] 0 scratch ∧
  ∀ i c, (s.squad q).crews[i]? = some c → i < (s.openSlots core).length → (t.crew c).resident = true ∧
    (t.crew c).slot = (s.openSlots core).getD i 0 ∧ (t.crew c).absent = (s.crew c).absent

/-- A piece of a squad image can be written. -/
def PieceAt (s : State) (q k pa : Nat) : Prop :=
  ∃ s2, s.access (s.squad q).core (s.spaceOfSquad q) ((s.squad q).image + BitVec.ofNat 64 (4096 * k)).toNat true false = (.ok pa, s2)

end Sys2Proof.Claim

/-- R50-R53, R70, R72, R118, R302, R303, R306: the first squad of a core's range that has room is placed there in a free frame and the lowest
open slots; a squad that is done retires and gives them back, a persistent one not before its launch ends; lines that stalled words name, and
those of a crew that has not been selected since it was placed, arrive from the image, with what stands there; an evicted line goes to its
place in the image if it was written since it was fetched (log 20). -/
def Sys2Proof.Claim.SquadSlotEvents : Prop :=
  (∀ s q core f entry s1, let launch := (s.squad q).launch
    let k := s.launch launch
    k.headOn core = some q → s.firstIn q core = true → s.room launch core = true → (s.core core).slots.length = 16 →
    k.freeFrame = some f → s.ctInc core launch k.pkt.stStage k.pkt.stTime = some (entry, s1) →
    Sys2Proof.Claim.Gives (.squadPlaced q core) s (fun t =>
      (t.squad q).st = .resident ∧ (t.squad q).core = core ∧ (t.squad q).frame = f ∧ (t.squad q).image = k.pkt.frameAddr f ∧
      (t.squad q).crews = (List.range k.pkt.crews).map (s.nextId + ·) ∧ (t.squad q).scratch = Sys2Proof.Machine.Memory.write [] 0 k.simgBytes ∧
      (t.squad q).caps = [{ stage := k.pkt.stStage, time := k.pkt.stTime, entry := entry }] ∧
      (t.squad q).units = (s.freeUnits core).take (k.pkt.allot / 4096) ∧ (t.squad q).trapVec = k.pkt.trapVec ∧
      (t.launch launch).ranges.find core = some (((k.ranges.find core).getD []).drop 1) ∧ f ∈ (t.launch launch).frames ∧
      ∀ i, i < k.pkt.crews → Sys2Proof.Claim.Placed (t.crew (s.nextId + i)) q i ((s.openSlots core).getD i 0)
        (k.pkt.crewAddr f i) k.pkt.entry k.pkt.stStage k.pkt.stTime k.argWords ∧
        (t.core core).slot ((s.openSlots core).getD i 0) = .resident (s.nextId + i))) ∧
  (∀ s q core k v, (s.core core).claim = none → (s.launches.find k).isSome = true → s.nextFor k core = some v →
    (s.launch (s.squad v).launch).pkt.prio ≤ 7 →
    (s.launch (s.squad q).launch).pkt.prio < (s.launch (s.squad v).launch).pkt.prio →
    Sys2Proof.Claim.Gives (.squadPlaced q core) s (fun t => t = s)) ∧
  (∀ s q, s.squadDone q = true → (s.launch (s.squad q).launch).pkt.persist = false → (s.squad q).kind ≠ .service →
    let core := (s.squad q).core
    Sys2Proof.Claim.Gives (.squadRetire q) s (fun t => (t.squad q).st = .retired ∧ (t.squad q).units = [] ∧ (t.squad q).tx = [] ∧
      (t.squad q).caps = [] ∧ (t.core core).engine.holder ≠ some q ∧
      (t.launch (s.squad q).launch).frames = (s.launch (s.squad q).launch).frames.filter (· != (s.squad q).frame) ∧
      ∀ n c, c ∈ (s.squad q).crews → (s.core core).slot n = .retiring c → (t.core core).slot n = .free)) ∧
  (∀ s q c, s.squadDone q = true → (s.launch (s.squad q).launch).pkt.persist = false → (s.squad q).kind = .service → q < s.nextId →
    let core := (s.squad q).core
    (s.part (s.partOfCore core)).hwFault = true → core ∉ s.offline → c ∈ (s.squad q).crews → (s.core core).slots.length = 16 →
    (s.core core).slot 15 = .retiring c →
    Sys2Proof.Claim.Gives (.squadRetire q) s (fun t => (t.squad q).st = .retired ∧ ∃ d, (t.core core).slot 15 = .resident d ∧
      (t.squadOf d).kind = .service ∧ (t.crew d).resident = true ∧
      (t.crew d).threads = List.replicate 32 { pc := Sys2Proof.Config.serviceEntry, arrival := .entry })) ∧
  (∀ s q o, (s.launch (s.squad q).launch).pkt.persist = true → (s.squad q).kind = .ordinary → (s.launch (s.squad q).launch).ending = none →
    o ∈ s.squadsOf (s.squad q).launch → (s.squad o).st ≠ .retired → s.squadDone o = false →
    Sys2Proof.Claim.Gives (.squadRetire q) s (fun t => t = s)) ∧
  (∀ s c, (s.crew c).resident = true → s.victimAt (s.coreOf c) (s.crew c).slot = none →
    (∀ n ∈ (s.crew c).absent, Sys2Proof.Claim.ImageRead s c n ∧ Sys2Proof.Claim.AsWritten s c n) →
    Sys2Proof.Claim.Gives (.regmissFetchDone c) s (fun t => t.mem = s.mem ∧ (∀ x, x ≠ c → t.crew x = s.crew x) ∧
      t.crew c = { s.crew c with
        away := (t.crew c).away, fetched := (t.crew c).fetched, wrote := (t.crew c).wrote, threads := (t.crew c).threads } ∧
      (t.crew c).threads.length = (s.crew c).threads.length ∧
      (∀ l, t.thread c l = { s.thread c l with wrote := (t.thread c l).wrote }) ∧
      ∀ n, (n ∈ (t.crew c).absent ↔ n ∈ (s.crew c).absent ∧ ¬ Sys2Proof.Claim.Fetched (s.crew c) n) ∧
        (n ∈ (t.crew c).wrote ↔ n ∈ (s.crew c).wrote ∧ ¬ Sys2Proof.Claim.Fetched (s.crew c) n) ∧
        ∀ l, n ∈ (t.thread c l).wrote ↔ n ∈ (s.thread c l).wrote ∧ ¬ Sys2Proof.Claim.Fetched (s.crew c) n)) ∧
  (∀ s c n old mem, (s.crew c).resident = true → s.victimAt (s.coreOf c) (s.crew c).slot = none → n < 104 → (s.crew c).missing = [n] →
    (s.crew c).away.find n = some old → (s.crew c).lineWords (s.squad (s.crew c).squad).image n = old → s.memLine c n = some mem →
    mem.length = 32 → (s.crew c).threads.length = 32 → Sys2Proof.Claim.ImageRead s c n →
    Sys2Proof.Claim.Gives (.regmissFetchDone c) s (fun t => t.mem = s.mem ∧ n ∉ (t.crew c).absent ∧
      ∀ l, l < 32 → (t.thread c l).v.get n = mem.getD l 0#32)) ∧
  (∀ s core slot c n ns, s.victimAt core slot = some c → (s.crew c).evictable = n :: ns → n ∉ ns → (s.crew c).lineHeld = false →
    let at_ := ((s.crew c).image + BitVec.ofNat 64 (128 * n)).toNat
    let words := (s.crew c).lineWords (s.squad (s.crew c).squad).image n
    let slotFreed := fun (t : Sys2Proof.Machine.State) => (∀ k ∈ ns, 192 ≤ k) → (s.core core).slot slot = .evicting c →
      slot < (s.core core).slots.length → (t.core core).slot slot = .free
    (¬ Sys2Proof.Claim.WrittenSince (s.crew c) n words → Sys2Proof.Claim.Gives (.evictionWriteback core slot) s (fun t =>
      (t.crew c).evictable = ns ∧ t.mem = s.mem ∧ slotFreed t)) ∧
    (∀ pa s2, Sys2Proof.Claim.WrittenSince (s.crew c) n words → s.access core (s.spaceOf c) at_ true false = (.ok pa, s2) →
      Sys2Proof.Claim.Gives (.evictionWriteback core slot) s (fun t => (t.crew c).evictable = ns ∧
        t.mem = s.mem.writeSys (Sys2Proof.Machine.cellsAt pa (Sys2Proof.Machine.bytesOfWords words)) ∧ slotFreed t)) ∧
    (∀ s2, Sys2Proof.Claim.WrittenSince (s.crew c) n words → s.access core (s.spaceOf c) at_ true false = (.unmapped, s2) →
      Sys2Proof.Claim.Gives (.evictionWriteback core slot) s (fun t => (t.crew c).evictable = n :: ns ∧ (t.crew c).lineHeld = true ∧
        t.mem = s.mem ∧ t.walks.find s.nextId = some (.line c))))

/-- R71, R72, R119, R235, R288, R289, R295, R307: a stopped squad is saved once nothing of it runs, its image is written piece by piece, a
scratch unit going back to the core as it is written, and it is held once its lines are written back; a distributor stops squads of lower
priority for one that waits and fits nowhere; a restored squad is resident on its core with the scratch that stands in its image, its lines
still to be fetched (log 20). -/
def Sys2Proof.Claim.PreemptionEvents : Prop :=
  (∀ s q, s.canSave q = true → (s.squad q).crews.Nodup → Sys2Proof.Claim.Gives (.preEmption q) s (fun t => t.mem = s.mem ∧ (t.squad q).out = true ∧
    (t.squad q).st = .stopping ∧ (t.core (s.squad q).core).engine.holder ≠ some q ∧
    ((s.core (s.squad q).core).engine.holder = some q → (t.squad q).savedEngine = some (s.core (s.squad q).core).engine) ∧
    (t.squad q).pieces = List.range (85 + (s.squad q).allot / 4096) ∧
    ∀ c ∈ (s.squad q).crews, (t.crew c).resident = false ∧ ((s.crew c).retired = false → (t.crew c).evictable =
      (Sys2Proof.Machine.linesToWrite (s.launch (s.squad q).launch).pkt.regs).filter (fun n => !(s.crew c).absent.contains n) ++
        (s.crew c).sliceIn.map (192 + ·)) ∧
      ((s.crew c).retired = false → (s.crew c).resident = true → (∀ n ∈ (t.crew c).evictable, 192 ≤ n) →
        (t.core (s.squad q).core).slot (s.crew c).slot ≠ .evicting c))) ∧
  (∀ s q k ks pa, (s.squad q).st = .stopping → (s.squad q).out = true → (s.squad q).pieces = k :: ks → (s.squad q).saveHeld = none →
    85 ≤ k → s.unitBusy q (k - 85) = false → Sys2Proof.Claim.PieceAt s q k pa →
    Sys2Proof.Claim.Gives (.preEmption q) s (fun t => (t.squad q).pieces = ks ∧ (t.squad q).units = (s.squad q).units.drop 1 ∧
      t.crews = s.crews ∧
      t.mem = s.mem.writeSys (Sys2Proof.Machine.cellsAt pa ((s.squad q).scratch.read (4096 * (k - 85)) 4096)))) ∧
  (∀ s q, s.canHold q = true → Sys2Proof.Claim.Gives (.preEmption q) s (fun t => (t.squad q).st = .held ∧ (t.squad q).units = [] ∧
    t.crews = s.crews)) ∧
  (∀ s q, s.canSave q = false → ¬ ((s.squad q).st = .stopping ∧ (s.squad q).out = true) → Sys2Proof.Claim.Gives (.preEmption q) s (fun t => t = s)) ∧
  (∀ s q core vs, s.waiting q = true → (s.part (s.launch (s.squad q).launch).part).hwPreempt = true →
    (∀ c ∈ s.coresFor q, s.fits q c (s.roomOf c) = false) → s.pickVictims q [] (s.victims q) = some (core, vs) →
    s.squads.keys.Pairwise (· < ·) →
    Sys2Proof.Claim.Gives (.priorityPreEmption q) s (fun t => t.mem = s.mem ∧ t.crews = s.crews ∧ (t.core core).claim = some q ∧
      (∀ v, (t.squad v).st = if v ∈ vs then .stopping else (s.squad v).st) ∧
      ∀ v ∈ vs, (s.squad v).core = core ∧ (s.squad v).pinned = false ∧
        (s.launch (s.squad v).launch).pkt.prio < (s.launch (s.squad q).launch).pkt.prio)) ∧
  (∀ s q core bytes scratch, (s.squad q).st = .held → s.firstIn q core = true → Sys2Proof.Claim.ImageHolds s q bytes scratch →
    (s.squad q).crews.Nodup →
    let same := bytes = (List.range 85).flatMap (s.squad q).freePiece
    let f := Sys2Proof.Machine.Config.squadFrom bytes
    Sys2Proof.Claim.Gives (.squadRestore q core) s (fun t =>
      ((s.readImage q bytes scratch).restoreCaps q core = none → t = s) ∧
      (((s.readImage q bytes scratch).restoreCaps q core).isSome = true → Sys2Proof.Claim.Restored s t q core scratch ∧
        (same → (t.squad q).trapVec = (s.squad q).trapVec ∧ ∀ c ∈ (s.squad q).crews, (t.crew c).image = (s.crew c).image) ∧
        (¬ same → (t.squad q).trapVec = f.squad.trapVec ∧
          ∀ i c, (s.squad q).crews[i]? = some c → (t.crew c).image = f.images.getD i (s.crew c).image))))

namespace Sys2Proof.Claim

open Sys2Proof.Machine

/-! ### Tasks, steals and messages (R284, R291, R310-R313) -/

/-- The oldest of a crew's waiting pulls that something holds of: its operation and its mask. -/
def FirstPull (s : State) (c : Nat) (op : Op) (m : Nat) (p : Nat → Prop) : Prop :=
  p m ∧ ∃ before after, s.pullsOf c = before ++ (op, m) :: after ∧ ∀ x ∈ before, ¬ p x.2

/-- A steal that is under way in a phase. -/
def Stealing (s : State) (x : Steal) (phase : StealPhase) : Prop := s.stealAt x.id = some x ∧ x.phase = phase

/-- The message is on its way, its turn come among the requests between its two stops, first of its sender to its target, and neither queued
nor running. -/
def InFlight (s : State) (m : Message) : Prop :=
  s.messages.find? (fun e => e.id == m.id) = some m ∧ m.queued = false ∧ m.running = none ∧
  s.mayArrive m.id (m.core / 12) (m.target / 12) = true ∧
  ∀ e ∈ s.messages, ¬ (e.core = m.core ∧ e.target = m.target ∧ e.queued = false ∧ e.running = none ∧ e.id < m.id)

/-- A message is dropped: the target runs no squad of the launch, holds no handler slots of it, or the handler is at or beyond NHAND or has MSG 0
(R313). -/
def Dropped (s : State) (m : Message) : Prop :=
  (∀ q ∈ s.squads, ¬ (q.2.launch = m.launch ∧ q.2.core = m.target ∧ (q.2.st = .resident ∨ q.2.st = .stopping))) ∨
  (∀ r, (s.core m.target).reserves.find? (fun r => r.launch == m.launch) = some r → r.handler = []) ∨
  (s.launch m.launch).handlers.length ≤ m.handler ∨ ((s.launch m.launch).handlers[m.handler]?).map Handler.msg = some false

/-- The status of a message's `amsg`. -/
def MessageStatus (s t : State) (m : Message) (w : Word) : Prop :=
  ∀ op r, s.ops.find? (fun op => op.kind == .amsg m.id) = some op → op.dest = .uni [r] → r < 160 →
    (t.crew op.crew).s.get r = w ∧ t.ops = s.ops.filter (fun o => o.id != op.id)

end Sys2Proof.Claim

/-- R230, R291, R310-R312: the oldest waiting pull for which there is an entry takes the head of the lowest queue of its mask, its words land,
the run moves to its stage and time, where the entry's capability becomes the squad's, or is held beside the one that the squad has there, and its
task begins; when the launch is quiescent a pull ends with 0xFFFF0000. A thief that finds nothing of its own asks the first
squad that has an entry to steal; the victim offers the tail and keeps it until the thief acknowledges; the thief queues it when it is
confirmed, and drops its copy when it is stale; a thief that was stopped meanwhile no longer acknowledges; after 2^16 cycles the victim takes it back. -/
def Sys2Proof.Claim.TaskEvents : Prop :=
  (∀ s c op m regs e, (s.squadOf c).ownTask m = some e → Sys2Proof.Claim.FirstPull s c op m (fun m => ((s.squadOf c).ownTask m).isSome = true) →
    op.dest = .uni regs → (s.crew c).resident = true → (s.crew c).retired = false →
    let held := ∃ k ∈ (s.squadOf c).caps, k.stage = e.stage ∧ k.time = e.time
    Sys2Proof.Claim.Gives (.qpullEntryArrives c) s (fun t => t.mem = s.mem ∧ t.ops = s.ops.filter (fun o => o.id != op.id) ∧
      (∃ own, (t.crew c).tasks = (s.crew c).tasks ++ [{ entry := e, own := own }] ∧ (own = true ↔ held)) ∧
      (t.squadOf c).tasks = Sys2Proof.Machine.removeOne e (s.squadOf c).tasks ∧
      (t.crew c).s = ((regs.zip e.words).filter (fun p => p.1 < 160)).foldl (fun r p => r.put p.1 p.2) (s.crew c).s ∧
      (∀ l ∈ op.lanes, l < (s.crew c).threads.length → (s.thread c l).st ≠ .exited →
        (t.thread c l).stage = e.stage ∧ (t.thread c l).time = e.time ∧ (t.thread c l).freed = false) ∧
      (held → ∃ k ∈ (t.squadOf c).caps, k.stage = e.stage ∧ k.time = e.time) ∧
      (¬ held → { stage := e.stage, time := e.time, entry := e.cap } ∈ (t.squadOf c).caps))) ∧
  (∀ s launch c op m regs, (s.launches.find launch).isSome = true → s.quiescent launch = true → s.launchIdOf c = launch →
    op ∈ s.ops → op.crew = c → Sys2Proof.Claim.Waiting s op (.qpull m) regs →
    (∀ o ∈ s.ops, (∃ m, o.kind = .qpull m) → s.launchIdOf o.crew = launch → o = op) → s.ops.Pairwise (fun a b => a.id ≠ b.id) →
    Sys2Proof.Claim.Gives (.quiescence launch) s (fun t =>
      Sys2Proof.Claim.Answers s t op regs (0xFFFF0000#32 :: List.replicate 7 0#32))) ∧
  (∀ s c v op m, Sys2Proof.Claim.FirstPull s c op m (fun m => (s.squadOf c).ownTask m = none ∧ s.victimOf (s.crew c).squad m = some v) →
    (s.squadOf c).st = .resident → (s.crew c).retired = false → (∀ x ∈ s.steals, x.crew ≠ c ∨ x.discarded = true) →
    Sys2Proof.Claim.Gives (.stealRequest c v) s (fun t =>
      t = { s with nextId := s.nextId + 1, steals := s.steals ++ [{ id := s.nextId, crew := c, victim := v, entry := none, mask := m }] })) ∧
  (∀ s x e, Sys2Proof.Claim.Stealing s x .requested → (s.squad x.victim).st = .resident →
    (s.squad x.victim).stealable x.mask = some e → e.offer = none →
    Sys2Proof.Claim.Gives (.stealReply x.id) s (fun t => t = { s with squads := t.squads, steals := t.steals } ∧
      t.stealAt x.id = some { x with phase := .replied, entry := some e, age := 0 } ∧
      ∃ before after, (s.squad x.victim).tasks = before ++ e :: after ∧ e ∉ after ∧
        (t.squad x.victim).tasks = before ++ { e with offer := some x.id } :: after)) ∧
  (∀ s x e, Sys2Proof.Claim.Stealing s x .replied → x.entry = some e → x.discarded = false → s.thiefThere x = true →
    (x.reclaimed = false → (∃ y ∈ (s.squad x.victim).tasks, y.offer = some x.id) →
      (∀ i s2, s.passCap (s.squad x.victim).core (s.coreOf x.crew) (s.launchIdOf x.crew) e = some (i, s2) →
        Sys2Proof.Claim.Gives (.stealAcknowledge x.id) s (fun t => t.mem = s.mem ∧
          t.stealAt x.id = some { x with phase := .confirmed, entry := some { e with cap := i } } ∧
          (t.squad x.victim).tasks = (s.squad x.victim).tasks.filter (fun y => y.offer != some x.id)))) ∧
    (x.reclaimed = true → Sys2Proof.Claim.Gives (.stealAcknowledge x.id) s (fun t => t = { s with steals := t.steals } ∧
      t.stealAt x.id = some { x with phase := .stale }))) ∧
  (∀ s x e, Sys2Proof.Claim.Stealing s x .confirmed → x.entry = some e → s.thiefThere x = true →
    Sys2Proof.Claim.Gives (.stealConfirm x.id) s (fun t => t = { s with squads := t.squads, steals := s.steals.filter (fun y => y.id != x.id) } ∧
      (t.squadOf x.crew).tasks = (s.squadOf x.crew).tasks ++ [{ e with offer := none }])) ∧
  (∀ s x, Sys2Proof.Claim.Stealing s x .stale →
    Sys2Proof.Claim.Gives (.stealConfirm x.id) s (fun t => t = { s with steals := s.steals.filter (fun y => y.id != x.id) })) ∧
  (∀ s x e, Sys2Proof.Claim.Stealing s x .replied → x.entry = some e → x.discarded = true →
    Sys2Proof.Claim.Gives (.stealAcknowledge x.id) s (fun t => t = s)) ∧
  (∀ s x, Sys2Proof.Claim.Stealing s x .replied → x.reclaimed = false → x.discarded = false → 65536 ≤ x.age →
    Sys2Proof.Claim.Gives (.stealReclaim x.id) s (fun t => t = { s with squads := t.squads, steals := t.steals } ∧
      t.stealAt x.id = some { x with reclaimed := true } ∧ ∀ y ∈ (t.squad x.victim).tasks, y.offer ≠ some x.id))

/-- R284, R291: a core that is reset loses its squads' queued entries, counted by stage, and ends their launches with END 3: every thread of
theirs is killed. Its clock and permits are as at reset. -/
def Sys2Proof.Claim.CoresReset : Prop :=
  ∀ s core, s.squads.keys.Pairwise (· < ·) → Sys2Proof.Claim.Gives (.coreReset core) s (fun t =>
    (t.core core).clock = 0#64 ∧ (t.core core).tlb = [] ∧ (t.core core).permits = 4 ∧
    ∀ q ∈ s.squadsOn core, let launch := (s.squad q).launch
      (t.squad q).tasks = [] ∧
      ((s.launches.find launch).isSome = true → (s.launch launch).ending = none → (s.launch launch).ended = false →
        (t.launch launch).ending = some 3 ∧ ∀ c ∈ (s.squad q).crews, ∀ k ∈ (t.crew c).threads, k.st = .exited) ∧
      (s.squadsOn core = [q] → ∀ g, g < 16 → ((t.launch launch).lost.get g) = (s.launch launch).lost.get g +
        BitVec.ofNat 32 ((s.squad q).tasks.filter (fun e => e.stage.toNat == g)).length))

/-- R117, R231, R303, R313: a message is dropped where its target runs no squad of the launch or holds no handler slots of it, or the handler is none for messages, else it
joins the target's queue of 64, and its
`amsg` has its status; the oldest starts in a free handler slot: a crew of 32 threads at the handler, with the payload, the sender's place
and the handler's index in `s0` to `s13`.
That messages between two stops arrive in the order in which they were sent is log 63, and that the registers above `s13` hold the launch's arguments is this model's choice (log 33). -/
def Obligations.MessageEvents : Prop :=
  (∀ s m, Sys2Proof.Claim.InFlight s m → Sys2Proof.Claim.Dropped s m → Sys2Proof.Claim.Gives (.messageArrival m.id) s (fun t =>
    t.mem = s.mem ∧ t.messages = s.messages.filter (fun e => e.id != m.id) ∧ Sys2Proof.Claim.MessageStatus s t m 0x90000000#32 ∧
    ∃ d, t.drops = s.drops ++ [d] ∧ d.core = m.core ∧ d.entry = m.cap)) ∧
  (∀ s m, Sys2Proof.Claim.InFlight s m → ¬ Sys2Proof.Claim.Dropped s m → (s.core m.target).messages.length < 64 →
    Sys2Proof.Claim.Gives (.messageArrival m.id) s (fun t => t.mem = s.mem ∧
      (t.core m.target).messages = (s.core m.target).messages ++ [m.id] ∧ Sys2Proof.Claim.MessageStatus s t m 0x80000000#32 ∧
      t.messages.find? (fun e => e.id == m.id) = some { m with queued := true })) ∧
  (∀ s m, Sys2Proof.Claim.InFlight s m → ¬ Sys2Proof.Claim.Dropped s m → 64 ≤ (s.core m.target).messages.length →
    Sys2Proof.Claim.Gives (.messageArrival m.id) s (fun t => t = s)) ∧
  (∀ s core m rest slot f h, (s.core core).messages = m.id :: rest → s.messages.find? (fun e => e.id == m.id) = some m →
    let k := s.launch m.launch
    k.ending = none → s.keptSlot core m.launch true = some slot → k.freeFrame = some f → k.handlers[m.handler]? = some h →
    m.payload.length ≤ 12 → k.argWords.length ≤ 160 → (s.core core).slots.length = 16 → slot < 16 →
    Sys2Proof.Claim.Gives (.messageHandlerStart core) s (fun t => t.mem = s.mem ∧ (t.core core).messages = rest ∧
      (t.squad s.nextId).kind = .handler ∧ (t.squad s.nextId).launch = m.launch ∧ (t.squad s.nextId).crews = [s.nextId + 1] ∧
      (t.squad s.nextId).allot = 0 ∧ (t.core core).slot slot = .resident (s.nextId + 1) ∧ f ∈ (t.launch m.launch).frames ∧
      Sys2Proof.Claim.Placed (t.crew (s.nextId + 1)) s.nextId 0 slot (k.pkt.crewAddr f 0) h.pc m.stage m.time
        (m.payload ++ List.replicate (12 - m.payload.length) 0#32 ++ [m.sender, BitVec.ofNat 32 m.handler] ++ k.argWords.drop 14)))

namespace Sys2Proof.Claim

open Sys2Proof.Machine

/-! ### Launches and their submission (R299-R309, R318, R319, R325) -/

/-- A submission that is read now, with its packet. -/
def Submitted (s : State) (u : Submission) (bs : List Byte) : Prop :=
  s.submissions.find? (fun v => v.id == u.id) = some u ∧ s.submissionReady u = true ∧
  ({ s with submissions := s.submissions.filter (fun v => v.id != u.id) } : State).packetBytes u = some bs

/-- The submission is gone, its queue's head has moved, and its `lnch` has its status. -/
def Answered (s t : State) (u : Submission) (status : Word) : Prop :=
  t.submissions = s.submissions.filter (fun v => v.id != u.id) ∧
  (∀ q, u.queue = some q → (s.part u.part).queues.length = 8 → q < 8 →
    ((t.part u.part).queue q).head = ((s.part u.part).queue q).head + 1#32) ∧
  ∀ n op r, u.op = some n → s.opAt n = some op → op.dest = .uni [r] → r < 160 →
    (t.crew op.crew).s.get r = status ∧ t.opAt n = none

/-- The rules of a SUMTAB entry (R228). -/
def SumOk (stMask a b w : Nat) : Prop :=
  bitsOf w 18 13 = 0 ∧ (a = b → w = 2 ^ 31) ∧ (a ≠ b → bitsOf w 31 1 = 0 → w = 0) ∧
  (a ≠ b → bitsOf w 31 1 = 1 → (bitsOf w 0 16 = 0 → bitsOf w 16 2 = 0) ∧ stMask.testBit a = true ∧ stMask.testBit b = true)

/-- The packet is refused for a REASON (R301), by its fields (R299) and by the tables that it names (R300). -/
def RefusedFor (s : State) (u : Submission) (bs : List Byte) (reason : Nat) : Prop :=
  let f (at_ lo w : Nat) : Nat := bitsOf (byteField bs at_ 4) lo w
  let p := Packet.ofBytes bs
  let tab := s.readTables u.part p
  let allot := (f 8 0 21 + 4095) / 4096 * 4096
  let txs := (List.range 64).filter (fun k => (byteField bs 0x38 8).testBit k)
  let write (a n : Nat) : Bool := s.mayWrite u.part (f 0xC 16 16) a n
  match reason with
  | 1 =>
    (f 0 0 3 ≠ 0 ∨ f 4 14 2 ≠ 0 ∨ f 4 0 8 ≠ 0 ∨ f 8 21 11 ≠ 0 ∨ f 0xC 0 12 ≠ 0 ∨ f 0x74 8 8 ≠ 0) ∨
    (f 0 28 4 < f 0 24 4 ∨ f 0 17 7 = 0 ∨ 104 < f 0 17 7 ∨ 16 < f 0 12 5 ∨ f 4 10 2 = 3 ∨ 0x100000 < f 8 0 21 ∨ 256 < f 0x70 16 16 ∨
      f 0x70 0 16 = 0 ∨ 160 < f 0x74 0 8 ∨ f 0x68 0 32 % 4 ≠ 0 ∨ byteField bs 0x10 8 % 4 ≠ 0 ∨ byteField bs 0x58 8 % 65536 ≠ 0 ∨
      byteField bs 0x78 8 % 16 ≠ 0 ∨ (f 0x74 16 16).testBit (f 0xC 12 4) = false ∨ (f 0 3 1 = 1 ∧ u.sys = false)) ∨
    (∃ hs i, tab.hand = some hs ∧ i < f 0x70 16 16 ∧
      (byteField hs (16 * i) 8 % 4 ≠ 0 ∨ bitsOf (byteField hs (16 * i + 8) 4) 18 14 ≠ 0 ∨ byteField hs (16 * i + 12) 4 ≠ 0)) ∨
    (∃ ds k, tab.tx = some ds ∧ k < txs.length ∧
      (bitsOf (byteField ds (128 * k) 4) 14 18 ≠ 0 ∨ byteField ds (128 * k + 4) 4 ≠ 0 ∨ byteField ds (128 * k + 60) 4 ≠ 0)) ∨
    ∃ ws a b, tab.sums = some ws ∧ ws ≠ [] ∧ a < 16 ∧ b < 16 ∧ ¬ SumOk (f 0x74 16 16) a b (byteField ws (64 * a + 4 * b) 4)
  | 2 => (s.islandsFor u.part p).length < f 4 8 2 + 1
  | 3 => allot < f 0x68 0 32
  | 4 =>
    tab.sums = none ∨ tab.hand = none ∨ tab.tx = none ∨ tab.simg = none ∨ tab.args = none ∨
    write (byteField bs 0x58 8) (f 0x70 0 16 * (348160 + allot + (f 0 28 4 + 1) * 90112)) = false ∨
    (byteField bs 0x50 8 ≠ 0 ∧ write (byteField bs 0x50 8) (128 + 48 * f 0x6C 0 32) = false) ∨
    (byteField bs 0x78 8 ≠ 0 ∧ write (byteField bs 0x78 8) 16 = false)
  | 5 => ∃ ds k, tab.tx = some ds ∧ k < txs.length ∧
    let x : Tensor := { words := (List.range 32).map (fun i => BitVec.ofNat 32 (byteField (ds.drop (128 * k)) (4 * i) 4)) }
    x.legal = false ∨ x.within allot = false
  | _ => False

/-- The events ring of a partition is off. -/
def NoEvents (s : State) (part : Nat) : Prop := (s.part part).events.log = 0#5

/-- The submissions that a queue's registers stand for: one for each entry from QHEAD to QTAIL, in ring order, the ring's size apart. -/
def QueueHolds (t : State) (part q : Nat) : Prop :=
  let u := (t.part part).queue q
  (t.submissions.filter (fun v => v.part == part && v.queue == some q)).map Submission.addr =
    (if u.err = true ∨ u.log = 0#5 then []
     else (List.range (u.tail - u.head).toNat).map (fun i => u.base + BitVec.ofNat 64 (128 * ((u.head.toNat + i) % 2 ^ u.log.toNat))))

/-- QTAIL runs further ahead of QHEAD than the ring has entries. -/
def tooFar (u : Queue) : Bool := u.log != 0#5 && decide (2 ^ u.log.toNat < (u.tail - u.head).toNat)

/-- A queue of a partition that runs. -/
def QueueThere (s : State) (part q : Nat) : Prop :=
  s.up = true ∧ s.partExists part = true ∧ q < 8 ∧ (s.part part).queues.length = 8

end Sys2Proof.Claim

/-- R301, R304, R308, R309, R319: a packet that keeps every rule becomes a launch with a handle of its own, started where the partition
schedules in hardware; any other is refused, with the lowest of the reasons that apply, and no launch exists. The submission is gone and a `lnch` has its status.
That handles rise in order of acceptance is this model's choice (log 12), and so is what a degraded partition counts (log 54). -/
def Obligations.LaunchesAreAccepted : Prop :=
  ∀ s u bs, Sys2Proof.Claim.Submitted s u bs →
    let p := Sys2Proof.Machine.Packet.ofBytes bs
    let tables := s.readTables u.part p
    ((∀ r, ¬ Sys2Proof.Claim.RefusedFor s u bs r) → Sys2Proof.Claim.Gives (.launchAcceptance u.id) s (fun t =>
      Sys2Proof.Claim.Answered s t u (BitVec.ofNat 32 (2 ^ 31 + (t.launch s.nextId).handle.toNat)) ∧
      (t.launches.find s.nextId).isSome = true ∧ (t.launch s.nextId).pkt = p ∧ (t.launch s.nextId).part = u.part ∧
      (t.launch s.nextId).awaitStart = !(s.part u.part).hwSched ∧ (t.launch s.nextId).ended = false ∧ (t.launch s.nextId).bound = false ∧
      (t.launch s.nextId).argWords = (List.range p.nArgs).map (fun i => BitVec.ofNat 32 (Sys2Proof.Machine.byteField (tables.args.getD []) (4 * i) 4)) ∧
      ((s.part u.part).nextHandle ≠ 0#16 → s.byHandle u.part (s.part u.part).nextHandle = none →
        (t.launch s.nextId).handle = (s.part u.part).nextHandle))) ∧
    (∀ r, Sys2Proof.Claim.RefusedFor s u bs r → (∀ n, n < r → ¬ Sys2Proof.Claim.RefusedFor s u bs n) →
      Sys2Proof.Claim.Gives (.launchAcceptance u.id) s (fun t =>
        t.launches = s.launches ∧ Sys2Proof.Claim.Answered s t u (BitVec.ofNat 32 (2 ^ 31 + 2 ^ 28 + r * 2 ^ 24))))

/-- R305, R306: binding makes the squads of a launch, SQPC for each of its cohorts, each on its cohort's cluster; what a cluster hands down
goes to its cores, each squad to one; a core with room and an empty range takes the later half of the largest range of its cluster. -/
def Sys2Proof.Claim.LaunchesAreBound : Prop :=
  (∀ s launch, s.launchLive launch = true → (s.launch launch).bound = false →
    let p := (s.launch launch).pkt
    let cohorts := s.bindCohorts (s.launch launch).part p
    Sys2Proof.Claim.Gives (.distributorBinding launch) s (fun t => t.mem = s.mem ∧ (t.launch launch).bound = true ∧
      (t.launch launch).cohorts = cohorts ∧
      ∀ i, i < p.sqpc * cohorts.length → t.squad (s.nextId + i) =
        { launch := launch, index := i, cluster := cohorts.getD (i / p.sqpc) 0 })) ∧
  (∀ s launch, s.launchLive launch = false → Sys2Proof.Claim.Gives (.distributorBinding launch) s (fun t => t = s)) ∧
  (∀ cores r, cores ≠ [] → (Sys2Proof.Machine.handDown cores r).flatMap Prod.snd = r) ∧
  (∀ s launch thief v part, s.launchLive launch = true → (s.launch launch).cohorts.contains (thief / 12) = true → s.canSteal launch thief = true →
    (∀ c, c / 12 = thief / 12 → c ≠ thief → s.canSteal launch c = true →
      s.heldHere launch thief < s.heldHere launch c ∨ (s.heldHere launch thief = s.heldHere launch c ∧ thief < c)) →
    (∀ c, c / 12 = thief / 12 → (s.launch launch).headOn c = none ∨ s.room launch c = false) → v ≠ thief →
    (s.launch launch).largest (thief / 12) = some (v, part) →
    Sys2Proof.Claim.Gives (.squadSteal launch thief) s (fun t =>
      (t.launch launch).ranges.find thief = some (part.drop (part.length - (part.length + 1) / 2)) ∧
      (t.launch launch).ranges.find v = some (part.take (part.length - (part.length + 1) / 2))))

/-- R244, R304, R328: a launch that is over ends: its cell tables are free, and its completion record of END, handle, FCOUNT and FOVER is
written, or held where its page is not mapped. One that is not over goes on. -/
def Sys2Proof.Claim.LaunchesEnd : Prop :=
  ∀ s launch, let k := s.launch launch
    let pages := s.pageTable k.part k.pkt.space k.pkt.compl.toNat
    (s.launchOver launch = false → Sys2Proof.Claim.Gives (.launchEnd launch) s (fun t => t = s)) ∧
    (s.launchOver launch = true → Sys2Proof.Claim.NoEvents s k.part →
      (k.pkt.compl = 0#64 → Sys2Proof.Claim.Gives (.launchEnd launch) s (fun t => t.mem = s.mem ∧ (t.launch launch).ended = true)) ∧
      (∀ e, k.pkt.compl ≠ 0#64 → Sys2Proof.Machine.canonical k.pkt.compl.toNat = true → pages = some e → e.w = true →
        Sys2Proof.Claim.Gives (.launchEnd launch) s (fun t => (t.launch launch).ended = true ∧
          t.mem = s.mem.writeSys (Sys2Proof.Machine.cellsAt (e.phys k.pkt.compl.toNat)
            (Sys2Proof.Machine.bytesOfNat 4 (2 ^ 31 + 2 ^ 28 * k.ending.getD 0 + k.handle.toNat) ++ Sys2Proof.Machine.bytesOfNat 4 k.fcount ++
              Sys2Proof.Machine.bytesOfNat 4 (min k.fover 0xFFFFFFFF) ++ Sys2Proof.Machine.bytesOfNat 4 0)) ∧
          ∀ c n, ((t.cluster c).tables.getD n {}).bound ≠ some launch)) ∧
      (k.pkt.compl ≠ 0#64 → Sys2Proof.Machine.canonical k.pkt.compl.toNat = true → pages = none →
        Sys2Proof.Claim.Gives (.launchEnd launch) s (fun t => t.mem = s.mem ∧ (t.launch launch).ended = true ∧
          (t.launch launch).complHeld = true ∧ t.walks.find s.nextId = some (.compl launch))))

/-- R318: a doorbell sets QTAIL and a configuration write QBASE and QLOG; the queue's entries are read in ring order; QERR is set where
QTAIL runs too far ahead or a queue with entries is configured, stops the queue, and is cleared by software. -/
def Sys2Proof.Claim.QueueRegisters : Prop :=
  ∀ s part q, Sys2Proof.Claim.QueueThere s part q →
    let u := (s.part part).queue q
    (∀ tail, Sys2Proof.Claim.Gives (.submissionDoorbell part q tail) s (fun t => t.mem = s.mem ∧ t.launches = s.launches ∧
      (t.part part).queue q = { u with tail := tail, err := u.err || Sys2Proof.Claim.tooFar { u with tail := tail } } ∧
      Sys2Proof.Claim.QueueHolds t part q)) ∧
    (∀ base log, let new := { u with base := base &&& 0xFFFFFFFFFFFFFFC0#64, log := if log.toNat ≤ 16 then log else u.log }
      Sys2Proof.Claim.Gives (.queueConfigWrite part q base log) s (fun t => t.mem = s.mem ∧ t.launches = s.launches ∧
        (t.part part).queue q = { new with err := u.err || u.head != u.tail || Sys2Proof.Claim.tooFar new } ∧
        Sys2Proof.Claim.QueueHolds t part q)) ∧
    Sys2Proof.Claim.Gives (.qerrClear part q) s (fun t => t.mem = s.mem ∧ t.launches = s.launches ∧
      (t.part part).queue q = { u with err := Sys2Proof.Claim.tooFar u } ∧ Sys2Proof.Claim.QueueHolds t part q)

/-- R324, R325: a sample takes the next resident crew of its core in turn and writes its record of 16 bytes at the ring's place: the PC, the
reason, the place of the crew and lane, the launch's handle and the time. A full ring drops it. -/
def Obligations.SamplesAreTaken : Prop :=
  ∀ s core, (s.nextSampled core = none → Sys2Proof.Claim.Gives (.sampleTimer core) s (fun t => t = s)) ∧
    (∀ slot c, s.nextSampled core = some (slot, c) →
      let part := s.partOfCore core
      let ring := (s.part part).samples
      let x := s.sampleOf core c
      (ring.log ≠ 0#5 → (ring.wptr - ring.rptr).toNat ≠ 2 ^ ring.log.toNat → Sys2Proof.Claim.Gives (.sampleTimer core) s (fun t =>
        (t.core core).sampleSlot = (slot + 1) % 16 ∧ (t.part part).samples = { ring with wptr := ring.wptr + 1#32 } ∧ t.crews = s.crews ∧
        t.mem = s.mem.writeSys (Sys2Proof.Machine.cellsAt (ring.base.toNat + 16 * (ring.wptr.toNat % 2 ^ ring.log.toNat))
          (Sys2Proof.Machine.bytesOfWords [x.1.setWidth 32, (x.1 >>> 32).setWidth 32,
            BitVec.ofNat 32 (2 ^ 28 * x.2.2 + 2 ^ 26 * (core / 144) + 2 ^ 22 * (core / 12 % 12) + 2 ^ 18 * (core % 12) + 2 ^ 14 * slot + 2 ^ 9 * x.2.1),
            BitVec.ofNat 32 (2 ^ 16 * (s.launchOf c).handle.toNat + s.stamp part % 2 ^ 16)])))) ∧
      ((ring.wptr - ring.rptr).toNat = 2 ^ ring.log.toNat → ring.log ≠ 0#5 → (s.part part).counters.length = 10 →
        Sys2Proof.Claim.Gives (.sampleTimer core) s (fun t => t.mem = s.mem ∧ (t.core core).sampleSlot = (slot + 1) % 16 ∧
          (t.part part).counters.getD 2 0#64 = (s.part part).counters.getD 2 0#64 + 1#64)))

namespace Sys2Proof.Claim

open Sys2Proof.Machine

/-! ### The host and the module (R130, R139, R142, R291, R295, R316-R326) -/

/-- A partition of a module that runs. -/
def PartThere (s : State) (part : Nat) : Prop := s.up = true ∧ s.partExists part = true

/-- What a write of bytes at an address leaves of a memory, byte by byte. -/
def WrittenTo (m n : Memory) (pa : Nat) (bs : List Byte) : Prop :=
  ∀ a, n.get a = if pa ≤ a ∧ a < pa + bs.length then bs.getD (a - pa) 0#8 else m.get a

end Sys2Proof.Claim

/-- R277, R278, R292, R317: the replay register of a cluster clears its fault buffer and raises its generation, and the end-entry register
empties one entry and kills the threads whose held access lies in its region. -/
def Sys2Proof.Claim.ReplayRegisters : Prop :=
  (∀ s cl, s.up = true → cl < 48 → Sys2Proof.Claim.Gives (.replayRegister cl) s (fun t => (t.cluster cl).gen = (s.cluster cl).gen + 1#8 ∧
    (s.crewsIn cl = [] → s.heldRecords cl = [] → t.mem = s.mem ∧
      (t.cluster cl).faults = List.replicate 8 none ∧ (t.cluster cl).dropped = false))) ∧
  (∀ s cl (i : Sys2Proof.Word), s.up = true → cl < 48 → i.toNat < 8 →
    (((s.cluster cl).faults.getD i.toNat none) = none → Sys2Proof.Claim.Gives (.replayEndEntryRegister cl i) s (fun t => t = s)) ∧
    (∀ e, ((s.cluster cl).faults.getD i.toNat none) = some e → s.crews.keys.Pairwise (· < ·) →
      Sys2Proof.Claim.Gives (.replayEndEntryRegister cl i) s (fun t => ((t.cluster cl).faults.getD i.toNat none) = none ∧
        ∀ c l h, s.coreOf c / 12 = cl → (s.crews.find c).isSome = true → (s.thread c l).held = some h →
          e.space = s.spaceOf c → e.addr.toNat / 65536 = h.addr.toNat / 65536 → (t.thread c l).st = .exited)))

/-- R295, R317, R319, R323, R324: the start register releases a launch that the driver holds; the `ctxs` register pins or unpins a squad and
keeps its state word; a read of a counter's low word latches the high word for its requester alone (which that is, the event does not say: log 2); a register takes what it is written but for its fixed bits. -/
def Sys2Proof.Claim.PartitionRegisters : Prop :=
  ∀ s part, Sys2Proof.Claim.PartThere s part →
    (∀ h k, s.byHandle part h = some k → Sys2Proof.Claim.Gives (.startRegister part h) s (fun t =>
      t = { s with launches := t.launches } ∧ t.launch k = { s.launch k with awaitStart := false } ∧ ∀ j, j ≠ k → t.launch j = s.launch j)) ∧
    (∀ h, s.byHandle part h = none → Sys2Proof.Claim.Gives (.startRegister part h) s (fun t => t = s)) ∧
    (∀ image op, op ≤ 2 → Sys2Proof.Claim.Gives (.hostCtxsRegister part image op) s (fun t => t.mem = s.mem ∧ t.crews = s.crews ∧
      match s.squadAt part image with
      | none => t.squads = s.squads ∧ (t.part part).ctxsValue = 0xC0000000#32
      | some q =>
        (t.squad q).pinned = (if op = 0 then true else if op = 1 then false else (s.squad q).pinned) ∧
        (t.squad q).st = (if op = 0 ∧ (s.squad q).st = .resident then .stopping else (s.squad q).st) ∧
        (t.part part).ctxsValue = (t.squad q).stateWord)) ∧
    (∀ n, n < 10 → Sys2Proof.Claim.Gives (.counterLowRead part n) s (fun t => t = { s with parts := t.parts, fresh := t.fresh } ∧
      let v := (s.part part).counters.getD n 0#64
      t.part part = { s.part part with readValue := v.setWidth 32, latches := (t.part part).latches } ∧
      ∃ requester, (t.part part).highWord n requester = (v >>> 32).setWidth 32 ∧
        ∀ other m, (other ≠ requester ∨ m ≠ n) → (t.part part).highWord m other = (s.part part).highWord m other)) ∧
    (∀ v, let p := s.part part
      let log := fun (old : BitVec 5) => if v.toNat % 32 = 0 ∨ (4 ≤ v.toNat % 32 ∧ v.toNat % 32 ≤ 24) then v.setWidth 5 else old
      let base := v &&& 0xFFFFFFFFFFFFF000#64
      let becomes := fun reg new => Sys2Proof.Claim.Gives (.registerWrite part reg v) s (fun t =>
        t = { s with parts := t.parts } ∧ t.part part = new ∧ ∀ j, j ≠ part → t.part j = s.part j)
      becomes .sptab { p with sptab := base } ∧
      becomes .sampleBase { p with samples := { p.samples with base := base } } ∧
      becomes .samplePeriod { p with samples := { p.samples with period := v.setWidth 8 } } ∧
      becomes .sampleLog { p with samples := { p.samples with log := log p.samples.log } } ∧
      becomes .sampleRptr { p with samples := { p.samples with rptr := v.setWidth 32 } } ∧
      becomes .eventBase { p with events := { p.events with base := base } } ∧
      becomes .eventLog { p with events := { p.events with log := log p.events.log } } ∧
      becomes .eventRptr { p with events := { p.events with rptr := v.setWidth 32 } })

/-- R130, R139, R142: a host write is in every view at once, and makes clean the poisoned lines that it covers; an AtomicOp of the host
returns the old value and leaves its result in every view, and nothing where the line is poisoned. -/
def Sys2Proof.Claim.HostAccesses : Prop :=
  (∀ s pa bs, s.up = true → s.mem.views.length = 4 → Sys2Proof.Claim.Gives (.hostMemoryWrite pa bs) s (fun t =>
    t = { s with mem := t.mem } ∧ Sys2Proof.Claim.WrittenTo s.mem.home t.mem.home pa bs ∧
    (∀ i, i < 4 → Sys2Proof.Claim.WrittenTo (s.mem.view i) (t.mem.view i) pa bs) ∧
    ∀ n, n ∈ t.mem.poison ↔ n ∈ s.mem.poison ∧ ¬ (pa ≤ 128 * n ∧ 128 * n + 128 ≤ pa + bs.length))) ∧
  (∀ s pa op wide x y, let n := if wide = true then 8 else 4
    s.up = true → s.mem.views.length = 4 → pa % n = 0 →
    let old := Sys2Proof.Machine.natOfBytes (s.mem.home.read pa n)
    let new : Nat := match op with
      | .fetchAdd => (old + x.toNat) % 2 ^ (8 * n)
      | .swap => x.toNat % 2 ^ (8 * n)
      | .cas => if old = x.toNat % 2 ^ (8 * n) then y.toNat % 2 ^ (8 * n) else old
    (s.mem.poisoned pa n = false → Sys2Proof.Claim.Gives (.hostAtomicOp pa op wide x y) s (fun t =>
      t = { s with mem := t.mem, hostValue := BitVec.ofNat 64 old } ∧
      ∀ i, i < 4 → Sys2Proof.Claim.WrittenTo (s.mem.view i) (t.mem.view i) pa (Sys2Proof.Machine.bytesOfNat n new))) ∧
    (s.mem.poisoned pa n = true → Sys2Proof.Claim.Gives (.hostAtomicOp pa op wide x y) s (fun t => t = s)))

/-- R316, R321, R326: a power cap of at most 3,000 W, a throttled island, a trained link and a gated core are as they are set; an
attestation report of 160 bytes, its nonce first, is signed with the key of the counter's old value (log 9), until the 65,536 keys are used up.
What the report's unpublished bytes hold is free, and what a signature is follows the standards that the names stand for (log 9); which link rates there are, and that an answer comes in a later cycle unless the module is reset before, is this model's reading (log 43). -/
def Obligations.PowerAndAttestation : Prop :=
  (∀ s w, s.up = true → w ≤ 3000 → Sys2Proof.Claim.Gives (.powerCapSet w) s (fun t => t = { s with powerCap := w })) ∧
  (∀ s i low, s.up = true → i < 4 → Sys2Proof.Claim.Gives (.clockThrottle i low) s (fun t => t = { s with throttled := t.throttled } ∧
    ∀ j, j ∈ t.throttled ↔ (if j = i then low = true else j ∈ s.throttled))) ∧
  (∀ s link width rate, s.powered = true → link < 6 → width ∈ [1, 2, 4, 8, 16] → rate ∈ [2, 5, 8, 16, 32, 64, 128] → s.links.length = 6 →
    Sys2Proof.Claim.Gives (.linkTraining link width rate) s (fun t => t = { s with links := t.links } ∧ t.links.length = 6 ∧
      t.links[link]? = some { width := width, rate := rate } ∧ ∀ j, j ≠ link → t.links[j]? = s.links[j]?)) ∧
  (∀ s core gated, s.up = true → core < 576 → Sys2Proof.Claim.Gives (.powerGating core gated) s (fun t => t.mem = s.mem ∧ t.crews = s.crews ∧
    (∀ j, j ∈ t.gated ↔ (if j = core then gated = true else j ∈ s.gated)) ∧
    (gated = true → ∀ x ∈ t.steals, s.coreOf x.crew = core → x.phase = .replied ∧ x.discarded = true))) ∧
  (∀ s nonce, s.up = true → nonce.length = 32 → s.attIndex < 65536 → Sys2Proof.Claim.Gives (.attestationRequest nonce) s (fun t =>
    t = { s with attIndex := s.attIndex + 1, attPending := t.attPending } ∧ ∃ a, t.attPending = s.attPending ++ [a] ∧
      a.nonce = nonce ∧ a.digest = s.fwDigest ∧ a.rom = s.romVersion ∧ a.layout = s.split ∧ a.spares = s.spares ∧ a.key = s.attIndex ∧
      a.body.length = 160 ∧ a.body.take 32 = nonce)) ∧
  (∀ (s : Sys2Proof.Machine.State) a rest, s.attPending = a :: rest → let t := s.tick
    (t.attPending = s.attPending ∧ t.attReports = s.attReports) ∨ (t.attPending = rest ∧ t.attReports = s.attReports ++ [a])) ∧
  (∀ (s : Sys2Proof.Machine.State) (a : Sys2Proof.Machine.Attestation), a.key < 65536 → s.devicePublic.verifies 16 a.body (s.signature a).bytes = true) ∧
  (∀ s nonce, s.up = true → nonce.length = 32 → 65536 ≤ s.attIndex → Sys2Proof.Claim.Gives (.attestationRequest nonce) s (fun t =>
    t = { s with attExhausted := true }))

/-- R130, R279, R291, R316, R317, R319-R323: a module reset leaves every register as at reset, under the split asked for, with the keys and the
key counter kept, and verifies the firmware image; a loss of power ends everything else; setting up a partition sets its modes, binds its
queues, interrupts and window each to a link to the host (which, log 2), restarts its counters, and in hardware mode starts the fault-service
crews (log 38); an uncorrectable error
poisons its line or its word. What a reset leaves of memory is the model's choice (log 3).
That memory keeps its contents over a module reset and loses them with the power is this model's choice (log 3), not the spec's. -/
def Obligations.ResetsAndErrors : Prop :=
  (∀ s split image, Sys2Proof.Claim.Gives (.moduleReset split image) s (fun t => t.split = split ∧
    (let digest := Sys2Proof.Machine.shake256 t.fwImage
     t.fwDigest = BitVec.ofNat 256 (Sys2Proof.Machine.natOfBytes digest) ∧ t.bootfail = !t.romKey.verifies 20 digest t.fwSignature) ∧
    (image = false → t.fwImage = s.fwImage ∧ t.fwSignature = s.fwSignature) ∧ t.romKey = s.romKey ∧ t.deviceSecret = s.deviceSecret ∧
    t.devicePublic = s.devicePublic ∧ t.deviceCert = s.deviceCert ∧ t.attPending = [] ∧ t.attIndex = s.attIndex ∧ t.attExhausted = s.attExhausted ∧ t.powered = true ∧ t.agenda = [] ∧ t.cur = none ∧ t.crews = [] ∧ t.squads = [] ∧
    t.launches = [] ∧ t.cores = [] ∧ t.clusters = [] ∧ t.parts = [] ∧ t.ops = [] ∧ t.jobs = [] ∧ t.attReports = [] ∧ t.powerCap = 3000 ∧
    t.mem.home = s.mem.home ∧ t.mem.poison = s.mem.poison ∧ t.mem.pend = [] ∧ ∀ i, i < 4 → t.mem.view i = s.mem.home)) ∧
  (∀ s, Sys2Proof.Claim.Gives .powerLoss s (fun t => t.powered = false ∧ t.attIndex = s.attIndex ∧ t.attPending = [] ∧ t.mem = {} ∧ t.launches = [] ∧ t.crews = [] ∧
    t.submissions = [])) ∧
  (∀ s part f p h, Sys2Proof.Claim.PartThere s part → Sys2Proof.Claim.Gives (.partitionSetup part f p h) s (fun t =>
    t.mem = s.mem ∧ t.part part = { s.part part with
      hwFault := f, hwPreempt := p, hwSched := h, counters := List.replicate 10 0#64, latches := []
      queueLink := (t.part part).queueLink, irqLink := (t.part part).irqLink, windowLink := (t.part part).windowLink } ∧
    (t.part part).queueLink < 2 ∧ (t.part part).irqLink < 2 ∧ (t.part part).windowLink < 2 ∧
    (f = true → ∀ cl, cl < 48 → s.partOfCore (12 * cl) = part → (s.core (12 * cl)).slots.length = 16 →
      (s.core (12 * cl)).slot 15 = .free → 12 * cl ∉ s.offline →
      ∃ c, (t.core (12 * cl)).slot 15 = .resident c ∧ (t.squadOf c).kind = .service ∧ (t.crew c).resident = true) ∧
    (f = false → (∀ k d, s.serviceCrew k = some d → s.coreOf d = k) → ∀ cl c, cl < 48 → s.partOfCore (12 * cl) = part → s.serviceCrew (12 * cl) = some c →
      ∀ k ∈ (t.crew c).threads, k.st = .exited))) ∧
  (∀ s pa, Sys2Proof.Claim.Gives (.uncorrectableError (.line pa)) s (fun t => t = { s with mem := { s.mem with poison := t.mem.poison } } ∧
    ∀ n, n ∈ t.mem.poison ↔ n = pa / 128 ∨ n ∈ s.mem.poison)) ∧
  (∀ s q w, (s.squads.find q).isSome = true → 4 * w < (s.squad q).allot →
    Sys2Proof.Claim.Gives (.uncorrectableError (.scratch q w)) s (fun t => t = { s with squads := t.squads } ∧
      t.squad q = { s.squad q with scratchPoison := (t.squad q).scratchPoison } ∧
      ∀ n, n ∈ (t.squad q).scratchPoison ↔ n = w ∨ n ∈ (s.squad q).scratchPoison)) ∧
  (∀ s c l w, (s.crews.find c).isSome = true → l < (s.crew c).threads.length → w < 512 →
    Sys2Proof.Claim.Gives (.uncorrectableError (.slice c l w)) s (fun t => t = { s with crews := t.crews } ∧
      t.thread c l = { s.thread c l with slicePoison := (t.thread c l).slicePoison } ∧
      ∀ n, n ∈ (t.thread c l).slicePoison ↔ n = w ∨ n ∈ (s.thread c l).slicePoison))

namespace Sys2Proof.Claim

open Sys2Proof.Machine

/-! ### The machine as a whole -/

/-- Words decode to an instruction of `n` words. -/
def DecodesTo (ws : List Word) (i : Instr) (n : Nat) : Prop := ∃ d, decodeWords ws = .ok (d, n) ∧ d.instr = i

/-- Of each crew, the fetched lines that stand otherwise than they were fetched have been written; nothing else of it changes (R72, log 20). -/
def Noted (t u : State) : Prop :=
  ∀ c, u.crew c = { t.crew c with wrote := (u.crew c).wrote } ∧
    ∀ n, n ∈ (u.crew c).wrote ↔ n ∈ (t.crew c).wrote ∨
      ∃ words, (n, words) ∈ (t.crew c).fetched ∧ (t.crew c).lineWords (t.squad (t.crew c).squad).image n ≠ words

/-- The run of a crew that has just had its word, with the PC of that, if the lanes of it do not all stand stalled at the word. -/
def HasIssued (t : State) (c : Nat) (lanes : List Nat) : Prop :=
  ∃ pc, ((t.core (t.coreOf c)).issuedPc.find? (fun e => e.1 == c)) = some (c, lanes, pc) ∧
    ∃ l ∈ lanes, (t.thread c l).stall = none ∨ (t.thread c l).pc ≠ pc

/-- All lanes of the run of a crew that has just had its word stand stalled at it. -/
def HasStood (t : State) (c : Nat) : Prop :=
  ∃ lanes pc, ((t.core (t.coreOf c)).issuedPc.find? (fun e => e.1 == c)) = some (c, lanes, pc) ∧
    ∀ l ∈ lanes, (t.thread c l).stall ≠ none ∧ (t.thread c l).pc = pc

/-- After a word the arbiters go on. Where its crew has issued it, the starvation counts of the threads outside the run rise, or are 0 for those
that are not ready, and one that reaches 1,024 is to be promoted (R57); where the whole run stands stalled at it, the crew does not count as
having issued in this cycle (R325). -/
def WordOver (t u : State) : Prop :=
  ∃ v : State, v = { t with cur := none, cores := v.cores, crews := v.crews, agenda := v.agenda } ∧ Noted v u ∧ u = { v with crews := u.crews } ∧
    (∀ core, v.core core = { t.core core with issuedPc := (v.core core).issuedPc } ∧
      ∀ e, e ∈ (v.core core).issuedPc ↔ e ∈ (t.core core).issuedPc ∧ ¬ (t.cur = some e.1 ∧ core = t.coreOf e.1 ∧ HasStood t e.1)) ∧
    (∀ c, (∀ l, v.thread c l = { t.thread c l with starve := (v.thread c l).starve, promoted := (v.thread c l).promoted }) ∧
      v.crew c = { t.crew c with threads := (v.crew c).threads } ∧ (v.crew c).threads.length = (t.crew c).threads.length) ∧
    (∀ c l, (¬ ∃ lanes, t.cur = some c ∧ HasIssued t c lanes ∧ l ∉ lanes) → v.thread c l = t.thread c l) ∧
    (∀ c lanes, t.cur = some c → HasIssued t c lanes →
      let other := (List.range (t.crew c).threads.length).filter (fun l => !lanes.contains l)
      (∀ l ∈ other, (t.ready c l = true → (v.thread c l).starve = (t.thread c l).starve + 1 ∧ (v.thread c l).promoted = (t.thread c l).promoted) ∧
        (t.ready c l = false → (v.thread c l).starve = 0 ∧ (v.thread c l).promoted = false)) ∧
      v.agenda = t.agenda ++ (other.filter (fun l => t.ready c l && decide (1024 ≤ (t.thread c l).starve + 1) && !(t.thread c l).promoted)).map
        (Sys2Proof.Event.starvationPromotion c)) ∧
    ((¬ ∃ c lanes, t.cur = some c ∧ HasIssued t c lanes) → v.agenda = t.agenda)

/-- Global memory is in canonical form: its home contents and the view of every island. -/
def MemoryCanonical (s : State) : Prop := s.mem.home.wf = true ∧ ∀ m ∈ s.mem.views, m.wf = true

/-- Squad scratch and thread slices are in canonical form. -/
def LocalCanonical (s : State) : Prop :=
  (∀ p ∈ s.squads, p.2.scratch.wf = true) ∧ ∀ p ∈ s.crews, ∀ k ∈ p.2.threads, k.slice.wf = true

/-- Each view follows the home order (R129, R134): a byte that no write on its way to the view covers is as in the home contents, and where
some do, the last of them in the home order brings what the home contents hold. Writes on their way are numbered by place and view. -/
def ViewsFollow (s : State) : Prop :=
  s.mem.views.length = 4 ∧ s.mem.pend.Pairwise (fun a b => a.id ≠ b.id) ∧
  (∀ w ∈ s.mem.pend, w.dst < 4 ∧ w.order < s.mem.seq ∧ w.id = 4 * w.order + w.dst) ∧
  ∀ d a, d < 4 →
    ((∀ w ∈ s.mem.pend, w.dst = d → ∀ c ∈ w.cells, c.1 ≠ a) → (s.mem.view d).get a = s.mem.home.get a) ∧
    ∀ w ∈ s.mem.pend, w.dst = d → (∃ c ∈ w.cells, c.1 = a) →
      (∀ v ∈ s.mem.pend, v.dst = d → w.order < v.order → ∀ c ∈ v.cells, c.1 ≠ a) → (Memory.writeCells [] w.cells).get a = s.mem.home.get a

/-- What the machine has of each thing: four islands, six links, 16 slots a core, eight queues and ten counters a partition, 32 threads a
crew and five ports a thread; crews and squads stand in order of number. -/
def Shapes (s : State) : Prop :=
  s.mem.views.length = 4 ∧ s.mem.clocks.length = 4 ∧ s.links.length = 6 ∧ s.crews.keys.Pairwise (· < ·) ∧ s.squads.keys.Pairwise (· < ·) ∧
  (∀ p ∈ s.cores, p.2.slots.length = 16) ∧ (∀ p ∈ s.parts, p.2.queues.length = 8 ∧ p.2.counters.length = 10) ∧
  ∀ p ∈ s.crews, (p.2.threads.length = 0 ∨ p.2.threads.length = 32) ∧ ∀ k ∈ p.2.threads, k.ports.length = 5

end Sys2Proof.Claim

/-- R14, R50, R63, R133, R278, R281, R317-R319, R321, R323, R324, R326: right after reset nothing runs and nothing is on its way; slots, count
tables, fault buffers, queues, counters and rings are empty; clocks are 0; permits are four; there is one partition, in host-assisted modes; the power cap is 3,000 W. The values
that spec/ does not give are named in log 5. The invariants of this file hold.
Where the spec gives no reset value the value is this model's choice (log 5), and what an unlisted byte reads as is log 3. -/
def Obligations.ResetState : Prop :=
  let s := Sys2Proof.Machine.State.reset
  s.cur = none ∧ s.agenda = [] ∧ s.ops = [] ∧ s.jobs = [] ∧ s.launches = [] ∧ s.squads = [] ∧ s.crews = [] ∧ s.submissions = [] ∧
  s.up = true ∧ s.split = .one ∧ s.powerCap = 3000 ∧ s.attIndex = 0 ∧ s.throttled = [] ∧ s.gated = [] ∧
  (∀ c, (s.core c).slots = List.replicate 16 .free ∧ (s.core c).clock = 0#64 ∧ (s.core c).permits = 4 ∧ (s.core c).table = [] ∧
    (s.core c).tlb = [] ∧ (s.core c).engine.holder = none ∧ (s.core c).session = none) ∧
  (∀ c, (s.cluster c).faults = List.replicate 8 none ∧ (s.cluster c).dropped = false ∧ (s.cluster c).gen = 0#8 ∧ (s.cluster c).tlb = []) ∧
  (∀ p, (s.part p).hwFault = false ∧ (s.part p).hwPreempt = false ∧ (s.part p).hwSched = false ∧ (s.part p).sptab = 0#64 ∧
    (s.part p).queues = List.replicate 8 { base := 0#64, log := 0#5, head := 0#32, tail := 0#32, err := false } ∧
    (s.part p).counters = List.replicate 10 0#64 ∧
    (s.part p).samples = { base := 0#64, period := 0#8, log := 0#5, wptr := 0#32, rptr := 0#32 } ∧
    (s.part p).events = { base := 0#64, period := 0#8, log := 0#5, wptr := 0#32, rptr := 0#32 }) ∧
  (∀ i a, (s.mem.view i).get a = s.mem.home.get a) ∧ s.mem.pend = [] ∧
  Sys2Proof.Claim.MemoryCanonical s ∧ Sys2Proof.Claim.LocalCanonical s ∧ Sys2Proof.Claim.ViewsFollow s ∧ Sys2Proof.Claim.Shapes s ∧ Sys2Proof.Claim.RunsFit s

/-- R20-R28: the words of the worked examples of spec/ decode to the instructions that stand beside them. -/
def Obligations.DecodedWords : Prop :=
  Sys2Proof.Claim.DecodesTo [0x00010403#32] (.add false (.v 1) (.v 2) (.lane (.v 3))) 1 ∧
  Sys2Proof.Claim.DecodesTo [0x10050887#32] (.shl false (.v 5) (.v 4) (.s 7)) 1 ∧
  Sys2Proof.Claim.DecodesTo [0x1402FE06#32] (.clz false (.v 2) (.lane (.v 6))) 1 ∧
  Sys2Proof.Claim.DecodesTo [0x29091147#32] (.udiv false (.v 9) (.v 8) (.imm 39)) 1 ∧
  Sys2Proof.Claim.DecodesTo [0x3D080C07#32] (.ffmaRz false (.v 8) (.v 6) (.lane (.v 7))) 1 ∧
  Sys2Proof.Claim.DecodesTo [0x6B0806FF#32] (.stsB64 false (.v 8) (.v 3) (.units 0x3F#6)) 1 ∧
  Sys2Proof.Claim.DecodesTo [0x7D080B40#32] (.pldrB128 (.v 8) true (.imm 32)) 1 ∧
  Sys2Proof.Claim.DecodesTo [0x7E7F2943#32] (.pret (.v 20) 3#3) 1 ∧
  Sys2Proof.Claim.DecodesTo [0x257AFE04#32] (.mov false (.port .east) (.lane (.v 4))) 1 ∧
  Sys2Proof.Claim.DecodesTo [0x800301C5#32] (.sadd (.s 3) (.s 1) (.const 5)) 1 ∧
  Sys2Proof.Claim.DecodesTo [0xA514A8FF#32, 0x12345678#32] (.smov (.s 20) (.lit 0x12345678#32)) 2 ∧
  Sys2Proof.Claim.DecodesTo [0xABA1A009#32] (.skand (.k 1) (.k 0) (.s 9)) 1 ∧
  Sys2Proof.Claim.DecodesTo [0xB40405FF#32, 0x00000100#32] (.scpy (.s 4) (.s 5) (.lit 256#32)) 2 ∧
  Sys2Proof.Claim.DecodesTo [0xC40210A8#32] (.mma (.s 2) (.s 16)) 1 ∧
  Sys2Proof.Claim.DecodesTo [0xCCA8A8C0#32] (.btnPass .zero) 1 ∧
  Sys2Proof.Claim.DecodesTo [0xDCC2C106#32] (.ftwait 2#4 (.const 1) (.s 6)) 1 ∧
  Sys2Proof.Claim.DecodesTo [0xF3A8A8A8#32] .brk 1 ∧
  Sys2Proof.Claim.DecodesTo [0xF601A8C0#32] (.rplyReplayAll (.s 1)) 1

/-- R14, R20, R55, R57: a step runs the event that is due; with none due, the word at which the issuing run stands, decoded: `exec` of that
instruction, after which the arbiters go on and starvation is counted; what an event or a word leaves written of fetched lines is noted (log 20); words that decode to none raise ILLEGAL_OP, or ILLEGAL_OPERAND for a reserved field. -/
def Obligations.StepRunsDecodedWord : Prop :=
  (∀ s (e : Sys2Proof.Event) rest t, s.agenda = e :: rest → Sys2Proof.Machine.exec e.instr { s with agenda := rest } = .next t →
    ∃ u, Sys2Proof.Machine.step s = .next u ∧ Sys2Proof.Claim.Noted t u ∧ u = { t with crews := u.crews }) ∧
  (∀ s x i n t, s.agenda = [] → s.issuer = some x → Sys2Proof.Claim.DecodesTo (x.run.words.drop x.run.idx) i n →
    Sys2Proof.Machine.exec i s = .next t → ∃ u, Sys2Proof.Machine.step s = .next u ∧ Sys2Proof.Claim.WordOver t u) ∧
  (∀ s x e, s.agenda = [] → s.issuer = some x → Sys2Proof.Claim.RunsFit s → Sys2Proof.decodeWords (x.run.words.drop x.run.idx) = .error e →
    ∃ t u, Sys2Proof.Machine.step s = .next u ∧ Sys2Proof.Claim.WordOver t u ∧
      Sys2Proof.Claim.RunParked s t x (if e = .badField then .illegalOperand else .illegalOp) 0#64) ∧
  (∀ s, s.agenda = [] → s.issuer = none → ∃ t, Sys2Proof.Machine.step s = .next t)

/-- R20-R28: the words of every well-formed instruction, whatever follows them, decode to it and to their own number; and words that decode
to an instruction are its words: no bit of an encoding is dropped, and no two encodings mean one instruction. -/
def Obligations.EncodeThenDecode : Prop :=
  (∀ i rest, Sys2Proof.Instr.wf i = true → Sys2Proof.Instr.isWord i = true →
    Sys2Proof.Claim.DecodesTo (Sys2Proof.encode i ++ rest) i (Sys2Proof.encode i).length) ∧
  (∀ ws i n, Sys2Proof.Claim.DecodesTo ws i n → Sys2Proof.Instr.wf i = true ∧ Sys2Proof.Instr.isWord i = true ∧
    n ≤ ws.length ∧ Sys2Proof.encode i = ws.take n)

/-- Global memory stays in canonical form: no step leaves an entry of the home contents or of a view out of order or equal to what an
unlisted byte reads as. -/
def Obligations.StepKeepsMemoryCanonical : Prop :=
  ∀ s t, Sys2Proof.Claim.MemoryCanonical s → Sys2Proof.Machine.step s = .next t → Sys2Proof.Claim.MemoryCanonical t

/-- R129, R134: no step lets a view depart from the home order: once no write to a byte is on its way to a view, the view has what the home
slice holds, whatever order the writes arrived in. -/
def Obligations.StepKeepsViewsFollowing : Prop :=
  ∀ s t, Sys2Proof.Claim.ViewsFollow s → Sys2Proof.Machine.step s = .next t → Sys2Proof.Claim.ViewsFollow t

/-- Scratch and slices stay in canonical form. -/
def Obligations.StepKeepsLocalCanonical : Prop :=
  ∀ s t, Sys2Proof.Claim.LocalCanonical s → Sys2Proof.Machine.step s = .next t → Sys2Proof.Claim.LocalCanonical t

/-- R10, R50, R129, R151, R316, R318, R323: no step changes how many of each thing the machine has. -/
def Obligations.StepKeepsShapes : Prop :=
  ∀ s t, Sys2Proof.Claim.Shapes s → Sys2Proof.Machine.step s = .next t → Sys2Proof.Claim.Shapes t

/-- R10, R55: runs stay runs: a run in progress is of some lanes of its crew, in ascending order. -/
def Obligations.StepKeepsRunsFit : Prop :=
  ∀ s t, Sys2Proof.Claim.RunsFit s → Sys2Proof.Machine.step s = .next t → Sys2Proof.Claim.RunsFit t

/-- R16, R42, R129, R143: no instruction word changes global memory as it issues: every access is performed by an event later. `rply` in mode
0 alone may let a completion record be written. No word changes the split, the links, the power cap, the key counter or which cores run. -/
def Obligations.WordsLeaveMemory : Prop :=
  ∀ i s t, Sys2Proof.Instr.isWord i = true → Sys2Proof.Machine.exec i s = .next t →
    ((∀ d, i ≠ .rplyReplayAll d) → t.mem = s.mem) ∧
    t.split = s.split ∧ t.links = s.links ∧ t.powerCap = s.powerCap ∧ t.attIndex = s.attIndex ∧ t.gated = s.gated ∧ t.offline = s.offline ∧
    t.throttled = s.throttled ∧ t.bootfail = s.bootfail ∧ t.powered = s.powered


/-! ### Families of statements -/

/-- R16, R22-R25, R29, R34, R35, R70, R123, R124, R143-R145, R155, R158, R276, R281: loads, stores and atomics as they issue: what stops the word for its run, what each access meets (a trap, a held page fault, a back-off, or its start), and data that is taken from a port or goes to one.
That a local address that wraps, either way, is beyond every limit is this model's reading (log 68). -/
def Obligations.MemoryWordsStartAccesses : Prop := Sys2Proof.Claim.MemoryWordsStartAccessesCases ∧ Sys2Proof.Claim.MemoryWordsStop ∧ Sys2Proof.Claim.MemoryWordsMeet ∧ Sys2Proof.Claim.MemoryWordsUsePorts

/-- R76-R78: shifts by any amount, bit fields of any position and width, and byte permutation, for every value of their operands. -/
def Obligations.ShiftAndFieldWords : Prop := Sys2Proof.Claim.ShiftAmounts ∧ Sys2Proof.Claim.BitFields ∧ Sys2Proof.Claim.BytePermute ∧ Sys2Proof.Claim.ShiftAndFieldWordsRun

/-- R86-R98, R102-R113: the values and flags of the FP32, FP16, conversion, quantising and dot-product functions, said by the fields of their codes; `fmin`, `fmax` and `fcmp` as lane words. The model's choices where the spec leaves a value or a flag open are those of logs 8, 58, 59 and 60.
Where an approximate function has only an error bound the value is free within it (logs 8, 60). -/
def Obligations.FloatOrder : Prop := Sys2Proof.Claim.FloatOrderCases ∧ Sys2Proof.Claim.FloatArithmetic ∧ Sys2Proof.Claim.ApproximatesAndDots ∧ Sys2Proof.Claim.NarrowConversions

/-- R84, R121, R262: uniform loads, and a pair thread's loads of its records, start as operations that a flag counts. -/
def Obligations.UniformAndPairLoadsStart : Prop := Sys2Proof.Claim.UniformLoadsStart ∧ Sys2Proof.Claim.PairLoadsStart

/-- R15, R18, R27, R58: where each control transfer sends the threads of its run. -/
def Obligations.ControlTransfers : Prop := Sys2Proof.Claim.BranchesMove ∧ Sys2Proof.Claim.CallsAndJumpsMove

/-- R18, R27, R60, R65, R263: a word that must end its clause, `nap`, `pret` and a branch on a port among them, raises ILLEGAL_OP where it does not; `trap` and `brk` park their run.
That an operand is checked before a word's place in its clause is this model's reading (log 14), and so is the trap of a call through `zero` (log 29). -/
def Obligations.EndWordsAndTraps : Prop := Sys2Proof.Claim.EndWordsMustEnd ∧ Sys2Proof.Claim.ProgramTraps

/-- R164, R165: `ppk` and `pfls` on queues with and without entries, and a peek of a port whose feeder is gone. -/
def Obligations.PortQueueWords : Prop := Sys2Proof.Claim.PortQueueWordsCases ∧ Sys2Proof.Claim.PeekDisconnected

/-- R168-R171, R176, R177: `xld` registers the ranges of its run's threads, and `xdeal` gives each thread its next flat index, sealing a loading session first and closing an open iteration. -/
def Obligations.ExpandLoadsAndDeals : Prop := Sys2Proof.Claim.ExpandLoads ∧ Sys2Proof.Claim.ExpandDeals

/-- R170-R174, R178-R180: `xred` closes an iteration, its index now closed in the session or applied, with its term; `xend` closes the session, and `xst` reads the unit's state. -/
def Obligations.ExpandReducesAndEnds : Prop := Sys2Proof.Claim.ExpandReduces ∧ Sys2Proof.Claim.ExpandEnds

/-- R181, R182, R190: `tdef`, `txrd`, `tfree`, and the words of the baton. -/
def Obligations.TensorAndBatonWords : Prop := Sys2Proof.Claim.TensorIdentifierWords ∧ Sys2Proof.Claim.BatonWords

/-- R254, R255, R263: `plnch` queues a pair launch, and `pret` returns a pair's force.
That the launch that a core works on is one of its four is this model's choice (log 76). -/
def Obligations.PairLaunchWords : Prop := Sys2Proof.Claim.PairLaunchesQueue ∧ Sys2Proof.Claim.PairReturns

/-- R309, R311-R313: `lnch`, `amsg`, `qpush` and `qpull`.
In which core's count table `qpush` needs room, which squads ANY names, and that `qpull` passes over entries offered to a thief are this model's choices (log 34). -/
def Obligations.LaunchAndTaskWords : Prop := Sys2Proof.Claim.LaunchesAndMessagesLeave ∧ Sys2Proof.Claim.TaskWords

/-- R231, R232, R239: `ltset` and `ltinc` move the run's threads in time; `ltcap` and `ltdrop` count the program's capabilities. -/
def Obligations.TimeWords : Prop := Sys2Proof.Claim.TimeMoves ∧ Sys2Proof.Claim.ProgramCapabilities

/-- R42, R277, R278, R292-R295: who may issue a system word, and what each does.
That operands are checked first, then the right to issue the word, then values, is this model's reading (log 14). Which of several squads with one image address `ctxs` names is log 79. -/
def Obligations.SystemWords : Prop := Sys2Proof.Claim.SystemWordsAreGuarded ∧ Sys2Proof.Claim.SystemWordsAct

/-- R121-R147: how accesses of global memory, scratch and slices are performed, atomics with the value that each operation leaves; which writes stand before one at device or system scope (logs 10, 11, 47), what a fence waits for (log 18), and what is one moment (logs 6, 47), are the model's choices where the spec leaves them open.
In which order the words of a fill or a scratch copy are moved is free (log 2), and which slices a uniform `stp` writes is log 50; a write at device or system scope waits for its island's causal past (logs 10, 11) and is one moment in all views (log 47); what a fence waits for is log 18. -/
def Obligations.AccessEvents : Prop := Sys2Proof.Claim.GlobalAccessEvents ∧ Sys2Proof.Claim.LocalAccessEvents

/-- R151-R160, R206, R226, R241, R252, R253: what arrives at ports and in uniform registers.
That an entry of a new sender waits in flight where a former sender's fill the queue is log 66; what `cfind` counts (log 36) and waits for (log 53), and in which order entries between two stops land (log 63), are this model's choices, as is whether a build counts among copy jobs (log 70). -/
def Obligations.ResultsThatArrive : Prop := Sys2Proof.Claim.PortEvents ∧ Sys2Proof.Claim.ElectedResultsLand

/-- R50-R53, R70-R72, R114, R119, R287-R289, R302-R307: a squad from its placement to its retirement, with what goes to its images and comes back from them (log 20).
What the bytes of an image that no table publishes hold is free, and when images are synchronised is this model's choice (log 20), as are what is saved when (log 41), when a persistent squad retires (log 55), that the lowest free units are taken (log 61) and which slots are open (log 32); what a fault-service crew that ends gives way to is log 38. -/
def Obligations.SquadEvents : Prop := Sys2Proof.Claim.SquadSlotEvents ∧ Sys2Proof.Claim.PreemptionEvents

/-- R230, R284, R290, R291, R310-R312: tasks that are pulled and stolen, and what a core's reset loses.
How a task's capability is kept, which pull takes an entry, and that a stolen entry is queued beside 64 is this model's choice (log 34). -/
def Obligations.TaskAndResetEvents : Prop := Sys2Proof.Claim.TaskEvents ∧ Sys2Proof.Claim.CoresReset

/-- R304-R306, R328: the binding of a launch, its squads' way to their cores, and its end.
How squads are handed down (log 32), what END 2 and a refused packet report (log 37), and what a degraded partition counts (log 54) are this model's choices. -/
def Obligations.LaunchEvents : Prop := Sys2Proof.Claim.LaunchesAreBound ∧ Sys2Proof.Claim.LaunchesEnd

/-- R295, R317-R319, R323, R324: what the host writes and reads in a partition's window.
Which bits of a window register are kept is this model's reading (log 42), and which requester reads a counter is free (log 2). Which of several squads with one image address the ctxs register names is log 79, and that a disabled queue's QERR stays clear when QTAIL runs ahead is log 81. -/
def Obligations.HostRegisters : Prop := Sys2Proof.Claim.QueueRegisters ∧ Sys2Proof.Claim.PartitionRegisters

/-- R130, R139, R142, R277, R278, R292: the replay registers of a cluster, and the host's accesses of memory.
A host's accesses are at system scope (log 19), and what a failing host AtomicOp writes is this model's choice (log 56). -/
def Obligations.HostAccessEvents : Prop := Sys2Proof.Claim.ReplayRegisters ∧ Sys2Proof.Claim.HostAccesses
end

