-- ==== Sys2Proof/Laws/Store.lean ====
section
/-! SUPPORT. Laws of the plain data: a read after a write, the canonical form that every write keeps, and records by number. -/

namespace Sys2Proof.Machine

/-! ### Sparse values -/

theorem sparseGet_del {β : Type} (d : β) (l : List (Nat × β)) (k j : Nat) :
    sparseGet d (sparseDel l k) j = if k = j then d else sparseGet d l j := by
  induction l with
  | nil => simp [sparseDel, sparseGet]
  | cons e t ih =>
    obtain ⟨a, x⟩ := e
    unfold sparseDel
    by_cases hak : a = k
    · subst hak
      rw [if_pos rfl, ih, sparseGet]
      by_cases h : a = j
      · rw [if_pos h, if_pos h]
      · rw [if_neg h, if_neg h, if_neg h]
    · rw [if_neg hak, sparseGet, ih, sparseGet]
      by_cases haj : a = j
      · have hkj : ¬ k = j := fun h => hak (haj.trans h.symm)
        rw [if_pos haj, if_neg hkj, if_pos haj]
      · rw [if_neg haj, if_neg haj]

theorem sparseGet_ins {β : Type} (d : β) (l : List (Nat × β)) (k j : Nat) (v : β) :
    sparseGet d (sparseIns l k v) j = if k = j then v else sparseGet d l j := by
  induction l with
  | nil => simp [sparseIns, sparseGet]
  | cons e t ih =>
    obtain ⟨a, x⟩ := e
    unfold sparseIns
    split
    · simp [sparseGet]
    · split
      · next h => subst h; by_cases hkj : k = j <;> simp [sparseGet, hkj]
      · next h1 h2 =>
        by_cases haj : a = j
        · have : ¬ k = j := fun h => h2 (h.trans haj.symm)
          simp [sparseGet, haj, this]
        · simp [sparseGet, haj, ih]

/-- A read after a write: the value written at its key, what was there at every other. -/
@[simp] theorem sparseGet_put {β : Type} [DecidableEq β] (d : β) (l : List (Nat × β)) (k j : Nat) (v : β) :
    sparseGet d (sparsePut d l k v) j = if k = j then v else sparseGet d l j := by
  unfold sparsePut
  split
  · next h => rw [sparseGet_del, h]
  · rw [sparseGet_ins]

theorem sparseWfFrom_mono {β : Type} [DecidableEq β] (d : β) {l : List (Nat × β)} {lo hi : Nat} (h : lo ≤ hi)
    (w : sparseWfFrom d hi l = true) : sparseWfFrom d lo l = true := by
  cases l with
  | nil => rfl
  | cons e t =>
    obtain ⟨a, x⟩ := e
    simp only [sparseWfFrom, Bool.and_eq_true, decide_eq_true_eq] at w ⊢
    exact ⟨⟨by omega, w.1.2⟩, w.2⟩

theorem sparseWfFrom_del {β : Type} [DecidableEq β] (d : β) (l : List (Nat × β)) (k lo : Nat)
    (w : sparseWfFrom d lo l = true) : sparseWfFrom d lo (sparseDel l k) = true := by
  induction l generalizing lo with
  | nil => rfl
  | cons e t ih =>
    obtain ⟨a, x⟩ := e
    simp only [sparseWfFrom, Bool.and_eq_true, decide_eq_true_eq] at w
    unfold sparseDel
    split
    · exact sparseWfFrom_mono d (by omega) (ih (a + 1) w.2)
    · simp only [sparseWfFrom, Bool.and_eq_true, decide_eq_true_eq]
      exact ⟨w.1, ih (a + 1) w.2⟩

theorem sparseWfFrom_ins {β : Type} [DecidableEq β] (d : β) (l : List (Nat × β)) (k lo : Nat) (v : β) (hv : v ≠ d)
    (hk : lo ≤ k) (w : sparseWfFrom d lo l = true) : sparseWfFrom d lo (sparseIns l k v) = true := by
  induction l generalizing lo with
  | nil => simp [sparseIns, sparseWfFrom, hv, hk]
  | cons e t ih =>
    obtain ⟨a, x⟩ := e
    simp only [sparseWfFrom, Bool.and_eq_true, decide_eq_true_eq] at w
    unfold sparseIns
    split
    · simp only [sparseWfFrom, Bool.and_eq_true, decide_eq_true_eq]
      exact ⟨⟨hk, hv⟩, ⟨by omega, w.1.2⟩, w.2⟩
    · split
      · next h => subst h; simp only [sparseWfFrom, Bool.and_eq_true, decide_eq_true_eq]; exact ⟨⟨hk, hv⟩, w.2⟩
      · simp only [sparseWfFrom, Bool.and_eq_true, decide_eq_true_eq]
        exact ⟨w.1, ih (a + 1) (by omega) w.2⟩

/-- A write keeps the canonical form. -/
theorem sparseWf_put {β : Type} [DecidableEq β] (d : β) (l : List (Nat × β)) (k : Nat) (v : β)
    (w : sparseWfFrom d 0 l = true) : sparseWfFrom d 0 (sparsePut d l k v) = true := by
  unfold sparsePut
  split
  · exact sparseWfFrom_del d l k 0 w
  · next h => exact sparseWfFrom_ins d l k 0 v h (Nat.zero_le _) w

/-! ### Registers -/

@[simp] theorem Store.get_put {w : Nat} (m : Store w) (k j : Nat) (v : BitVec w) :
    (m.put k v).get j = if k = j then v else m.get j := sparseGet_put _ _ _ _ _

theorem Store.wf_put {w : Nat} (m : Store w) (k : Nat) (v : BitVec w) (h : m.wf = true) : (m.put k v).wf = true :=
  sparseWf_put _ _ _ _ h

/-! ### Memories -/

@[simp] theorem Memory.get_put (m : Memory) (a b : Nat) (v : Byte) :
    (m.put a v).get b = if a = b then v else m.get b := sparseGet_put _ _ _ _ _

@[simp] theorem Memory.get_nil (a : Nat) : Memory.get [] a = Memory.unlisted := rfl

@[simp] theorem Memory.wf_nil : Memory.wf [] = true := rfl

theorem Memory.wf_put (m : Memory) (a : Nat) (v : Byte) (h : m.wf = true) : (m.put a v).wf = true := sparseWf_put _ _ _ _ h

theorem Memory.wf_write (m : Memory) (a : Nat) (bs : List Byte) (h : m.wf = true) : (m.write a bs).wf = true := by
  induction bs generalizing m a with
  | nil => exact h
  | cons b bs ih => exact ih _ _ (Memory.wf_put m a b h)

theorem Memory.wf_writeCells (m : Memory) (cs : List Host.Cell) (h : m.wf = true) : (m.writeCells cs).wf = true := by
  induction cs generalizing m with
  | nil => exact h
  | cons c cs ih => obtain ⟨a, b⟩ := c; exact ih _ (Memory.wf_put m a b h)

/-- A byte after a write of bytes: the byte written where it lies among them, what was there elsewhere. -/
theorem Memory.get_write (m : Memory) (a : Nat) (bs : List Byte) (x : Nat) :
    (m.write a bs).get x = if a ≤ x ∧ x < a + bs.length then bs.getD (x - a) 0#8 else m.get x := by
  induction bs generalizing m a with
  | nil => simp only [Memory.write, List.length_nil, Nat.add_zero]; rw [if_neg (by omega)]
  | cons b bs ih =>
    rw [Memory.write, ih, Memory.get_put]
    by_cases h : a = x
    · subst h
      have : ¬ (a + 1 ≤ a ∧ a < a + 1 + bs.length) := by omega
      rw [if_neg this]; simp
    · by_cases h2 : a + 1 ≤ x ∧ x < a + 1 + bs.length
      · have h3 : a ≤ x ∧ x < a + (b :: bs).length := by simp; omega
        have h4 : x - a = (x - (a + 1)) + 1 := by omega
        rw [if_pos h2, if_pos h3, h4, List.getD_cons_succ]
      · have h3 : ¬ (a ≤ x ∧ x < a + (b :: bs).length) := by simp; omega
        rw [if_neg h2, if_neg h3, if_neg h]

theorem Memory.get_writeCells_of_not_mem (m : Memory) (cs : List Host.Cell) (x : Nat) (h : ∀ c ∈ cs, c.1 ≠ x) :
    (m.writeCells cs).get x = m.get x := by
  induction cs generalizing m with
  | nil => rfl
  | cons c cs ih =>
    obtain ⟨a, b⟩ := c
    rw [Memory.writeCells, ih _ (fun c hc => h c (List.mem_cons_of_mem _ hc)), Memory.get_put,
      if_neg (h (a, b) List.mem_cons_self)]

@[simp] theorem Memory.read_length (m : Memory) (a n : Nat) : (m.read a n).length = n := by
  induction n generalizing a with
  | zero => rfl
  | succ n ih => simp [Memory.read, ih]

/-- Writing the cells of bytes is writing the bytes. -/
theorem Memory.writeCells_cellsAt (m : Memory) (a : Nat) (bs : List Byte) : m.writeCells (cellsAt a bs) = m.write a bs := by
  induction bs generalizing m a with
  | nil => rfl
  | cons b bs ih => exact ih _ _

/-! ### Numbers as bytes -/

@[simp] theorem bytesOfNat_length (n x : Nat) : (bytesOfNat n x).length = n := by
  induction n generalizing x with
  | zero => rfl
  | succ n ih => simp [bytesOfNat, ih]

/-- The bytes of a number give back the number. -/
theorem natOfBytes_bytesOfNat (n x : Nat) : natOfBytes (bytesOfNat n x) = x % 256 ^ n := by
  induction n generalizing x with
  | zero => simp [bytesOfNat, natOfBytes, Nat.mod_one]
  | succ n ih =>
    simp only [bytesOfNat, natOfBytes, ih, BitVec.toNat_ofNat]
    have e : 256 ^ (n + 1) = 256 * 256 ^ n := by rw [Nat.pow_succ, Nat.mul_comm]
    rw [e, Nat.mod_mul]

/-! ### Records by number -/

@[simp] theorem AList.find_nil {α : Type} (k : Nat) : AList.find ([] : AList α) k = none := rfl

/-- A record after a change of one: the new one at its number, what was there at every other. -/
@[simp] theorem AList.find_set {α : Type} (l : AList α) (k j : Nat) (v : α) :
    (l.set k v).find j = if k = j then some v else l.find j := by
  induction l with
  | nil => rfl
  | cons e t ih =>
    obtain ⟨a, x⟩ := e
    unfold AList.set
    split
    · simp [AList.find]
    · split
      · next h => subst h; by_cases hkj : k = j <;> simp [AList.find, hkj]
      · next h1 h2 =>
        by_cases haj : a = j
        · have : ¬ k = j := fun h => h2 (h.trans haj.symm)
          simp [AList.find, haj, this]
        · simp [AList.find, haj, ih]

@[simp] theorem AList.find_del {α : Type} (l : AList α) (k j : Nat) :
    (l.del k).find j = if k = j then none else l.find j := by
  induction l with
  | nil => simp [AList.del]
  | cons e t ih =>
    obtain ⟨a, x⟩ := e
    unfold AList.del at ih ⊢
    by_cases hak : a = k
    · subst hak
      simp only [List.filter, bne_self_eq_false, ih, AList.find]
      split <;> rfl
    · have : (a != k) = true := by simpa using hak
      simp only [List.filter, this, AList.find, ih]
      by_cases haj : a = j
      · have hkj : ¬ k = j := fun h => hak (haj.trans h.symm)
        simp [haj, hkj]
      · simp [haj]

/-- The later of two changes of one record stands. -/
@[simp] theorem AList.set_set {α : Type} (l : AList α) (k : Nat) (v w : α) : (l.set k v).set k w = l.set k w := by
  induction l with
  | nil => simp [AList.set]
  | cons e t ih =>
    obtain ⟨a, x⟩ := e
    unfold AList.set
    by_cases h1 : k < a
    · simp [h1, AList.set]
    · by_cases h2 : k = a
      · subst h2; simp [AList.set]
      · simp [h1, h2, AList.set]; exact ih

/-! ### Lists -/

theorem getD_set_self {α : Type} (l : List α) (i : Nat) (v d : α) (h : i < l.length) : (l.set i v).getD i d = v := by
  simp [List.getD_eq_getElem?_getD, h]

theorem getD_set_ne {α : Type} (l : List α) (i j : Nat) (v d : α) (h : i ≠ j) : (l.set i v).getD j d = l.getD j d := by
  simp [List.getD_eq_getElem?_getD, List.getElem?_set_ne h]

end Sys2Proof.Machine
end

