-- ==== Sys2Proof/Laws/State.lean ====
section
/-! SUPPORT. The update of one unit of the machine, field by field: what it makes of its own list, and that it leaves every other field. -/

namespace Sys2Proof.Machine

/-! ### `setCrew` -/

@[simp] theorem State.setCrew_agenda (s : State) (c : Nat) (cr : Crew) : (s.setCrew c cr).agenda = s.agenda := rfl
@[simp] theorem State.setCrew_cur (s : State) (c : Nat) (cr : Crew) : (s.setCrew c cr).cur = s.cur := rfl
@[simp] theorem State.setCrew_fresh (s : State) (c : Nat) (cr : Crew) : (s.setCrew c cr).fresh = s.fresh := rfl
@[simp] theorem State.setCrew_nextId (s : State) (c : Nat) (cr : Crew) : (s.setCrew c cr).nextId = s.nextId := rfl
@[simp] theorem State.setCrew_now (s : State) (c : Nat) (cr : Crew) : (s.setCrew c cr).now = s.now := rfl
@[simp] theorem State.setCrew_mem (s : State) (c : Nat) (cr : Crew) : (s.setCrew c cr).mem = s.mem := rfl
@[simp] theorem State.setCrew_crews (s : State) (c : Nat) (cr : Crew) : (s.setCrew c cr).crews = s.crews.set c cr := rfl
@[simp] theorem State.setCrew_squads (s : State) (c : Nat) (cr : Crew) : (s.setCrew c cr).squads = s.squads := rfl
@[simp] theorem State.setCrew_launches (s : State) (c : Nat) (cr : Crew) : (s.setCrew c cr).launches = s.launches := rfl
@[simp] theorem State.setCrew_cores (s : State) (c : Nat) (cr : Crew) : (s.setCrew c cr).cores = s.cores := rfl
@[simp] theorem State.setCrew_islandClocks (s : State) (c : Nat) (cr : Crew) : (s.setCrew c cr).islandClocks = s.islandClocks := rfl
@[simp] theorem State.setCrew_clusters (s : State) (c : Nat) (cr : Crew) : (s.setCrew c cr).clusters = s.clusters := rfl
@[simp] theorem State.setCrew_parts (s : State) (c : Nat) (cr : Crew) : (s.setCrew c cr).parts = s.parts := rfl
@[simp] theorem State.setCrew_ops (s : State) (c : Nat) (cr : Crew) : (s.setCrew c cr).ops = s.ops := rfl
@[simp] theorem State.setCrew_jobs (s : State) (c : Nat) (cr : Crew) : (s.setCrew c cr).jobs = s.jobs := rfl
@[simp] theorem State.setCrew_pairLaunches (s : State) (c : Nat) (cr : Crew) : (s.setCrew c cr).pairLaunches = s.pairLaunches := rfl
@[simp] theorem State.setCrew_halves (s : State) (c : Nat) (cr : Crew) : (s.setCrew c cr).halves = s.halves := rfl
@[simp] theorem State.setCrew_flights (s : State) (c : Nat) (cr : Crew) : (s.setCrew c cr).flights = s.flights := rfl
@[simp] theorem State.setCrew_credits (s : State) (c : Nat) (cr : Crew) : (s.setCrew c cr).credits = s.credits := rfl
@[simp] theorem State.setCrew_messages (s : State) (c : Nat) (cr : Crew) : (s.setCrew c cr).messages = s.messages := rfl
@[simp] theorem State.setCrew_steals (s : State) (c : Nat) (cr : Crew) : (s.setCrew c cr).steals = s.steals := rfl
@[simp] theorem State.setCrew_drops (s : State) (c : Nat) (cr : Crew) : (s.setCrew c cr).drops = s.drops := rfl
@[simp] theorem State.setCrew_handoffs (s : State) (c : Nat) (cr : Crew) : (s.setCrew c cr).handoffs = s.handoffs := rfl
@[simp] theorem State.setCrew_unacked (s : State) (c : Nat) (cr : Crew) : (s.setCrew c cr).unacked = s.unacked := rfl
@[simp] theorem State.setCrew_walks (s : State) (c : Nat) (cr : Crew) : (s.setCrew c cr).walks = s.walks := rfl
@[simp] theorem State.setCrew_listEntries (s : State) (c : Nat) (cr : Crew) : (s.setCrew c cr).listEntries = s.listEntries := rfl
@[simp] theorem State.setCrew_submissions (s : State) (c : Nat) (cr : Crew) : (s.setCrew c cr).submissions = s.submissions := rfl
@[simp] theorem State.setCrew_split (s : State) (c : Nat) (cr : Crew) : (s.setCrew c cr).split = s.split := rfl
@[simp] theorem State.setCrew_bootfail (s : State) (c : Nat) (cr : Crew) : (s.setCrew c cr).bootfail = s.bootfail := rfl
@[simp] theorem State.setCrew_fwImage (s : State) (c : Nat) (cr : Crew) : (s.setCrew c cr).fwImage = s.fwImage := rfl
@[simp] theorem State.setCrew_fwSignature (s : State) (c : Nat) (cr : Crew) : (s.setCrew c cr).fwSignature = s.fwSignature := rfl
@[simp] theorem State.setCrew_fwVersion (s : State) (c : Nat) (cr : Crew) : (s.setCrew c cr).fwVersion = s.fwVersion := rfl
@[simp] theorem State.setCrew_fwDigest (s : State) (c : Nat) (cr : Crew) : (s.setCrew c cr).fwDigest = s.fwDigest := rfl
@[simp] theorem State.setCrew_romKey (s : State) (c : Nat) (cr : Crew) : (s.setCrew c cr).romKey = s.romKey := rfl
@[simp] theorem State.setCrew_deviceSecret (s : State) (c : Nat) (cr : Crew) : (s.setCrew c cr).deviceSecret = s.deviceSecret := rfl
@[simp] theorem State.setCrew_deviceCert (s : State) (c : Nat) (cr : Crew) : (s.setCrew c cr).deviceCert = s.deviceCert := rfl
@[simp] theorem State.setCrew_romVersion (s : State) (c : Nat) (cr : Crew) : (s.setCrew c cr).romVersion = s.romVersion := rfl
@[simp] theorem State.setCrew_attIndex (s : State) (c : Nat) (cr : Crew) : (s.setCrew c cr).attIndex = s.attIndex := rfl
@[simp] theorem State.setCrew_attPending (s : State) (c : Nat) (cr : Crew) : (s.setCrew c cr).attPending = s.attPending := rfl
@[simp] theorem State.setCrew_attReports (s : State) (c : Nat) (cr : Crew) : (s.setCrew c cr).attReports = s.attReports := rfl
@[simp] theorem State.setCrew_attExhausted (s : State) (c : Nat) (cr : Crew) : (s.setCrew c cr).attExhausted = s.attExhausted := rfl
@[simp] theorem State.setCrew_powerCap (s : State) (c : Nat) (cr : Crew) : (s.setCrew c cr).powerCap = s.powerCap := rfl
@[simp] theorem State.setCrew_throttled (s : State) (c : Nat) (cr : Crew) : (s.setCrew c cr).throttled = s.throttled := rfl
@[simp] theorem State.setCrew_spares (s : State) (c : Nat) (cr : Crew) : (s.setCrew c cr).spares = s.spares := rfl
@[simp] theorem State.setCrew_offline (s : State) (c : Nat) (cr : Crew) : (s.setCrew c cr).offline = s.offline := rfl
@[simp] theorem State.setCrew_gated (s : State) (c : Nat) (cr : Crew) : (s.setCrew c cr).gated = s.gated := rfl
@[simp] theorem State.setCrew_links (s : State) (c : Nat) (cr : Crew) : (s.setCrew c cr).links = s.links := rfl
@[simp] theorem State.setCrew_irqs (s : State) (c : Nat) (cr : Crew) : (s.setCrew c cr).irqs = s.irqs := rfl
@[simp] theorem State.setCrew_powered (s : State) (c : Nat) (cr : Crew) : (s.setCrew c cr).powered = s.powered := rfl
@[simp] theorem State.setCrew_hostValue (s : State) (c : Nat) (cr : Crew) : (s.setCrew c cr).hostValue = s.hostValue := rfl
@[simp] theorem State.setCrew_imageEnds (s : State) (c : Nat) (cr : Crew) : (s.setCrew c cr).imageEnds = s.imageEnds := rfl

/-! ### `modSquad` -/

@[simp] theorem State.modSquad_agenda (s : State) (q : Nat) (f : Squad → Squad) : (s.modSquad q f).agenda = s.agenda := rfl
@[simp] theorem State.modSquad_cur (s : State) (q : Nat) (f : Squad → Squad) : (s.modSquad q f).cur = s.cur := rfl
@[simp] theorem State.modSquad_fresh (s : State) (q : Nat) (f : Squad → Squad) : (s.modSquad q f).fresh = s.fresh := rfl
@[simp] theorem State.modSquad_nextId (s : State) (q : Nat) (f : Squad → Squad) : (s.modSquad q f).nextId = s.nextId := rfl
@[simp] theorem State.modSquad_now (s : State) (q : Nat) (f : Squad → Squad) : (s.modSquad q f).now = s.now := rfl
@[simp] theorem State.modSquad_mem (s : State) (q : Nat) (f : Squad → Squad) : (s.modSquad q f).mem = s.mem := rfl
@[simp] theorem State.modSquad_crews (s : State) (q : Nat) (f : Squad → Squad) : (s.modSquad q f).crews = s.crews := rfl
@[simp] theorem State.modSquad_squads (s : State) (q : Nat) (f : Squad → Squad) : (s.modSquad q f).squads = s.squads.set q (f (s.squad q)) := rfl
@[simp] theorem State.modSquad_launches (s : State) (q : Nat) (f : Squad → Squad) : (s.modSquad q f).launches = s.launches := rfl
@[simp] theorem State.modSquad_cores (s : State) (q : Nat) (f : Squad → Squad) : (s.modSquad q f).cores = s.cores := rfl
@[simp] theorem State.modSquad_islandClocks (s : State) (q : Nat) (f : Squad → Squad) : (s.modSquad q f).islandClocks = s.islandClocks := rfl
@[simp] theorem State.modSquad_clusters (s : State) (q : Nat) (f : Squad → Squad) : (s.modSquad q f).clusters = s.clusters := rfl
@[simp] theorem State.modSquad_parts (s : State) (q : Nat) (f : Squad → Squad) : (s.modSquad q f).parts = s.parts := rfl
@[simp] theorem State.modSquad_ops (s : State) (q : Nat) (f : Squad → Squad) : (s.modSquad q f).ops = s.ops := rfl
@[simp] theorem State.modSquad_jobs (s : State) (q : Nat) (f : Squad → Squad) : (s.modSquad q f).jobs = s.jobs := rfl
@[simp] theorem State.modSquad_pairLaunches (s : State) (q : Nat) (f : Squad → Squad) : (s.modSquad q f).pairLaunches = s.pairLaunches := rfl
@[simp] theorem State.modSquad_halves (s : State) (q : Nat) (f : Squad → Squad) : (s.modSquad q f).halves = s.halves := rfl
@[simp] theorem State.modSquad_flights (s : State) (q : Nat) (f : Squad → Squad) : (s.modSquad q f).flights = s.flights := rfl
@[simp] theorem State.modSquad_credits (s : State) (q : Nat) (f : Squad → Squad) : (s.modSquad q f).credits = s.credits := rfl
@[simp] theorem State.modSquad_messages (s : State) (q : Nat) (f : Squad → Squad) : (s.modSquad q f).messages = s.messages := rfl
@[simp] theorem State.modSquad_steals (s : State) (q : Nat) (f : Squad → Squad) : (s.modSquad q f).steals = s.steals := rfl
@[simp] theorem State.modSquad_drops (s : State) (q : Nat) (f : Squad → Squad) : (s.modSquad q f).drops = s.drops := rfl
@[simp] theorem State.modSquad_handoffs (s : State) (q : Nat) (f : Squad → Squad) : (s.modSquad q f).handoffs = s.handoffs := rfl
@[simp] theorem State.modSquad_unacked (s : State) (q : Nat) (f : Squad → Squad) : (s.modSquad q f).unacked = s.unacked := rfl
@[simp] theorem State.modSquad_walks (s : State) (q : Nat) (f : Squad → Squad) : (s.modSquad q f).walks = s.walks := rfl
@[simp] theorem State.modSquad_listEntries (s : State) (q : Nat) (f : Squad → Squad) : (s.modSquad q f).listEntries = s.listEntries := rfl
@[simp] theorem State.modSquad_submissions (s : State) (q : Nat) (f : Squad → Squad) : (s.modSquad q f).submissions = s.submissions := rfl
@[simp] theorem State.modSquad_split (s : State) (q : Nat) (f : Squad → Squad) : (s.modSquad q f).split = s.split := rfl
@[simp] theorem State.modSquad_bootfail (s : State) (q : Nat) (f : Squad → Squad) : (s.modSquad q f).bootfail = s.bootfail := rfl
@[simp] theorem State.modSquad_fwImage (s : State) (q : Nat) (f : Squad → Squad) : (s.modSquad q f).fwImage = s.fwImage := rfl
@[simp] theorem State.modSquad_fwSignature (s : State) (q : Nat) (f : Squad → Squad) : (s.modSquad q f).fwSignature = s.fwSignature := rfl
@[simp] theorem State.modSquad_fwVersion (s : State) (q : Nat) (f : Squad → Squad) : (s.modSquad q f).fwVersion = s.fwVersion := rfl
@[simp] theorem State.modSquad_fwDigest (s : State) (q : Nat) (f : Squad → Squad) : (s.modSquad q f).fwDigest = s.fwDigest := rfl
@[simp] theorem State.modSquad_romKey (s : State) (q : Nat) (f : Squad → Squad) : (s.modSquad q f).romKey = s.romKey := rfl
@[simp] theorem State.modSquad_deviceSecret (s : State) (q : Nat) (f : Squad → Squad) : (s.modSquad q f).deviceSecret = s.deviceSecret := rfl
@[simp] theorem State.modSquad_deviceCert (s : State) (q : Nat) (f : Squad → Squad) : (s.modSquad q f).deviceCert = s.deviceCert := rfl
@[simp] theorem State.modSquad_romVersion (s : State) (q : Nat) (f : Squad → Squad) : (s.modSquad q f).romVersion = s.romVersion := rfl
@[simp] theorem State.modSquad_attIndex (s : State) (q : Nat) (f : Squad → Squad) : (s.modSquad q f).attIndex = s.attIndex := rfl
@[simp] theorem State.modSquad_attPending (s : State) (q : Nat) (f : Squad → Squad) : (s.modSquad q f).attPending = s.attPending := rfl
@[simp] theorem State.modSquad_attReports (s : State) (q : Nat) (f : Squad → Squad) : (s.modSquad q f).attReports = s.attReports := rfl
@[simp] theorem State.modSquad_attExhausted (s : State) (q : Nat) (f : Squad → Squad) : (s.modSquad q f).attExhausted = s.attExhausted := rfl
@[simp] theorem State.modSquad_powerCap (s : State) (q : Nat) (f : Squad → Squad) : (s.modSquad q f).powerCap = s.powerCap := rfl
@[simp] theorem State.modSquad_throttled (s : State) (q : Nat) (f : Squad → Squad) : (s.modSquad q f).throttled = s.throttled := rfl
@[simp] theorem State.modSquad_spares (s : State) (q : Nat) (f : Squad → Squad) : (s.modSquad q f).spares = s.spares := rfl
@[simp] theorem State.modSquad_offline (s : State) (q : Nat) (f : Squad → Squad) : (s.modSquad q f).offline = s.offline := rfl
@[simp] theorem State.modSquad_gated (s : State) (q : Nat) (f : Squad → Squad) : (s.modSquad q f).gated = s.gated := rfl
@[simp] theorem State.modSquad_links (s : State) (q : Nat) (f : Squad → Squad) : (s.modSquad q f).links = s.links := rfl
@[simp] theorem State.modSquad_irqs (s : State) (q : Nat) (f : Squad → Squad) : (s.modSquad q f).irqs = s.irqs := rfl
@[simp] theorem State.modSquad_powered (s : State) (q : Nat) (f : Squad → Squad) : (s.modSquad q f).powered = s.powered := rfl
@[simp] theorem State.modSquad_hostValue (s : State) (q : Nat) (f : Squad → Squad) : (s.modSquad q f).hostValue = s.hostValue := rfl
@[simp] theorem State.modSquad_imageEnds (s : State) (q : Nat) (f : Squad → Squad) : (s.modSquad q f).imageEnds = s.imageEnds := rfl

/-! ### `modLaunch` -/

@[simp] theorem State.modLaunch_agenda (s : State) (k : Nat) (f : Launch → Launch) : (s.modLaunch k f).agenda = s.agenda := rfl
@[simp] theorem State.modLaunch_cur (s : State) (k : Nat) (f : Launch → Launch) : (s.modLaunch k f).cur = s.cur := rfl
@[simp] theorem State.modLaunch_fresh (s : State) (k : Nat) (f : Launch → Launch) : (s.modLaunch k f).fresh = s.fresh := rfl
@[simp] theorem State.modLaunch_nextId (s : State) (k : Nat) (f : Launch → Launch) : (s.modLaunch k f).nextId = s.nextId := rfl
@[simp] theorem State.modLaunch_now (s : State) (k : Nat) (f : Launch → Launch) : (s.modLaunch k f).now = s.now := rfl
@[simp] theorem State.modLaunch_mem (s : State) (k : Nat) (f : Launch → Launch) : (s.modLaunch k f).mem = s.mem := rfl
@[simp] theorem State.modLaunch_crews (s : State) (k : Nat) (f : Launch → Launch) : (s.modLaunch k f).crews = s.crews := rfl
@[simp] theorem State.modLaunch_squads (s : State) (k : Nat) (f : Launch → Launch) : (s.modLaunch k f).squads = s.squads := rfl
@[simp] theorem State.modLaunch_launches (s : State) (k : Nat) (f : Launch → Launch) : (s.modLaunch k f).launches = s.launches.set k (f (s.launch k)) := rfl
@[simp] theorem State.modLaunch_cores (s : State) (k : Nat) (f : Launch → Launch) : (s.modLaunch k f).cores = s.cores := rfl
@[simp] theorem State.modLaunch_islandClocks (s : State) (k : Nat) (f : Launch → Launch) : (s.modLaunch k f).islandClocks = s.islandClocks := rfl
@[simp] theorem State.modLaunch_clusters (s : State) (k : Nat) (f : Launch → Launch) : (s.modLaunch k f).clusters = s.clusters := rfl
@[simp] theorem State.modLaunch_parts (s : State) (k : Nat) (f : Launch → Launch) : (s.modLaunch k f).parts = s.parts := rfl
@[simp] theorem State.modLaunch_ops (s : State) (k : Nat) (f : Launch → Launch) : (s.modLaunch k f).ops = s.ops := rfl
@[simp] theorem State.modLaunch_jobs (s : State) (k : Nat) (f : Launch → Launch) : (s.modLaunch k f).jobs = s.jobs := rfl
@[simp] theorem State.modLaunch_pairLaunches (s : State) (k : Nat) (f : Launch → Launch) : (s.modLaunch k f).pairLaunches = s.pairLaunches := rfl
@[simp] theorem State.modLaunch_halves (s : State) (k : Nat) (f : Launch → Launch) : (s.modLaunch k f).halves = s.halves := rfl
@[simp] theorem State.modLaunch_flights (s : State) (k : Nat) (f : Launch → Launch) : (s.modLaunch k f).flights = s.flights := rfl
@[simp] theorem State.modLaunch_credits (s : State) (k : Nat) (f : Launch → Launch) : (s.modLaunch k f).credits = s.credits := rfl
@[simp] theorem State.modLaunch_messages (s : State) (k : Nat) (f : Launch → Launch) : (s.modLaunch k f).messages = s.messages := rfl
@[simp] theorem State.modLaunch_steals (s : State) (k : Nat) (f : Launch → Launch) : (s.modLaunch k f).steals = s.steals := rfl
@[simp] theorem State.modLaunch_drops (s : State) (k : Nat) (f : Launch → Launch) : (s.modLaunch k f).drops = s.drops := rfl
@[simp] theorem State.modLaunch_handoffs (s : State) (k : Nat) (f : Launch → Launch) : (s.modLaunch k f).handoffs = s.handoffs := rfl
@[simp] theorem State.modLaunch_unacked (s : State) (k : Nat) (f : Launch → Launch) : (s.modLaunch k f).unacked = s.unacked := rfl
@[simp] theorem State.modLaunch_walks (s : State) (k : Nat) (f : Launch → Launch) : (s.modLaunch k f).walks = s.walks := rfl
@[simp] theorem State.modLaunch_listEntries (s : State) (k : Nat) (f : Launch → Launch) : (s.modLaunch k f).listEntries = s.listEntries := rfl
@[simp] theorem State.modLaunch_submissions (s : State) (k : Nat) (f : Launch → Launch) : (s.modLaunch k f).submissions = s.submissions := rfl
@[simp] theorem State.modLaunch_split (s : State) (k : Nat) (f : Launch → Launch) : (s.modLaunch k f).split = s.split := rfl
@[simp] theorem State.modLaunch_bootfail (s : State) (k : Nat) (f : Launch → Launch) : (s.modLaunch k f).bootfail = s.bootfail := rfl
@[simp] theorem State.modLaunch_fwImage (s : State) (k : Nat) (f : Launch → Launch) : (s.modLaunch k f).fwImage = s.fwImage := rfl
@[simp] theorem State.modLaunch_fwSignature (s : State) (k : Nat) (f : Launch → Launch) : (s.modLaunch k f).fwSignature = s.fwSignature := rfl
@[simp] theorem State.modLaunch_fwVersion (s : State) (k : Nat) (f : Launch → Launch) : (s.modLaunch k f).fwVersion = s.fwVersion := rfl
@[simp] theorem State.modLaunch_fwDigest (s : State) (k : Nat) (f : Launch → Launch) : (s.modLaunch k f).fwDigest = s.fwDigest := rfl
@[simp] theorem State.modLaunch_romKey (s : State) (k : Nat) (f : Launch → Launch) : (s.modLaunch k f).romKey = s.romKey := rfl
@[simp] theorem State.modLaunch_deviceSecret (s : State) (k : Nat) (f : Launch → Launch) : (s.modLaunch k f).deviceSecret = s.deviceSecret := rfl
@[simp] theorem State.modLaunch_deviceCert (s : State) (k : Nat) (f : Launch → Launch) : (s.modLaunch k f).deviceCert = s.deviceCert := rfl
@[simp] theorem State.modLaunch_romVersion (s : State) (k : Nat) (f : Launch → Launch) : (s.modLaunch k f).romVersion = s.romVersion := rfl
@[simp] theorem State.modLaunch_attIndex (s : State) (k : Nat) (f : Launch → Launch) : (s.modLaunch k f).attIndex = s.attIndex := rfl
@[simp] theorem State.modLaunch_attPending (s : State) (k : Nat) (f : Launch → Launch) : (s.modLaunch k f).attPending = s.attPending := rfl
@[simp] theorem State.modLaunch_attReports (s : State) (k : Nat) (f : Launch → Launch) : (s.modLaunch k f).attReports = s.attReports := rfl
@[simp] theorem State.modLaunch_attExhausted (s : State) (k : Nat) (f : Launch → Launch) : (s.modLaunch k f).attExhausted = s.attExhausted := rfl
@[simp] theorem State.modLaunch_powerCap (s : State) (k : Nat) (f : Launch → Launch) : (s.modLaunch k f).powerCap = s.powerCap := rfl
@[simp] theorem State.modLaunch_throttled (s : State) (k : Nat) (f : Launch → Launch) : (s.modLaunch k f).throttled = s.throttled := rfl
@[simp] theorem State.modLaunch_spares (s : State) (k : Nat) (f : Launch → Launch) : (s.modLaunch k f).spares = s.spares := rfl
@[simp] theorem State.modLaunch_offline (s : State) (k : Nat) (f : Launch → Launch) : (s.modLaunch k f).offline = s.offline := rfl
@[simp] theorem State.modLaunch_gated (s : State) (k : Nat) (f : Launch → Launch) : (s.modLaunch k f).gated = s.gated := rfl
@[simp] theorem State.modLaunch_links (s : State) (k : Nat) (f : Launch → Launch) : (s.modLaunch k f).links = s.links := rfl
@[simp] theorem State.modLaunch_irqs (s : State) (k : Nat) (f : Launch → Launch) : (s.modLaunch k f).irqs = s.irqs := rfl
@[simp] theorem State.modLaunch_powered (s : State) (k : Nat) (f : Launch → Launch) : (s.modLaunch k f).powered = s.powered := rfl
@[simp] theorem State.modLaunch_hostValue (s : State) (k : Nat) (f : Launch → Launch) : (s.modLaunch k f).hostValue = s.hostValue := rfl
@[simp] theorem State.modLaunch_imageEnds (s : State) (k : Nat) (f : Launch → Launch) : (s.modLaunch k f).imageEnds = s.imageEnds := rfl

/-! ### `modCore` -/

@[simp] theorem State.modCore_agenda (s : State) (k : Nat) (f : Core → Core) : (s.modCore k f).agenda = s.agenda := rfl
@[simp] theorem State.modCore_cur (s : State) (k : Nat) (f : Core → Core) : (s.modCore k f).cur = s.cur := rfl
@[simp] theorem State.modCore_fresh (s : State) (k : Nat) (f : Core → Core) : (s.modCore k f).fresh = s.fresh := rfl
@[simp] theorem State.modCore_nextId (s : State) (k : Nat) (f : Core → Core) : (s.modCore k f).nextId = s.nextId := rfl
@[simp] theorem State.modCore_now (s : State) (k : Nat) (f : Core → Core) : (s.modCore k f).now = s.now := rfl
@[simp] theorem State.modCore_mem (s : State) (k : Nat) (f : Core → Core) : (s.modCore k f).mem = s.mem := rfl
@[simp] theorem State.modCore_crews (s : State) (k : Nat) (f : Core → Core) : (s.modCore k f).crews = s.crews := rfl
@[simp] theorem State.modCore_squads (s : State) (k : Nat) (f : Core → Core) : (s.modCore k f).squads = s.squads := rfl
@[simp] theorem State.modCore_launches (s : State) (k : Nat) (f : Core → Core) : (s.modCore k f).launches = s.launches := rfl
@[simp] theorem State.modCore_cores (s : State) (k : Nat) (f : Core → Core) : (s.modCore k f).cores = s.cores.set k (f (s.core k)) := rfl
@[simp] theorem State.modCore_islandClocks (s : State) (k : Nat) (f : Core → Core) : (s.modCore k f).islandClocks = s.islandClocks := rfl
@[simp] theorem State.modCore_clusters (s : State) (k : Nat) (f : Core → Core) : (s.modCore k f).clusters = s.clusters := rfl
@[simp] theorem State.modCore_parts (s : State) (k : Nat) (f : Core → Core) : (s.modCore k f).parts = s.parts := rfl
@[simp] theorem State.modCore_ops (s : State) (k : Nat) (f : Core → Core) : (s.modCore k f).ops = s.ops := rfl
@[simp] theorem State.modCore_jobs (s : State) (k : Nat) (f : Core → Core) : (s.modCore k f).jobs = s.jobs := rfl
@[simp] theorem State.modCore_pairLaunches (s : State) (k : Nat) (f : Core → Core) : (s.modCore k f).pairLaunches = s.pairLaunches := rfl
@[simp] theorem State.modCore_halves (s : State) (k : Nat) (f : Core → Core) : (s.modCore k f).halves = s.halves := rfl
@[simp] theorem State.modCore_flights (s : State) (k : Nat) (f : Core → Core) : (s.modCore k f).flights = s.flights := rfl
@[simp] theorem State.modCore_credits (s : State) (k : Nat) (f : Core → Core) : (s.modCore k f).credits = s.credits := rfl
@[simp] theorem State.modCore_messages (s : State) (k : Nat) (f : Core → Core) : (s.modCore k f).messages = s.messages := rfl
@[simp] theorem State.modCore_steals (s : State) (k : Nat) (f : Core → Core) : (s.modCore k f).steals = s.steals := rfl
@[simp] theorem State.modCore_drops (s : State) (k : Nat) (f : Core → Core) : (s.modCore k f).drops = s.drops := rfl
@[simp] theorem State.modCore_handoffs (s : State) (k : Nat) (f : Core → Core) : (s.modCore k f).handoffs = s.handoffs := rfl
@[simp] theorem State.modCore_unacked (s : State) (k : Nat) (f : Core → Core) : (s.modCore k f).unacked = s.unacked := rfl
@[simp] theorem State.modCore_walks (s : State) (k : Nat) (f : Core → Core) : (s.modCore k f).walks = s.walks := rfl
@[simp] theorem State.modCore_listEntries (s : State) (k : Nat) (f : Core → Core) : (s.modCore k f).listEntries = s.listEntries := rfl
@[simp] theorem State.modCore_submissions (s : State) (k : Nat) (f : Core → Core) : (s.modCore k f).submissions = s.submissions := rfl
@[simp] theorem State.modCore_split (s : State) (k : Nat) (f : Core → Core) : (s.modCore k f).split = s.split := rfl
@[simp] theorem State.modCore_bootfail (s : State) (k : Nat) (f : Core → Core) : (s.modCore k f).bootfail = s.bootfail := rfl
@[simp] theorem State.modCore_fwImage (s : State) (k : Nat) (f : Core → Core) : (s.modCore k f).fwImage = s.fwImage := rfl
@[simp] theorem State.modCore_fwSignature (s : State) (k : Nat) (f : Core → Core) : (s.modCore k f).fwSignature = s.fwSignature := rfl
@[simp] theorem State.modCore_fwVersion (s : State) (k : Nat) (f : Core → Core) : (s.modCore k f).fwVersion = s.fwVersion := rfl
@[simp] theorem State.modCore_fwDigest (s : State) (k : Nat) (f : Core → Core) : (s.modCore k f).fwDigest = s.fwDigest := rfl
@[simp] theorem State.modCore_romKey (s : State) (k : Nat) (f : Core → Core) : (s.modCore k f).romKey = s.romKey := rfl
@[simp] theorem State.modCore_deviceSecret (s : State) (k : Nat) (f : Core → Core) : (s.modCore k f).deviceSecret = s.deviceSecret := rfl
@[simp] theorem State.modCore_deviceCert (s : State) (k : Nat) (f : Core → Core) : (s.modCore k f).deviceCert = s.deviceCert := rfl
@[simp] theorem State.modCore_romVersion (s : State) (k : Nat) (f : Core → Core) : (s.modCore k f).romVersion = s.romVersion := rfl
@[simp] theorem State.modCore_attIndex (s : State) (k : Nat) (f : Core → Core) : (s.modCore k f).attIndex = s.attIndex := rfl
@[simp] theorem State.modCore_attPending (s : State) (k : Nat) (f : Core → Core) : (s.modCore k f).attPending = s.attPending := rfl
@[simp] theorem State.modCore_attReports (s : State) (k : Nat) (f : Core → Core) : (s.modCore k f).attReports = s.attReports := rfl
@[simp] theorem State.modCore_attExhausted (s : State) (k : Nat) (f : Core → Core) : (s.modCore k f).attExhausted = s.attExhausted := rfl
@[simp] theorem State.modCore_powerCap (s : State) (k : Nat) (f : Core → Core) : (s.modCore k f).powerCap = s.powerCap := rfl
@[simp] theorem State.modCore_throttled (s : State) (k : Nat) (f : Core → Core) : (s.modCore k f).throttled = s.throttled := rfl
@[simp] theorem State.modCore_spares (s : State) (k : Nat) (f : Core → Core) : (s.modCore k f).spares = s.spares := rfl
@[simp] theorem State.modCore_offline (s : State) (k : Nat) (f : Core → Core) : (s.modCore k f).offline = s.offline := rfl
@[simp] theorem State.modCore_gated (s : State) (k : Nat) (f : Core → Core) : (s.modCore k f).gated = s.gated := rfl
@[simp] theorem State.modCore_links (s : State) (k : Nat) (f : Core → Core) : (s.modCore k f).links = s.links := rfl
@[simp] theorem State.modCore_irqs (s : State) (k : Nat) (f : Core → Core) : (s.modCore k f).irqs = s.irqs := rfl
@[simp] theorem State.modCore_powered (s : State) (k : Nat) (f : Core → Core) : (s.modCore k f).powered = s.powered := rfl
@[simp] theorem State.modCore_hostValue (s : State) (k : Nat) (f : Core → Core) : (s.modCore k f).hostValue = s.hostValue := rfl
@[simp] theorem State.modCore_imageEnds (s : State) (k : Nat) (f : Core → Core) : (s.modCore k f).imageEnds = s.imageEnds := rfl

/-! ### `modCluster` -/

@[simp] theorem State.modCluster_agenda (s : State) (k : Nat) (f : Cluster → Cluster) : (s.modCluster k f).agenda = s.agenda := rfl
@[simp] theorem State.modCluster_cur (s : State) (k : Nat) (f : Cluster → Cluster) : (s.modCluster k f).cur = s.cur := rfl
@[simp] theorem State.modCluster_fresh (s : State) (k : Nat) (f : Cluster → Cluster) : (s.modCluster k f).fresh = s.fresh := rfl
@[simp] theorem State.modCluster_nextId (s : State) (k : Nat) (f : Cluster → Cluster) : (s.modCluster k f).nextId = s.nextId := rfl
@[simp] theorem State.modCluster_now (s : State) (k : Nat) (f : Cluster → Cluster) : (s.modCluster k f).now = s.now := rfl
@[simp] theorem State.modCluster_mem (s : State) (k : Nat) (f : Cluster → Cluster) : (s.modCluster k f).mem = s.mem := rfl
@[simp] theorem State.modCluster_crews (s : State) (k : Nat) (f : Cluster → Cluster) : (s.modCluster k f).crews = s.crews := rfl
@[simp] theorem State.modCluster_squads (s : State) (k : Nat) (f : Cluster → Cluster) : (s.modCluster k f).squads = s.squads := rfl
@[simp] theorem State.modCluster_launches (s : State) (k : Nat) (f : Cluster → Cluster) : (s.modCluster k f).launches = s.launches := rfl
@[simp] theorem State.modCluster_cores (s : State) (k : Nat) (f : Cluster → Cluster) : (s.modCluster k f).cores = s.cores := rfl
@[simp] theorem State.modCluster_islandClocks (s : State) (k : Nat) (f : Cluster → Cluster) : (s.modCluster k f).islandClocks = s.islandClocks := rfl
@[simp] theorem State.modCluster_clusters (s : State) (k : Nat) (f : Cluster → Cluster) : (s.modCluster k f).clusters = s.clusters.set k (f (s.cluster k)) := rfl
@[simp] theorem State.modCluster_parts (s : State) (k : Nat) (f : Cluster → Cluster) : (s.modCluster k f).parts = s.parts := rfl
@[simp] theorem State.modCluster_ops (s : State) (k : Nat) (f : Cluster → Cluster) : (s.modCluster k f).ops = s.ops := rfl
@[simp] theorem State.modCluster_jobs (s : State) (k : Nat) (f : Cluster → Cluster) : (s.modCluster k f).jobs = s.jobs := rfl
@[simp] theorem State.modCluster_pairLaunches (s : State) (k : Nat) (f : Cluster → Cluster) : (s.modCluster k f).pairLaunches = s.pairLaunches := rfl
@[simp] theorem State.modCluster_halves (s : State) (k : Nat) (f : Cluster → Cluster) : (s.modCluster k f).halves = s.halves := rfl
@[simp] theorem State.modCluster_flights (s : State) (k : Nat) (f : Cluster → Cluster) : (s.modCluster k f).flights = s.flights := rfl
@[simp] theorem State.modCluster_credits (s : State) (k : Nat) (f : Cluster → Cluster) : (s.modCluster k f).credits = s.credits := rfl
@[simp] theorem State.modCluster_messages (s : State) (k : Nat) (f : Cluster → Cluster) : (s.modCluster k f).messages = s.messages := rfl
@[simp] theorem State.modCluster_steals (s : State) (k : Nat) (f : Cluster → Cluster) : (s.modCluster k f).steals = s.steals := rfl
@[simp] theorem State.modCluster_drops (s : State) (k : Nat) (f : Cluster → Cluster) : (s.modCluster k f).drops = s.drops := rfl
@[simp] theorem State.modCluster_handoffs (s : State) (k : Nat) (f : Cluster → Cluster) : (s.modCluster k f).handoffs = s.handoffs := rfl
@[simp] theorem State.modCluster_unacked (s : State) (k : Nat) (f : Cluster → Cluster) : (s.modCluster k f).unacked = s.unacked := rfl
@[simp] theorem State.modCluster_walks (s : State) (k : Nat) (f : Cluster → Cluster) : (s.modCluster k f).walks = s.walks := rfl
@[simp] theorem State.modCluster_listEntries (s : State) (k : Nat) (f : Cluster → Cluster) : (s.modCluster k f).listEntries = s.listEntries := rfl
@[simp] theorem State.modCluster_submissions (s : State) (k : Nat) (f : Cluster → Cluster) : (s.modCluster k f).submissions = s.submissions := rfl
@[simp] theorem State.modCluster_split (s : State) (k : Nat) (f : Cluster → Cluster) : (s.modCluster k f).split = s.split := rfl
@[simp] theorem State.modCluster_bootfail (s : State) (k : Nat) (f : Cluster → Cluster) : (s.modCluster k f).bootfail = s.bootfail := rfl
@[simp] theorem State.modCluster_fwImage (s : State) (k : Nat) (f : Cluster → Cluster) : (s.modCluster k f).fwImage = s.fwImage := rfl
@[simp] theorem State.modCluster_fwSignature (s : State) (k : Nat) (f : Cluster → Cluster) : (s.modCluster k f).fwSignature = s.fwSignature := rfl
@[simp] theorem State.modCluster_fwVersion (s : State) (k : Nat) (f : Cluster → Cluster) : (s.modCluster k f).fwVersion = s.fwVersion := rfl
@[simp] theorem State.modCluster_fwDigest (s : State) (k : Nat) (f : Cluster → Cluster) : (s.modCluster k f).fwDigest = s.fwDigest := rfl
@[simp] theorem State.modCluster_romKey (s : State) (k : Nat) (f : Cluster → Cluster) : (s.modCluster k f).romKey = s.romKey := rfl
@[simp] theorem State.modCluster_deviceSecret (s : State) (k : Nat) (f : Cluster → Cluster) : (s.modCluster k f).deviceSecret = s.deviceSecret := rfl
@[simp] theorem State.modCluster_deviceCert (s : State) (k : Nat) (f : Cluster → Cluster) : (s.modCluster k f).deviceCert = s.deviceCert := rfl
@[simp] theorem State.modCluster_romVersion (s : State) (k : Nat) (f : Cluster → Cluster) : (s.modCluster k f).romVersion = s.romVersion := rfl
@[simp] theorem State.modCluster_attIndex (s : State) (k : Nat) (f : Cluster → Cluster) : (s.modCluster k f).attIndex = s.attIndex := rfl
@[simp] theorem State.modCluster_attPending (s : State) (k : Nat) (f : Cluster → Cluster) : (s.modCluster k f).attPending = s.attPending := rfl
@[simp] theorem State.modCluster_attReports (s : State) (k : Nat) (f : Cluster → Cluster) : (s.modCluster k f).attReports = s.attReports := rfl
@[simp] theorem State.modCluster_attExhausted (s : State) (k : Nat) (f : Cluster → Cluster) : (s.modCluster k f).attExhausted = s.attExhausted := rfl
@[simp] theorem State.modCluster_powerCap (s : State) (k : Nat) (f : Cluster → Cluster) : (s.modCluster k f).powerCap = s.powerCap := rfl
@[simp] theorem State.modCluster_throttled (s : State) (k : Nat) (f : Cluster → Cluster) : (s.modCluster k f).throttled = s.throttled := rfl
@[simp] theorem State.modCluster_spares (s : State) (k : Nat) (f : Cluster → Cluster) : (s.modCluster k f).spares = s.spares := rfl
@[simp] theorem State.modCluster_offline (s : State) (k : Nat) (f : Cluster → Cluster) : (s.modCluster k f).offline = s.offline := rfl
@[simp] theorem State.modCluster_gated (s : State) (k : Nat) (f : Cluster → Cluster) : (s.modCluster k f).gated = s.gated := rfl
@[simp] theorem State.modCluster_links (s : State) (k : Nat) (f : Cluster → Cluster) : (s.modCluster k f).links = s.links := rfl
@[simp] theorem State.modCluster_irqs (s : State) (k : Nat) (f : Cluster → Cluster) : (s.modCluster k f).irqs = s.irqs := rfl
@[simp] theorem State.modCluster_powered (s : State) (k : Nat) (f : Cluster → Cluster) : (s.modCluster k f).powered = s.powered := rfl
@[simp] theorem State.modCluster_hostValue (s : State) (k : Nat) (f : Cluster → Cluster) : (s.modCluster k f).hostValue = s.hostValue := rfl
@[simp] theorem State.modCluster_imageEnds (s : State) (k : Nat) (f : Cluster → Cluster) : (s.modCluster k f).imageEnds = s.imageEnds := rfl

/-! ### `modPart` -/

@[simp] theorem State.modPart_agenda (s : State) (k : Nat) (f : Partition → Partition) : (s.modPart k f).agenda = s.agenda := rfl
@[simp] theorem State.modPart_cur (s : State) (k : Nat) (f : Partition → Partition) : (s.modPart k f).cur = s.cur := rfl
@[simp] theorem State.modPart_fresh (s : State) (k : Nat) (f : Partition → Partition) : (s.modPart k f).fresh = s.fresh := rfl
@[simp] theorem State.modPart_nextId (s : State) (k : Nat) (f : Partition → Partition) : (s.modPart k f).nextId = s.nextId := rfl
@[simp] theorem State.modPart_now (s : State) (k : Nat) (f : Partition → Partition) : (s.modPart k f).now = s.now := rfl
@[simp] theorem State.modPart_mem (s : State) (k : Nat) (f : Partition → Partition) : (s.modPart k f).mem = s.mem := rfl
@[simp] theorem State.modPart_crews (s : State) (k : Nat) (f : Partition → Partition) : (s.modPart k f).crews = s.crews := rfl
@[simp] theorem State.modPart_squads (s : State) (k : Nat) (f : Partition → Partition) : (s.modPart k f).squads = s.squads := rfl
@[simp] theorem State.modPart_launches (s : State) (k : Nat) (f : Partition → Partition) : (s.modPart k f).launches = s.launches := rfl
@[simp] theorem State.modPart_cores (s : State) (k : Nat) (f : Partition → Partition) : (s.modPart k f).cores = s.cores := rfl
@[simp] theorem State.modPart_islandClocks (s : State) (k : Nat) (f : Partition → Partition) : (s.modPart k f).islandClocks = s.islandClocks := rfl
@[simp] theorem State.modPart_clusters (s : State) (k : Nat) (f : Partition → Partition) : (s.modPart k f).clusters = s.clusters := rfl
@[simp] theorem State.modPart_parts (s : State) (k : Nat) (f : Partition → Partition) : (s.modPart k f).parts = s.parts.set k (f (s.part k)) := rfl
@[simp] theorem State.modPart_ops (s : State) (k : Nat) (f : Partition → Partition) : (s.modPart k f).ops = s.ops := rfl
@[simp] theorem State.modPart_jobs (s : State) (k : Nat) (f : Partition → Partition) : (s.modPart k f).jobs = s.jobs := rfl
@[simp] theorem State.modPart_pairLaunches (s : State) (k : Nat) (f : Partition → Partition) : (s.modPart k f).pairLaunches = s.pairLaunches := rfl
@[simp] theorem State.modPart_halves (s : State) (k : Nat) (f : Partition → Partition) : (s.modPart k f).halves = s.halves := rfl
@[simp] theorem State.modPart_flights (s : State) (k : Nat) (f : Partition → Partition) : (s.modPart k f).flights = s.flights := rfl
@[simp] theorem State.modPart_credits (s : State) (k : Nat) (f : Partition → Partition) : (s.modPart k f).credits = s.credits := rfl
@[simp] theorem State.modPart_messages (s : State) (k : Nat) (f : Partition → Partition) : (s.modPart k f).messages = s.messages := rfl
@[simp] theorem State.modPart_steals (s : State) (k : Nat) (f : Partition → Partition) : (s.modPart k f).steals = s.steals := rfl
@[simp] theorem State.modPart_drops (s : State) (k : Nat) (f : Partition → Partition) : (s.modPart k f).drops = s.drops := rfl
@[simp] theorem State.modPart_handoffs (s : State) (k : Nat) (f : Partition → Partition) : (s.modPart k f).handoffs = s.handoffs := rfl
@[simp] theorem State.modPart_unacked (s : State) (k : Nat) (f : Partition → Partition) : (s.modPart k f).unacked = s.unacked := rfl
@[simp] theorem State.modPart_walks (s : State) (k : Nat) (f : Partition → Partition) : (s.modPart k f).walks = s.walks := rfl
@[simp] theorem State.modPart_listEntries (s : State) (k : Nat) (f : Partition → Partition) : (s.modPart k f).listEntries = s.listEntries := rfl
@[simp] theorem State.modPart_submissions (s : State) (k : Nat) (f : Partition → Partition) : (s.modPart k f).submissions = s.submissions := rfl
@[simp] theorem State.modPart_split (s : State) (k : Nat) (f : Partition → Partition) : (s.modPart k f).split = s.split := rfl
@[simp] theorem State.modPart_bootfail (s : State) (k : Nat) (f : Partition → Partition) : (s.modPart k f).bootfail = s.bootfail := rfl
@[simp] theorem State.modPart_fwImage (s : State) (k : Nat) (f : Partition → Partition) : (s.modPart k f).fwImage = s.fwImage := rfl
@[simp] theorem State.modPart_fwSignature (s : State) (k : Nat) (f : Partition → Partition) : (s.modPart k f).fwSignature = s.fwSignature := rfl
@[simp] theorem State.modPart_fwVersion (s : State) (k : Nat) (f : Partition → Partition) : (s.modPart k f).fwVersion = s.fwVersion := rfl
@[simp] theorem State.modPart_fwDigest (s : State) (k : Nat) (f : Partition → Partition) : (s.modPart k f).fwDigest = s.fwDigest := rfl
@[simp] theorem State.modPart_romKey (s : State) (k : Nat) (f : Partition → Partition) : (s.modPart k f).romKey = s.romKey := rfl
@[simp] theorem State.modPart_deviceSecret (s : State) (k : Nat) (f : Partition → Partition) : (s.modPart k f).deviceSecret = s.deviceSecret := rfl
@[simp] theorem State.modPart_deviceCert (s : State) (k : Nat) (f : Partition → Partition) : (s.modPart k f).deviceCert = s.deviceCert := rfl
@[simp] theorem State.modPart_romVersion (s : State) (k : Nat) (f : Partition → Partition) : (s.modPart k f).romVersion = s.romVersion := rfl
@[simp] theorem State.modPart_attIndex (s : State) (k : Nat) (f : Partition → Partition) : (s.modPart k f).attIndex = s.attIndex := rfl
@[simp] theorem State.modPart_attPending (s : State) (k : Nat) (f : Partition → Partition) : (s.modPart k f).attPending = s.attPending := rfl
@[simp] theorem State.modPart_attReports (s : State) (k : Nat) (f : Partition → Partition) : (s.modPart k f).attReports = s.attReports := rfl
@[simp] theorem State.modPart_attExhausted (s : State) (k : Nat) (f : Partition → Partition) : (s.modPart k f).attExhausted = s.attExhausted := rfl
@[simp] theorem State.modPart_powerCap (s : State) (k : Nat) (f : Partition → Partition) : (s.modPart k f).powerCap = s.powerCap := rfl
@[simp] theorem State.modPart_throttled (s : State) (k : Nat) (f : Partition → Partition) : (s.modPart k f).throttled = s.throttled := rfl
@[simp] theorem State.modPart_spares (s : State) (k : Nat) (f : Partition → Partition) : (s.modPart k f).spares = s.spares := rfl
@[simp] theorem State.modPart_offline (s : State) (k : Nat) (f : Partition → Partition) : (s.modPart k f).offline = s.offline := rfl
@[simp] theorem State.modPart_gated (s : State) (k : Nat) (f : Partition → Partition) : (s.modPart k f).gated = s.gated := rfl
@[simp] theorem State.modPart_links (s : State) (k : Nat) (f : Partition → Partition) : (s.modPart k f).links = s.links := rfl
@[simp] theorem State.modPart_irqs (s : State) (k : Nat) (f : Partition → Partition) : (s.modPart k f).irqs = s.irqs := rfl
@[simp] theorem State.modPart_powered (s : State) (k : Nat) (f : Partition → Partition) : (s.modPart k f).powered = s.powered := rfl
@[simp] theorem State.modPart_hostValue (s : State) (k : Nat) (f : Partition → Partition) : (s.modPart k f).hostValue = s.hostValue := rfl
@[simp] theorem State.modPart_imageEnds (s : State) (k : Nat) (f : Partition → Partition) : (s.modPart k f).imageEnds = s.imageEnds := rfl

/-! ### `setMem` -/

@[simp] theorem State.setMem_agenda (s : State) (g : GMem) : (s.setMem g).agenda = s.agenda := rfl
@[simp] theorem State.setMem_cur (s : State) (g : GMem) : (s.setMem g).cur = s.cur := rfl
@[simp] theorem State.setMem_fresh (s : State) (g : GMem) : (s.setMem g).fresh = s.fresh := rfl
@[simp] theorem State.setMem_nextId (s : State) (g : GMem) : (s.setMem g).nextId = s.nextId := rfl
@[simp] theorem State.setMem_now (s : State) (g : GMem) : (s.setMem g).now = s.now := rfl
@[simp] theorem State.setMem_mem (s : State) (g : GMem) : (s.setMem g).mem = g := rfl
@[simp] theorem State.setMem_crews (s : State) (g : GMem) : (s.setMem g).crews = s.crews := rfl
@[simp] theorem State.setMem_squads (s : State) (g : GMem) : (s.setMem g).squads = s.squads := rfl
@[simp] theorem State.setMem_launches (s : State) (g : GMem) : (s.setMem g).launches = s.launches := rfl
@[simp] theorem State.setMem_cores (s : State) (g : GMem) : (s.setMem g).cores = s.cores := rfl
@[simp] theorem State.setMem_islandClocks (s : State) (g : GMem) : (s.setMem g).islandClocks = s.islandClocks := rfl
@[simp] theorem State.setMem_clusters (s : State) (g : GMem) : (s.setMem g).clusters = s.clusters := rfl
@[simp] theorem State.setMem_parts (s : State) (g : GMem) : (s.setMem g).parts = s.parts := rfl
@[simp] theorem State.setMem_ops (s : State) (g : GMem) : (s.setMem g).ops = s.ops := rfl
@[simp] theorem State.setMem_jobs (s : State) (g : GMem) : (s.setMem g).jobs = s.jobs := rfl
@[simp] theorem State.setMem_pairLaunches (s : State) (g : GMem) : (s.setMem g).pairLaunches = s.pairLaunches := rfl
@[simp] theorem State.setMem_halves (s : State) (g : GMem) : (s.setMem g).halves = s.halves := rfl
@[simp] theorem State.setMem_flights (s : State) (g : GMem) : (s.setMem g).flights = s.flights := rfl
@[simp] theorem State.setMem_credits (s : State) (g : GMem) : (s.setMem g).credits = s.credits := rfl
@[simp] theorem State.setMem_messages (s : State) (g : GMem) : (s.setMem g).messages = s.messages := rfl
@[simp] theorem State.setMem_steals (s : State) (g : GMem) : (s.setMem g).steals = s.steals := rfl
@[simp] theorem State.setMem_drops (s : State) (g : GMem) : (s.setMem g).drops = s.drops := rfl
@[simp] theorem State.setMem_handoffs (s : State) (g : GMem) : (s.setMem g).handoffs = s.handoffs := rfl
@[simp] theorem State.setMem_unacked (s : State) (g : GMem) : (s.setMem g).unacked = s.unacked := rfl
@[simp] theorem State.setMem_walks (s : State) (g : GMem) : (s.setMem g).walks = s.walks := rfl
@[simp] theorem State.setMem_listEntries (s : State) (g : GMem) : (s.setMem g).listEntries = s.listEntries := rfl
@[simp] theorem State.setMem_submissions (s : State) (g : GMem) : (s.setMem g).submissions = s.submissions := rfl
@[simp] theorem State.setMem_split (s : State) (g : GMem) : (s.setMem g).split = s.split := rfl
@[simp] theorem State.setMem_bootfail (s : State) (g : GMem) : (s.setMem g).bootfail = s.bootfail := rfl
@[simp] theorem State.setMem_fwImage (s : State) (g : GMem) : (s.setMem g).fwImage = s.fwImage := rfl
@[simp] theorem State.setMem_fwSignature (s : State) (g : GMem) : (s.setMem g).fwSignature = s.fwSignature := rfl
@[simp] theorem State.setMem_fwVersion (s : State) (g : GMem) : (s.setMem g).fwVersion = s.fwVersion := rfl
@[simp] theorem State.setMem_fwDigest (s : State) (g : GMem) : (s.setMem g).fwDigest = s.fwDigest := rfl
@[simp] theorem State.setMem_romKey (s : State) (g : GMem) : (s.setMem g).romKey = s.romKey := rfl
@[simp] theorem State.setMem_deviceSecret (s : State) (g : GMem) : (s.setMem g).deviceSecret = s.deviceSecret := rfl
@[simp] theorem State.setMem_deviceCert (s : State) (g : GMem) : (s.setMem g).deviceCert = s.deviceCert := rfl
@[simp] theorem State.setMem_romVersion (s : State) (g : GMem) : (s.setMem g).romVersion = s.romVersion := rfl
@[simp] theorem State.setMem_attIndex (s : State) (g : GMem) : (s.setMem g).attIndex = s.attIndex := rfl
@[simp] theorem State.setMem_attPending (s : State) (g : GMem) : (s.setMem g).attPending = s.attPending := rfl
@[simp] theorem State.setMem_attReports (s : State) (g : GMem) : (s.setMem g).attReports = s.attReports := rfl
@[simp] theorem State.setMem_attExhausted (s : State) (g : GMem) : (s.setMem g).attExhausted = s.attExhausted := rfl
@[simp] theorem State.setMem_powerCap (s : State) (g : GMem) : (s.setMem g).powerCap = s.powerCap := rfl
@[simp] theorem State.setMem_throttled (s : State) (g : GMem) : (s.setMem g).throttled = s.throttled := rfl
@[simp] theorem State.setMem_spares (s : State) (g : GMem) : (s.setMem g).spares = s.spares := rfl
@[simp] theorem State.setMem_offline (s : State) (g : GMem) : (s.setMem g).offline = s.offline := rfl
@[simp] theorem State.setMem_gated (s : State) (g : GMem) : (s.setMem g).gated = s.gated := rfl
@[simp] theorem State.setMem_links (s : State) (g : GMem) : (s.setMem g).links = s.links := rfl
@[simp] theorem State.setMem_irqs (s : State) (g : GMem) : (s.setMem g).irqs = s.irqs := rfl
@[simp] theorem State.setMem_powered (s : State) (g : GMem) : (s.setMem g).powered = s.powered := rfl
@[simp] theorem State.setMem_hostValue (s : State) (g : GMem) : (s.setMem g).hostValue = s.hostValue := rfl
@[simp] theorem State.setMem_imageEnds (s : State) (g : GMem) : (s.setMem g).imageEnds = s.imageEnds := rfl

/-! ### Units after an update of one -/

@[simp] theorem State.crew_setCrew (s : State) (c : Nat) (cr : Crew) (j : Nat) :
    (s.setCrew c cr).crew j = if c = j then cr else s.crew j := by
  unfold State.crew State.setCrew; simp only [AList.find_set]; split <;> rfl
@[simp] theorem State.crew_modSquad (s : State) (q : Nat) (f : Squad → Squad) (j : Nat) : (s.modSquad q f).crew j = s.crew j := rfl
@[simp] theorem State.crew_modLaunch (s : State) (k : Nat) (f : Launch → Launch) (j : Nat) : (s.modLaunch k f).crew j = s.crew j := rfl
@[simp] theorem State.crew_modCore (s : State) (k : Nat) (f : Core → Core) (j : Nat) : (s.modCore k f).crew j = s.crew j := rfl
@[simp] theorem State.crew_modCluster (s : State) (k : Nat) (f : Cluster → Cluster) (j : Nat) : (s.modCluster k f).crew j = s.crew j := rfl
@[simp] theorem State.crew_modPart (s : State) (k : Nat) (f : Partition → Partition) (j : Nat) : (s.modPart k f).crew j = s.crew j := rfl
@[simp] theorem State.crew_setMem (s : State) (g : GMem) (j : Nat) : (s.setMem g).crew j = s.crew j := rfl
@[simp] theorem State.squad_setCrew (s : State) (c : Nat) (cr : Crew) (j : Nat) : (s.setCrew c cr).squad j = s.squad j := rfl
@[simp] theorem State.squad_modSquad (s : State) (q : Nat) (f : Squad → Squad) (j : Nat) :
    (s.modSquad q f).squad j = if q = j then f (s.squad q) else s.squad j := by
  unfold State.squad State.modSquad; simp only [AList.find_set]; split <;> rfl
@[simp] theorem State.squad_modLaunch (s : State) (k : Nat) (f : Launch → Launch) (j : Nat) : (s.modLaunch k f).squad j = s.squad j := rfl
@[simp] theorem State.squad_modCore (s : State) (k : Nat) (f : Core → Core) (j : Nat) : (s.modCore k f).squad j = s.squad j := rfl
@[simp] theorem State.squad_modCluster (s : State) (k : Nat) (f : Cluster → Cluster) (j : Nat) : (s.modCluster k f).squad j = s.squad j := rfl
@[simp] theorem State.squad_modPart (s : State) (k : Nat) (f : Partition → Partition) (j : Nat) : (s.modPart k f).squad j = s.squad j := rfl
@[simp] theorem State.squad_setMem (s : State) (g : GMem) (j : Nat) : (s.setMem g).squad j = s.squad j := rfl
@[simp] theorem State.launch_setCrew (s : State) (c : Nat) (cr : Crew) (j : Nat) : (s.setCrew c cr).launch j = s.launch j := rfl
@[simp] theorem State.launch_modSquad (s : State) (q : Nat) (f : Squad → Squad) (j : Nat) : (s.modSquad q f).launch j = s.launch j := rfl
@[simp] theorem State.launch_modLaunch (s : State) (k : Nat) (f : Launch → Launch) (j : Nat) :
    (s.modLaunch k f).launch j = if k = j then f (s.launch k) else s.launch j := by
  unfold State.launch State.modLaunch; simp only [AList.find_set]; split <;> rfl
@[simp] theorem State.launch_modCore (s : State) (k : Nat) (f : Core → Core) (j : Nat) : (s.modCore k f).launch j = s.launch j := rfl
@[simp] theorem State.launch_modCluster (s : State) (k : Nat) (f : Cluster → Cluster) (j : Nat) : (s.modCluster k f).launch j = s.launch j := rfl
@[simp] theorem State.launch_modPart (s : State) (k : Nat) (f : Partition → Partition) (j : Nat) : (s.modPart k f).launch j = s.launch j := rfl
@[simp] theorem State.launch_setMem (s : State) (g : GMem) (j : Nat) : (s.setMem g).launch j = s.launch j := rfl
@[simp] theorem State.core_setCrew (s : State) (c : Nat) (cr : Crew) (j : Nat) : (s.setCrew c cr).core j = s.core j := rfl
@[simp] theorem State.core_modSquad (s : State) (q : Nat) (f : Squad → Squad) (j : Nat) : (s.modSquad q f).core j = s.core j := rfl
@[simp] theorem State.core_modLaunch (s : State) (k : Nat) (f : Launch → Launch) (j : Nat) : (s.modLaunch k f).core j = s.core j := rfl
@[simp] theorem State.core_modCore (s : State) (k : Nat) (f : Core → Core) (j : Nat) :
    (s.modCore k f).core j = if k = j then f (s.core k) else s.core j := by
  unfold State.core State.modCore; simp only [AList.find_set]; split <;> rfl
@[simp] theorem State.core_modCluster (s : State) (k : Nat) (f : Cluster → Cluster) (j : Nat) : (s.modCluster k f).core j = s.core j := rfl
@[simp] theorem State.core_modPart (s : State) (k : Nat) (f : Partition → Partition) (j : Nat) : (s.modPart k f).core j = s.core j := rfl
@[simp] theorem State.core_setMem (s : State) (g : GMem) (j : Nat) : (s.setMem g).core j = s.core j := rfl
@[simp] theorem State.cluster_setCrew (s : State) (c : Nat) (cr : Crew) (j : Nat) : (s.setCrew c cr).cluster j = s.cluster j := rfl
@[simp] theorem State.cluster_modSquad (s : State) (q : Nat) (f : Squad → Squad) (j : Nat) : (s.modSquad q f).cluster j = s.cluster j := rfl
@[simp] theorem State.cluster_modLaunch (s : State) (k : Nat) (f : Launch → Launch) (j : Nat) : (s.modLaunch k f).cluster j = s.cluster j := rfl
@[simp] theorem State.cluster_modCore (s : State) (k : Nat) (f : Core → Core) (j : Nat) : (s.modCore k f).cluster j = s.cluster j := rfl
@[simp] theorem State.cluster_modCluster (s : State) (k : Nat) (f : Cluster → Cluster) (j : Nat) :
    (s.modCluster k f).cluster j = if k = j then f (s.cluster k) else s.cluster j := by
  unfold State.cluster State.modCluster; simp only [AList.find_set]; split <;> rfl
@[simp] theorem State.cluster_modPart (s : State) (k : Nat) (f : Partition → Partition) (j : Nat) : (s.modPart k f).cluster j = s.cluster j := rfl
@[simp] theorem State.cluster_setMem (s : State) (g : GMem) (j : Nat) : (s.setMem g).cluster j = s.cluster j := rfl
@[simp] theorem State.part_setCrew (s : State) (c : Nat) (cr : Crew) (j : Nat) : (s.setCrew c cr).part j = s.part j := rfl
@[simp] theorem State.part_modSquad (s : State) (q : Nat) (f : Squad → Squad) (j : Nat) : (s.modSquad q f).part j = s.part j := rfl
@[simp] theorem State.part_modLaunch (s : State) (k : Nat) (f : Launch → Launch) (j : Nat) : (s.modLaunch k f).part j = s.part j := rfl
@[simp] theorem State.part_modCore (s : State) (k : Nat) (f : Core → Core) (j : Nat) : (s.modCore k f).part j = s.part j := rfl
@[simp] theorem State.part_modCluster (s : State) (k : Nat) (f : Cluster → Cluster) (j : Nat) : (s.modCluster k f).part j = s.part j := rfl
@[simp] theorem State.part_modPart (s : State) (k : Nat) (f : Partition → Partition) (j : Nat) :
    (s.modPart k f).part j = if k = j then f (s.part k) else s.part j := by
  unfold State.part State.modPart; simp only [AList.find_set]; split <;> rfl
@[simp] theorem State.part_setMem (s : State) (g : GMem) (j : Nat) : (s.setMem g).part j = s.part j := rfl

/-! ### Crews and threads -/

@[simp] theorem State.modCrew_eq (s : State) (c : Nat) (f : Crew → Crew) : s.modCrew c f = s.setCrew c (f (s.crew c)) := rfl

@[simp] theorem State.modThread_eq (s : State) (c l : Nat) (f : Thread → Thread) :
    s.modThread c l f = s.setCrew c ((s.crew c).modThread l f) := rfl

/-- A crew with other threads and, or, another run is the crew itself. -/
@[simp] theorem Crew.setThread_length (cr : Crew) (l : Nat) (t : Thread) : (cr.setThread l t).threads.length = cr.threads.length := by
  simp [Crew.setThread]

@[simp] theorem Crew.modThread_length (cr : Crew) (l : Nat) (f : Thread → Thread) :
    (cr.modThread l f).threads.length = cr.threads.length := by simp [Crew.modThread]

/-- A thread after a change of one. -/
theorem Crew.thread_modThread (cr : Crew) (l m : Nat) (f : Thread → Thread) (h : l < cr.threads.length) :
    (cr.modThread l f).thread m = if l = m then f (cr.thread m) else cr.thread m := by
  unfold Crew.modThread Crew.setThread Crew.thread
  by_cases hlm : l = m
  · subst hlm; simp only [if_pos]; exact getD_set_self _ _ _ _ h
  · rw [if_neg hlm]; exact getD_set_ne _ _ _ _ _ hlm

/-- Changing threads changes nothing else of the crew. -/
theorem Crew.modThread_frame (cr : Crew) (l : Nat) (f : Thread → Thread) :
    cr.modThread l f = { cr with threads := (cr.modThread l f).threads } := rfl

/-- The threads of some lanes changed, in order. -/
def Crew.modThreadsOf (cr : Crew) (lanes : List Nat) (f : Nat → Thread → Thread) : Crew :=
  lanes.foldl (fun cr l => cr.modThread l (f l)) cr

@[simp] theorem Crew.modThreadsOf_length (cr : Crew) (lanes : List Nat) (f : Nat → Thread → Thread) :
    (cr.modThreadsOf lanes f).threads.length = cr.threads.length := by
  unfold Crew.modThreadsOf
  induction lanes generalizing cr with
  | nil => rfl
  | cons l ls ih => rw [List.foldl_cons, ih, Crew.modThread_length]

theorem Crew.modThreadsOf_frame (cr : Crew) (lanes : List Nat) (f : Nat → Thread → Thread) :
    cr.modThreadsOf lanes f = { cr with threads := (cr.modThreadsOf lanes f).threads } := by
  unfold Crew.modThreadsOf
  induction lanes generalizing cr with
  | nil => rfl
  | cons l ls ih => rw [List.foldl_cons]; exact ih _

/-- A thread after a change of some lanes' threads: changed once where its lane is among them. -/
theorem Crew.thread_modThreadsOf (cr : Crew) (lanes : List Nat) (f : Nat → Thread → Thread) (hn : lanes.Nodup)
    (hl : ∀ l ∈ lanes, l < cr.threads.length) (m : Nat) :
    (cr.modThreadsOf lanes f).thread m = if m ∈ lanes then f m (cr.thread m) else cr.thread m := by
  unfold Crew.modThreadsOf
  induction lanes generalizing cr with
  | nil => simp
  | cons l ls ih =>
    have hn' := List.nodup_cons.mp hn
    rw [List.foldl_cons, ih _ hn'.2 (fun k hk => by rw [Crew.modThread_length]; exact hl k (List.mem_cons_of_mem _ hk)),
      Crew.thread_modThread _ _ _ _ (hl l List.mem_cons_self)]
    by_cases hm : m ∈ ls
    · have : ¬ l = m := fun h => hn'.1 (h ▸ hm)
      simp [hm, this]
    · by_cases hlm : l = m
      · subst hlm; simp [hn'.1]
      · simp [hm, hlm, Ne.symm hlm]

/-- Changing the threads of a crew's lanes in the machine: the crew is changed so, and nothing else. -/
theorem State.modThreads_crew (s : State) (c : Nat) (lanes : List Nat) (f : Nat → Thread → Thread) (j : Nat) :
    (s.modThreads c lanes f).crew j = if c = j then (s.crew c).modThreadsOf lanes f else s.crew j := by
  unfold State.modThreads Crew.modThreadsOf
  induction lanes generalizing s with
  | nil => by_cases h : c = j <;> simp [h]
  | cons l ls ih => rw [List.foldl_cons, ih, List.foldl_cons]; by_cases h : c = j <;> simp [h]

theorem State.modThreads_frame (s : State) (c : Nat) (lanes : List Nat) (f : Nat → Thread → Thread) :
    s.modThreads c lanes f = { s with crews := (s.modThreads c lanes f).crews } := by
  unfold State.modThreads
  induction lanes generalizing s with
  | nil => rfl
  | cons l ls ih => rw [List.foldl_cons]; exact ih _

end Sys2Proof.Machine
end

