-- ==== Sys2Proof/Laws/Lane.lean ====
section
/-! SUPPORT. Laws of the run that issues, of the move to the next word, and of the one issue of a synchronous lane word. -/

namespace Sys2Proof.Machine

/-! ### The run that issues -/

theorem State.issuer_crew {s : State} {x : Issuer} (h : s.issuer = some x) : s.crew x.c = x.cr := by
  unfold State.issuer at h
  split at h
  · cases h
  · split at h
    · cases h
    · cases h; rfl

theorem State.issuer_run {s : State} {x : Issuer} (h : s.issuer = some x) : x.cr.run = some x.run := by
  unfold State.issuer at h
  split at h
  · cases h
  · split at h
    · cases h
    · next hr => cases h; exact hr

theorem State.issuer_cur {s : State} {x : Issuer} (h : s.issuer = some x) : s.cur = some x.c := by
  unfold State.issuer at h
  split at h
  · cases h
  · next hc =>
    split at h
    · cases h
    · cases h; exact hc

/-- A meaning that needs a run and has one is what it does for that run. -/
theorem withRun_next {s : State} {x : Issuer} (h : s.issuer = some x) (k : Issuer → State → State) :
    withRun s k = .next (k x s) := by
  unfold withRun; rw [h]

/-! ### The move to the next word -/

/-- What moving past a word makes of a thread of the run. -/
def Run.movedThread (r : Run) (n : Nat) (t : Thread) : Thread :=
  { t with pc := r.wordAddr (r.idx + n), mid := !decide (r.words.length ≤ r.idx + n), arrival := .fall, starve := 0, watchdog := 0 }

/-- What moving past a word makes of the run. -/
def Run.moved (r : Run) (n : Nat) : Option Run :=
  if r.words.length ≤ r.idx + n then none else some { r with idx := r.idx + n }

theorem Crew.advance_eq {cr : Crew} {r : Run} (h : cr.run = some r) (n : Nat) :
    cr.advance n = { cr.modThreadsOf r.lanes (fun _ => r.movedThread n) with run := r.moved n } := by
  unfold Crew.advance Crew.modThreadsOf Run.moved Run.movedThread
  rw [h]
  simp only [decide_eq_true_eq]

theorem Crew.thread_advance {cr : Crew} {r : Run} (h : cr.run = some r) (n : Nat) (hn : r.lanes.Nodup)
    (hl : ∀ l ∈ r.lanes, l < cr.threads.length) (m : Nat) :
    (cr.advance n).thread m = if m ∈ r.lanes then r.movedThread n (cr.thread m) else cr.thread m := by
  rw [Crew.advance_eq h]
  exact Crew.thread_modThreadsOf cr r.lanes _ hn hl m

theorem Crew.advance_run {cr : Crew} {r : Run} (h : cr.run = some r) (n : Nat) : (cr.advance n).run = r.moved n := by
  rw [Crew.advance_eq h]

theorem Crew.advance_frame (cr : Crew) (n : Nat) :
    cr.advance n = { cr with threads := (cr.advance n).threads, run := (cr.advance n).run } := by
  cases h : cr.run with
  | none => have e : cr.advance n = cr := by simp only [Crew.advance, h]
            rw [e]
  | some r =>
    rw [Crew.advance_eq h, Crew.modThreadsOf_frame]

theorem Crew.advance_length (cr : Crew) (n : Nat) : (cr.advance n).threads.length = cr.threads.length := by
  cases h : cr.run with
  | none => simp only [Crew.advance, h]
  | some r => simp only [Crew.advance_eq h, Crew.modThreadsOf_length]

theorem State.advance_eq (s : State) (c n : Nat) : s.advance c n = s.setCrew c ((s.crew c).advance n) := rfl

/-! ### Threads changed, then moved on -/

theorem Crew.modThreadsOf_run (cr : Crew) (lanes : List Nat) (f : Nat → Thread → Thread) :
    (cr.modThreadsOf lanes f).run = cr.run := by
  rw [Crew.modThreadsOf_frame]

/-- A run's threads are changed and the run moves on: each thread of the run is changed and moved, no other thread is touched, and
nothing else of the machine is, the crew's run apart. -/
theorem State.modThreads_advance {s : State} {x : Issuer} (h : s.issuer = some x) (hn : x.run.lanes.Nodup)
    (hl : ∀ l ∈ x.run.lanes, l < x.cr.threads.length) (f : Nat → Thread → Thread) (n : Nat) :
    ∃ cr : Crew, (s.modThreads x.c x.lanes f).advance x.c n = { s with crews := ((s.modThreads x.c x.lanes f).advance x.c n).crews } ∧
      (∀ j, ((s.modThreads x.c x.lanes f).advance x.c n).crew j = if x.c = j then cr else s.crew j) ∧
      cr = { x.cr with threads := cr.threads, run := cr.run } ∧ cr.run = x.run.moved n ∧
      cr.threads.length = x.cr.threads.length ∧
      ∀ m, cr.thread m = if m ∈ x.run.lanes then x.run.movedThread n (f m (x.cr.thread m)) else x.cr.thread m := by
  have hc := State.issuer_crew h
  have hr := State.issuer_run h
  refine ⟨(x.cr.modThreadsOf x.lanes f).advance n, ?_, ?_, ?_, ?_, ?_, ?_⟩
  · rw [State.modThreads_frame, State.advance_eq]; rfl
  · intro j
    rw [State.advance_eq, State.crew_setCrew, State.modThreads_crew, if_pos rfl, State.modThreads_crew, hc]
    by_cases hj : x.c = j <;> simp [hj]
  · rw [Crew.advance_frame, Crew.modThreadsOf_frame]
  · exact Crew.advance_run (by rw [Crew.modThreadsOf_run]; exact hr) n
  · rw [Crew.advance_length, Crew.modThreadsOf_length]
  · intro m
    rw [Crew.thread_advance (r := x.run) (by rw [Crew.modThreadsOf_run]; exact hr) n hn
      (by rw [Crew.modThreadsOf_length]; exact hl)]
    have e := Crew.thread_modThreadsOf x.cr x.lanes f hn hl m
    rw [e]
    change (if m ∈ x.run.lanes then x.run.movedThread n (if m ∈ x.run.lanes then _ else _) else
      (if m ∈ x.run.lanes then _ else _)) = _
    by_cases hm : m ∈ x.run.lanes <;> simp only [hm, if_true, if_false]

/-! ### A lane word with no port -/

theorem State.portTest_none (s : State) (c l : Nat) : s.portTest c l [] none = .go := by
  unfold State.portTest needOf
  simp [allPorts]

/-- With no port named, every lane goes. -/
theorem State.portGate_none (s : State) (c : Nat) (lanes : List Nat) : s.portGate c [] none lanes = (s, lanes) := by
  induction lanes with
  | nil => rfl
  | cons l ls ih => unfold State.portGate; rw [State.portTest_none, ih]

theorem State.takePops_none (s : State) (c : Nat) (lanes : List Nat) : s.takePops c [] lanes = s := by
  unfold State.takePops
  induction lanes with
  | nil => rfl
  | cons l ls ih => rw [List.foldl_cons]; exact ih

/-- No operand of a word is a port. -/
def plainWord (f : LaneForm) (d a : LOp) (b : BOp) : Bool := (f.aw == 0 || a.noPort) && b.noPort && d.noPort

theorem srcPorts_plain {f : LaneForm} {d a : LOp} {b : BOp} (h : plainWord f d a b = true) : srcPorts f a b = [] := by
  unfold plainWord at h
  simp only [Bool.and_eq_true, Bool.or_eq_true, beq_iff_eq] at h
  obtain ⟨⟨ha, hb⟩, _⟩ := h
  unfold srcPorts
  have e1 : (if f.aw = 0 then [] else portsIn [a]) = ([] : List Port) := by
    split
    · rfl
    · next h0 => cases a <;> simp_all [portsIn, LOp.noPort]
  rw [e1]
  cases b with
  | lane y => cases y <;> first | rfl | simp [BOp.noPort] at hb
  | _ => rfl

theorem asPort_noPort {d : LOp} (h : d.noPort = true) : d.asPort = none := by cases d <;> simp_all [LOp.noPort, LOp.asPort]

/-- The results of lanes that name no port are written thread by thread. -/
theorem State.laneEffect_plain (s : State) (c : Nat) (f : LaneForm) (fn : LaneFn) (u : Bool) (d a : LOp) (b : BOp) (go : List Nat)
    (h : plainWord f d a b = true) :
    s.laneEffect c f fn u d a b go = s.modThreads c go (fun l t =>
      let v := (s.crew c).laneSources f d a b (if u then go.headD 0 else l)
      t.result d (fn v.1 v.2.1 v.2.2).1 (fn v.1 v.2.1 v.2.2).2) := by
  have hd : d.noPort = true := by unfold plainWord at h; simp_all
  unfold State.laneEffect State.modThreads
  simp only [srcPorts_plain h, State.takePops_none]
  rw [List.foldl_map]
  congr 1
  funext s l
  unfold State.laneWrite
  cases d <;> simp_all [LOp.noPort]

/-- ONE ISSUE OF A SYNCHRONOUS LANE WORD with legal operands, none a port, present lines and equal sources where U asks for them. -/
theorem laneIssue_plain {s : State} {x : Issuer} (h : s.issuer = some x) {f : LaneForm} {fn : LaneFn} {slow u : Bool} {d a : LOp}
    {b : BOp} (legal : laneLegal f (s.regsOf x.c) u d a b = true) (plain : plainWord f d a b = true)
    (lines : (linesOf f.dw d ++ (if f.aw = 0 then [] else linesOf f.aw a) ++ bLinesOf f.bw b).any
      (fun n => x.cr.absent.contains n) = false)
    (same : (u && x.cr.uchk && !x.cr.sameSources f d a b x.lanes) = false) :
    laneIssue f fn slow u d a b x s =
      let t := (s.modThreads x.c x.lanes (fun l t =>
        let v := x.cr.laneSources f d a b (if u then x.lowest else l)
        t.result d (fn v.1 v.2.1 v.2.2).1 (fn v.1 v.2.1 v.2.2).2)).advance x.c b.size
      if slow && !x.lanes.isEmpty then t.holdPipe x.c false else t := by
  have hd : d.noPort = true := by unfold plainWord at plain; simp_all
  unfold laneIssue laneIssueWith
  simp only [legal, lines, same, Bool.not_true, Bool.false_eq_true, if_false, srcPorts_plain plain, asPort_noPort hd,
    State.portGate_none, State.laneEffect_plain _ _ _ _ _ _ _ _ _ plain, State.issuer_crew h]
  rfl

/-! ### Taking a trap, and stalling -/

/-- A thread parked with a cause that needs no permit. -/
def Thread.parkedWith (now : Nat) (cause : Cause) (addr : DWord) (t : Thread) : Thread :=
  { t with st := .parked, stall := none, held := none, joined := false, starve := 0, watchdog := 0
           parked := some { cause := cause, addr := addr, route := .deliver, at_ := now } }

theorem Crew.leaveRun_frame (cr : Crew) (lanes : List Nat) : cr.leaveRun lanes = { cr with run := (cr.leaveRun lanes).run } := by
  have e : ∀ o, cr.run = o → cr.leaveRun lanes = { cr with run := (cr.leaveRun lanes).run } := by
    intro o ho
    unfold Crew.leaveRun
    rw [ho]
    cases o with
    | none => rfl
    | some r => rfl
  exact e _ rfl

/-- A lane parks with a cause that needs no permit: its thread, and its crew's run, and nothing else. -/
theorem State.parkLane_plain (s : State) (c l : Nat) (cause : Cause) (addr : DWord) (h : cause.needsPermit false = false) :
    s.parkLane c l cause addr false false none =
      s.setCrew c (((s.crew c).modThread l (Thread.parkedWith s.now cause addr)).leaveRun [l]) := by
  have h1 : cause ≠ .pageFault := by intro e; subst e; simp [Cause.needsPermit] at h
  have h2 : cause.listed false = false := by
    unfold Cause.needsPermit at h; simp only [Bool.or_eq_false_iff] at h; exact h.2
  unfold State.parkLane
  simp only [h, h1, h2, Bool.false_and, Bool.false_eq_true, if_false, State.modThread_eq, State.modCrew_eq,
    State.crew_setCrew, if_pos]
  unfold State.setCrew
  rw [AList.set_set]
  rfl

theorem Crew.leaveRun_leaveRun (cr : Crew) (a b : List Nat) : (cr.leaveRun a).leaveRun b = cr.leaveRun (a ++ b) := by
  unfold Crew.leaveRun
  cases h : cr.run with
  | none => simp only [h]
  | some r =>
    simp only
    by_cases he : (r.lanes.filter (fun l => !a.contains l)).isEmpty = true
    · have e2 : (r.lanes.filter (fun l => !(a ++ b).contains l)).isEmpty = true := by
        rw [List.isEmpty_iff, List.filter_eq_nil_iff] at he ⊢
        intro l hl; have := he l hl; simp_all
      simp only [he, e2, if_true]
    · have e3 : (r.lanes.filter (fun l => !a.contains l)).filter (fun l => !b.contains l) =
          r.lanes.filter (fun l => !(a ++ b).contains l) := by
        rw [List.filter_filter]; congr 1; funext l; simp [Bool.and_comm]
      simp only [he, if_false, e3, Bool.false_eq_true]

theorem Crew.modThread_leaveRun (cr : Crew) (l : Nat) (f : Thread → Thread) (a : List Nat) :
    (cr.leaveRun a).modThread l f = (cr.modThread l f).leaveRun a := by
  unfold Crew.leaveRun
  have e : (cr.modThread l f).run = cr.run := rfl
  rw [e]
  cases h : cr.run <;> rfl

/-- Threads change and leave the run one after the other. -/
theorem Crew.foldl_leave (cr : Crew) (lanes : List Nat) (f : Nat → Thread → Thread) (hne : lanes ≠ []) :
    lanes.foldl (fun cr l => (cr.modThread l (f l)).leaveRun [l]) cr = (cr.modThreadsOf lanes f).leaveRun lanes := by
  have gen : ∀ (ls : List Nat) (a : List Nat) (k : Crew), ls.foldl (fun cr l => (cr.modThread l (f l)).leaveRun [l]) (k.leaveRun a) =
      (k.modThreadsOf ls f).leaveRun (a ++ ls) := by
    intro ls
    induction ls with
    | nil => intro a k; simp [Crew.modThreadsOf]
    | cons l ls ih =>
      intro a k
      rw [List.foldl_cons, Crew.modThread_leaveRun, Crew.leaveRun_leaveRun, ih]
      simp [Crew.modThreadsOf]
  cases lanes with
  | nil => exact absurd rfl hne
  | cons l ls =>
    rw [List.foldl_cons, gen]
    rfl

/-- Every lane of a run leaves it: the run is over. -/
theorem Crew.leaveRun_all {cr : Crew} {r : Run} (h : cr.run = some r) : cr.leaveRun r.lanes = { cr with run := none } := by
  unfold Crew.leaveRun
  rw [h]
  have e : (r.lanes.filter (fun l => !r.lanes.contains l)) = [] := by
    rw [List.filter_eq_nil_iff]; intro l hl; simp [hl]
  simp only [e, List.isEmpty_nil, if_true]

/-- TRAPPING: the whole run parks with a cause that needs no permit. -/
theorem State.raise_plain {s : State} {x : Issuer} (hx : s.issuer = some x) (hne : x.run.lanes ≠ []) {cause : Cause} (addr : DWord)
    (h : cause.needsPermit false = false) :
    (∀ j, (s.raise x cause addr).crew j = if x.c = j then
      { x.cr.modThreadsOf x.run.lanes (fun _ => Thread.parkedWith s.now cause addr) with run := none } else s.crew j) ∧
    s.raise x cause addr = { s with crews := (s.raise x cause addr).crews } := by
  have gen : ∀ (ls : List Nat) (t : State), t.now = s.now →
      (ls.foldl (fun s l => s.parkLane x.c l cause addr false false none) t =
        { t with crews := (ls.foldl (fun s l => s.parkLane x.c l cause addr false false none) t).crews }) ∧
      ∀ j, (ls.foldl (fun s l => s.parkLane x.c l cause addr false false none) t).crew j = if x.c = j then
        ls.foldl (fun cr l => (cr.modThread l (Thread.parkedWith s.now cause addr)).leaveRun [l]) (t.crew x.c) else t.crew j := by
    intro ls
    induction ls with
    | nil => intro t _; exact ⟨rfl, fun j => by by_cases hj : x.c = j <;> simp [hj]⟩
    | cons l ls ih =>
      intro t ht
      have hp := State.parkLane_plain t x.c l cause addr h
      rw [ht] at hp
      rw [List.foldl_cons, hp]
      obtain ⟨i1, i2⟩ := ih (t.setCrew x.c (((t.crew x.c).modThread l (Thread.parkedWith s.now cause addr)).leaveRun [l])) ht
      refine ⟨by rw [i1]; rfl, fun j => ?_⟩
      rw [i2, List.foldl_cons, State.crew_setCrew, if_pos rfl, State.crew_setCrew]
      by_cases hj : x.c = j <;> simp [hj]
  obtain ⟨g1, g2⟩ := gen x.run.lanes s rfl
  refine ⟨fun j => ?_, g1⟩
  change (x.run.lanes.foldl (fun s l => s.parkLane x.c l cause addr false false none) s).crew j = _
  rw [g2, Crew.foldl_leave _ _ (fun _ => Thread.parkedWith s.now cause addr) hne, State.issuer_crew hx]
  have hr : (x.cr.modThreadsOf x.run.lanes (fun _ => Thread.parkedWith s.now cause addr)).run = some x.run := by
    rw [Crew.modThreadsOf_run]; exact State.issuer_run hx
  rw [Crew.leaveRun_all hr]

/-- STALLING: the whole run stalls at its word. -/
theorem State.stall_run {s : State} {x : Issuer} (hx : s.issuer = some x) (why : Stall) :
    s.stall x.c x.lanes why = s.setCrew x.c
      { x.cr.modThreadsOf x.run.lanes (fun _ t => { t with stall := some why, starve := 0 }) with run := none } := by
  unfold State.stall
  rw [State.modCrew_eq, State.issuer_crew hx]
  have hr : (x.cr.modThreadsOf x.run.lanes (fun _ t => { t with stall := some why, starve := 0 })).run = some x.run := by
    rw [Crew.modThreadsOf_run]; exact State.issuer_run hx
  exact congrArg _ (Crew.leaveRun_all hr)

end Sys2Proof.Machine
end

