-- ==== Sys2Proof/Laws/Access.lean ====
section
/-! SUPPORT. Laws of translation and of starting operations: what each changes, and what it leaves. -/

namespace Sys2Proof.Machine

/-! ### Translation -/

/-- Translation fills TLBs and changes nothing else. -/
theorem State.translate_frame (s : State) (core space va : Nat) :
    (s.translate core space va).2 =
      { s with cores := (s.translate core space va).2.cores, clusters := (s.translate core space va).2.clusters } := by
  unfold State.translate
  split
  · rfl
  · simp only
    split
    · rfl
    · split <;> rfl

/-- An access changes TLBs and nothing else. -/
theorem State.access_frame (s : State) (core space va : Nat) (w f : Bool) :
    (s.access core space va w f).2 =
      { s with cores := (s.access core space va w f).2.cores, clusters := (s.access core space va w f).2.clusters } := by
  have h := State.translate_frame s core space va
  unfold State.access
  split
  · rfl
  · split
    · next s' heq => rw [heq] at h; exact h
    · next e s' heq => rw [heq] at h; split <;> exact h

/-- Translation looks at the TLBs, memory and the partition alone. -/
theorem State.translate_other (s : State) (core space va : Nat) (crews : AList Crew) (ops : List Op) (n : Nat) :
    ({ s with crews := crews, ops := ops, nextId := n }).translate core space va =
      ((s.translate core space va).1, { (s.translate core space va).2 with crews := crews, ops := ops, nextId := n }) := by
  unfold State.translate
  have e1 : ({ s with crews := crews, ops := ops, nextId := n } : State).core core = s.core core := rfl
  have e2 : ({ s with crews := crews, ops := ops, nextId := n } : State).cluster (clusterOfCore core) =
    s.cluster (clusterOfCore core) := rfl
  have e3 : ({ s with crews := crews, ops := ops, nextId := n } : State).pageTable
    (({ s with crews := crews, ops := ops, nextId := n } : State).partOfCore core) space va =
    s.pageTable (s.partOfCore core) space va := rfl
  rw [e1, e2, e3]
  split
  · rfl
  · simp only
    split
    · rfl
    · split <;> rfl

theorem State.access_other (s : State) (core space va : Nat) (w f : Bool) (crews : AList Crew) (ops : List Op) (n : Nat) :
    ({ s with crews := crews, ops := ops, nextId := n }).access core space va w f =
      ((s.access core space va w f).1, { (s.access core space va w f).2 with crews := crews, ops := ops, nextId := n }) := by
  unfold State.access
  split
  · rfl
  · rw [State.translate_other]
    rcases h : s.translate core space va with ⟨o, s'⟩
    cases o with
    | none => rfl
    | some e => simp only; split <;> rfl

/-! ### Starting an operation -/

/-- The crew with the flag of some lanes counting one more, and its task's effects bit set where the operation sets it. -/
def Crew.counted (cr : Crew) (lanes : List Nat) (flag : Option Nat) (effect : Bool) : Crew :=
  let cr := if effect then { cr with tasks := cr.tasks.map (fun t => { t with effects := true }) } else cr
  match flag with
  | none => cr
  | some f => cr.modThreadsOf lanes (fun _ t => t.flagAdd f)

/-- STARTING AN OPERATION: it takes the next number and stands last among the outstanding ones, its flag counts it for each of its
threads, and nothing else changes, its task's effects bit apart. -/
theorem State.startOp_eq (s : State) (op : Op) :
    (∀ j, (s.startOp op).crew j = if op.crew = j then (s.crew op.crew).counted op.lanes op.flag op.kind.effect else s.crew j) ∧
    s.startOp op = { s with crews := (s.startOp op).crews, ops := s.ops ++ [{ op with id := s.nextId }], nextId := s.nextId + 1 } := by
  have key : ∀ (t : State), (∀ j, (t.flagAdd op.crew op.lanes op.flag).crew j =
      if op.crew = j then (t.crew op.crew).counted op.lanes op.flag false else t.crew j) ∧
      t.flagAdd op.crew op.lanes op.flag = { t with crews := (t.flagAdd op.crew op.lanes op.flag).crews } := by
    intro t
    unfold State.flagAdd Crew.counted
    cases op.flag with
    | none => exact ⟨fun j => by by_cases h : op.crew = j <;> simp [h], rfl⟩
    | some f => exact ⟨fun j => by simp only [State.modThreads_crew]; rfl, State.modThreads_frame _ _ _ _⟩
  cases he : op.kind.effect with
  | false =>
    obtain ⟨k1, k2⟩ := key s
    have e : s.startOp op = { s.flagAdd op.crew op.lanes op.flag with
      ops := (s.flagAdd op.crew op.lanes op.flag).ops ++ [{ op with id := (s.flagAdd op.crew op.lanes op.flag).nextId }]
      nextId := (s.flagAdd op.crew op.lanes op.flag).nextId + 1 } := by
      unfold State.startOp; rw [he]; rfl
    constructor
    · intro j; rw [e]; exact k1 j
    · rw [e, k2]
  | true =>
    obtain ⟨k1, k2⟩ := key (s.noteEffect op.crew)
    have e : s.startOp op = { (s.noteEffect op.crew).flagAdd op.crew op.lanes op.flag with
      ops := ((s.noteEffect op.crew).flagAdd op.crew op.lanes op.flag).ops ++
        [{ op with id := ((s.noteEffect op.crew).flagAdd op.crew op.lanes op.flag).nextId }]
      nextId := ((s.noteEffect op.crew).flagAdd op.crew op.lanes op.flag).nextId + 1 } := by
      unfold State.startOp; rw [he]; rfl
    constructor
    · intro j
      rw [e]
      have := k1 j
      change ((s.noteEffect op.crew).flagAdd op.crew op.lanes op.flag).crew j = _
      rw [this]
      unfold State.noteEffect
      simp only [State.modCrew_eq, State.crew_setCrew, if_pos]
      by_cases h : op.crew = j
      · simp only [h, if_true]
        unfold Crew.counted
        cases op.flag <;> rfl
      · simp only [h, if_false]
    · rw [e, k2]; rfl

theorem Crew.counted_frame (cr : Crew) (lanes : List Nat) (flag : Option Nat) (effect : Bool) :
    cr.counted lanes flag effect = { cr with
      threads := (cr.counted lanes flag effect).threads
      tasks := if effect then cr.tasks.map (fun t => { t with effects := true }) else cr.tasks } := by
  unfold Crew.counted
  cases flag with
  | none => cases effect <;> rfl
  | some f => cases effect <;> (simp only; rw [Crew.modThreadsOf_frame]; rfl)

theorem Crew.counted_length (cr : Crew) (lanes : List Nat) (flag : Option Nat) (effect : Bool) :
    (cr.counted lanes flag effect).threads.length = cr.threads.length := by
  unfold Crew.counted
  cases flag <;> cases effect <;> simp

/-- A thread whose crew has counted: its flag, where its lane is among those counted. -/
theorem Crew.counted_thread (cr : Crew) (lanes : List Nat) (flag : Option Nat) (effect : Bool) (hn : lanes.Nodup)
    (hl : ∀ l ∈ lanes, l < cr.threads.length) (m : Nat) :
    (cr.counted lanes flag effect).thread m =
      match flag with
      | none => cr.thread m
      | some f => if m ∈ lanes then (cr.thread m).flagAdd f else cr.thread m := by
  unfold Crew.counted
  cases flag with
  | none => cases effect <;> rfl
  | some f =>
    cases effect
    · exact Crew.thread_modThreadsOf cr lanes _ hn hl m
    · exact Crew.thread_modThreadsOf { cr with tasks := cr.tasks.map (fun t => { t with effects := true }) } lanes _ hn hl m

end Sys2Proof.Machine
end

