-- ==== Sys2Proof/Laws/Image.lean ====
section
/-! SUPPORT. Laws of context images: a crew all of whose lines are at hand has nothing to exchange with its image. -/

namespace Sys2Proof.Machine

/-- A line whose words in memory are those last exchanged brings nothing. -/
theorem Crew.putLine_same (cr : Crew) (n : Nat) (ws : List Word) (entry : Nat → Nat → Nat → Word) : cr.putLine n ws ws entry = cr := by
  unfold Crew.putLine; simp

/-- A line that is at hand needs no fetch. -/
theorem State.fetchLine_here (s : State) (c n : Nat) (h : (s.crew c).away.find n = none) : s.fetchLine c n = some s := by
  unfold State.fetchLine; rw [h]

/-- A crew with no line in its image is left as it is. -/
theorem State.syncCrew_here (s : State) (c : Nat) (h : (s.crew c).away = []) : s.syncCrew c = s := by
  unfold State.syncCrew; rw [h]; rfl

/-- With no line of any crew in its image a cycle exchanges nothing. -/
theorem State.syncImages_here (s : State) (h : ∀ p ∈ s.crews, p.2.away = []) : s.syncImages = s := by
  have e : s.crews.filter (fun (p : Nat × Crew) => !p.2.away.isEmpty) = [] := by
    rw [List.filter_eq_nil_iff]; intro p hp; simp [h p hp]
  unfold State.syncImages; rw [e]; rfl

/-- An access to no byte of a slice, or one by a crew that is not on its core, needs no line. -/
theorem State.touchSlice_none (s : State) (c addr n : Nat) (h : (s.crew c).resident = false ∨ n = 0) : s.touchSlice c addr n = (true, s) := by
  unfold State.touchSlice; rcases h with h | h <;> simp [h]

end Sys2Proof.Machine
end

