-- ==== Sys2Proof/Laws/Memory.lean ====
section
/-! SUPPORT. Laws of global memory (R129-R136): what each of its operations writes, what it leaves, and that it keeps the canonical form. -/

namespace Sys2Proof.Machine

/-- The home contents and the view of every island are in canonical form. -/
def GMem.Canonical (g : GMem) : Prop := g.home.wf = true ∧ ∀ m ∈ g.views, m.wf = true

/-- A view of a canonical memory is canonical. -/
theorem GMem.wf_view (g : GMem) (i : Nat) (h : g.Canonical) : (g.view i).wf = true := by
  unfold GMem.view
  rw [List.getD_eq_getElem?_getD]
  cases hv : g.views[i]? with
  | none => rfl
  | some m => exact h.2 m (List.mem_of_getElem? hv)

/-- Replacing one view by a canonical one keeps the views canonical. -/
theorem wf_set_view (vs : List Memory) (i : Nat) (m : Memory) (h : ∀ v ∈ vs, v.wf = true) (hm : m.wf = true) :
    ∀ v ∈ vs.set i m, v.wf = true := by
  intro v hv
  rcases List.mem_or_eq_of_mem_set hv with h1 | h1
  · exact h v h1
  · exact h1 ▸ hm

theorem GMem.canonical_applyView (g : GMem) (i : Nat) (cells : List Host.Cell) (h : g.Canonical) : (g.applyView i cells).Canonical :=
  ⟨h.1, wf_set_view _ _ _ h.2 (Memory.wf_writeCells _ _ (g.wf_view i h))⟩

/-- The four views take the same bytes. -/
theorem GMem.canonical_applyViews (is : List Nat) (cells : List Host.Cell) (g : GMem) (h : g.Canonical) :
    (is.foldl (fun g j => g.applyView j cells) g).Canonical := by
  induction is generalizing g with
  | nil => exact h
  | cons i is ih => exact ih _ (g.canonical_applyView i cells h)

theorem GMem.canonical_write (g : GMem) (i : Nat) (cells : List Host.Cell) (squad op : Nat) (threads : List (Nat × Nat)) (h : g.Canonical) :
    (g.write i cells squad op threads).Canonical :=
  ⟨Memory.wf_writeCells _ _ h.1, (g.canonical_applyView i cells h).2⟩

theorem GMem.canonical_writeAll (g : GMem) (i : Nat) (cells : List Host.Cell) (h : g.Canonical) : (g.writeAll i cells).Canonical :=
  ⟨Memory.wf_writeCells _ _ h.1, (GMem.canonical_applyViews (List.range 4) cells g h).2⟩

theorem GMem.canonical_writeSys (g : GMem) (cells : List Host.Cell) (h : g.Canonical) : (g.writeSys cells).Canonical :=
  ⟨Memory.wf_writeCells _ _ h.1, (GMem.canonical_applyViews (List.range 4) cells g h).2⟩

theorem GMem.canonical_applyRemote (g : GMem) (w : RemoteWrite) (h : g.Canonical) : (g.applyRemote w).Canonical :=
  ⟨h.1, wf_set_view _ _ _ h.2 (Memory.wf_writeCells _ _ (g.wf_view w.dst h))⟩

theorem GMem.canonical_cleanCovered (g : GMem) (a n : Nat) (h : g.Canonical) : (g.cleanCovered a n).Canonical := h

theorem GMem.canonical_addPoison (g : GMem) (l : Nat) (h : g.Canonical) : (g.addPoison l).Canonical := h

theorem GMem.canonical_settled (g : GMem) (h : g.Canonical) : g.settled.Canonical :=
  ⟨h.1, fun _ hm => (List.eq_of_mem_replicate hm) ▸ h.1⟩

/-- Reading notes who has read, and leaves every byte as it was. -/
theorem GMem.noteRead_frame (g : GMem) (i : Nat) (addrs : List Nat) (threads : List (Nat × Nat)) :
    g.noteRead i addrs threads = { g with pend := (g.noteRead i addrs threads).pend } := rfl

theorem GMem.canonical_noteRead (g : GMem) (i : Nat) (addrs : List Nat) (threads : List (Nat × Nat)) (h : g.Canonical) :
    (g.noteRead i addrs threads).Canonical := h

/-- Memory at reset lists nothing. -/
theorem reset_canonical : State.reset.mem.Canonical := ⟨rfl, by decide⟩

/-! ### What a write reads as -/

/-- A view that has applied bytes holds them. -/
theorem GMem.view_applyView (g : GMem) (i : Nat) (cells : List Host.Cell) (h : i < g.views.length) :
    (g.applyView i cells).view i = (g.view i).writeCells cells := getD_set_self _ _ _ _ h

/-- The other views are as they were. -/
theorem GMem.view_applyView_ne (g : GMem) (i j : Nat) (cells : List Host.Cell) (h : i ≠ j) : (g.applyView i cells).view j = g.view j :=
  getD_set_ne _ _ _ _ _ h

/-- A write from an island is in its own view, and in no other yet (R129). -/
theorem GMem.view_write (g : GMem) (i j : Nat) (cells : List Host.Cell) (squad op : Nat) (threads : List (Nat × Nat)) (h : i < g.views.length) :
    (g.write i cells squad op threads).view j = if j = i then (g.view i).writeCells cells else g.view j := by
  show (g.applyView i cells).view j = _
  by_cases hj : j = i
  · rw [if_pos hj, hj, g.view_applyView i cells h]
  · rw [if_neg hj, g.view_applyView_ne i j cells (Ne.symm hj)]

/-- Reading a byte of an island's view after a write from it: the byte written, or the byte of before. -/
theorem GMem.get_write (g : GMem) (i a : Nat) (bs : List Byte) (squad op x : Nat) (threads : List (Nat × Nat)) (h : i < g.views.length) :
    ((g.write i (cellsAt a bs) squad op threads).view i).get x = if a ≤ x ∧ x < a + bs.length then bs.getD (x - a) 0#8 else (g.view i).get x := by
  rw [g.view_write i i _ squad op threads h, if_pos rfl, Memory.writeCells_cellsAt, Memory.get_write]

/-- The home contents after a write. -/
theorem GMem.home_write (g : GMem) (i : Nat) (cells : List Host.Cell) (squad op : Nat) (threads : List (Nat × Nat)) :
    (g.write i cells squad op threads).home = g.home.writeCells cells := rfl

/-- A remote view that applies a write holds its bytes, and no other view changes. -/
theorem GMem.view_applyRemote (g : GMem) (w : RemoteWrite) (j : Nat) (h : w.dst < g.views.length) :
    (g.applyRemote w).view j = if j = w.dst then (g.view w.dst).writeCells w.cells else g.view j := by
  show (g.views.set w.dst ((g.view w.dst).writeCells w.cells)).getD j [] = _
  by_cases hj : j = w.dst
  · rw [if_pos hj, hj, getD_set_self _ _ _ _ h]
  · rw [if_neg hj, getD_set_ne _ _ _ _ _ (Ne.symm hj)]
    rfl

end Sys2Proof.Machine
end

