-- ==== Sys2Proof/Laws/Registers.lean ====
section
/-! SUPPORT. Laws of a thread's registers: what each reads after words were written to a destination. -/

namespace Sys2Proof.Machine

theorem Thread.writeW_frame (t : Thread) (d : LOp) (w : Word) :
    t.writeW d w = { t with v := (t.writeW d w).v, o := (t.writeW d w).o, p := (t.writeW d w).p, wrote := (t.writeW d w).wrote } := by
  cases d <;> rfl

theorem Thread.writeWs_frame (t : Thread) (d : LOp) (ws : List Word) :
    t.writeWs d ws =
      { t with v := (t.writeWs d ws).v, o := (t.writeWs d ws).o, p := (t.writeWs d ws).p, wrote := (t.writeWs d ws).wrote } := by
  induction ws generalizing t d with
  | nil => rfl
  | cons w ws ih =>
    rw [Thread.writeWs, ih, Thread.writeW_frame]

/-- Words written to `v` registers. -/
theorem Thread.writeWs_v (t : Thread) (r : Nat) (hr : r < 104) (ws : List Word) (h : r + ws.length ≤ 104) (k : Nat) :
    (t.writeWs (.v ⟨r, hr⟩) ws).v.get k = if r ≤ k ∧ k < r + ws.length then ws.getD (k - r) 0#32 else t.v.get k := by
  induction ws generalizing t r with
  | nil => simp only [Thread.writeWs, List.length_nil, Nat.add_zero]; rw [if_neg (by omega)]
  | cons w ws ih =>
    simp only [List.length_cons] at h
    rw [Thread.writeWs]
    cases ws with
    | nil => 
      simp only [Thread.writeWs, Thread.writeW, Store.get_put, List.length_cons, List.length_nil]
      by_cases hk : r = k
      · subst hk; simp
      · rw [if_neg hk, if_neg (by omega)]
    | cons w' ws =>
      have h1 : r + 1 < 104 := by simp only [List.length_cons] at h; omega
      have e : lopPlus (.v ⟨r, hr⟩) 1 = .v ⟨r + 1, h1⟩ := by simp [lopPlus, h1]
      rw [e, ih _ (r + 1) h1 (by omega)]
      simp only [Thread.writeW, Store.get_put, List.length_cons]
      by_cases hk : r = k
      · subst hk; rw [if_neg (by omega), if_pos rfl, if_pos (by omega)]; simp
      · by_cases h2 : r + 1 ≤ k ∧ k < r + 1 + (ws.length + 1)
        · rw [if_pos h2, if_pos (by omega)]
          have : k - r = (k - (r + 1)) + 1 := by omega
          rw [this, List.getD_cons_succ]
        · rw [if_neg h2, if_neg hk, if_neg (by omega)]

theorem Thread.writeWs_o (t : Thread) (r : Nat) (hr : r < 8) (ws : List Word) (h : r + ws.length ≤ 8) (k : Nat) :
    (t.writeWs (.o ⟨r, hr⟩) ws).o.get k = if r ≤ k ∧ k < r + ws.length then ws.getD (k - r) 0#32 else t.o.get k := by
  induction ws generalizing t r with
  | nil => simp only [Thread.writeWs, List.length_nil, Nat.add_zero]; rw [if_neg (by omega)]
  | cons w ws ih =>
    simp only [List.length_cons] at h
    rw [Thread.writeWs]
    cases ws with
    | nil => 
      simp only [Thread.writeWs, Thread.writeW, Store.get_put, List.length_cons, List.length_nil]
      by_cases hk : r = k
      · subst hk; simp
      · rw [if_neg hk, if_neg (by omega)]
    | cons w' ws =>
      have h1 : r + 1 < 8 := by simp only [List.length_cons] at h; omega
      have e : lopPlus (.o ⟨r, hr⟩) 1 = .o ⟨r + 1, h1⟩ := by simp [lopPlus, h1]
      rw [e, ih _ (r + 1) h1 (by omega)]
      simp only [Thread.writeW, Store.get_put, List.length_cons]
      by_cases hk : r = k
      · subst hk; rw [if_neg (by omega), if_pos rfl, if_pos (by omega)]; simp
      · by_cases h2 : r + 1 ≤ k ∧ k < r + 1 + (ws.length + 1)
        · rw [if_pos h2, if_pos (by omega)]
          have : k - r = (k - (r + 1)) + 1 := by omega
          rw [this, List.getD_cons_succ]
        · rw [if_neg h2, if_neg hk, if_neg (by omega)]

/-- Writing to a destination of one kind leaves the registers of the other kinds. -/
theorem Thread.writeWs_other (t : Thread) (d : LOp) (ws : List Word) :
    ((∀ r, d ≠ .v r) → (t.writeWs d ws).v = t.v) ∧ ((∀ r, d ≠ .o r) → (t.writeWs d ws).o = t.o) ∧
    ((∀ r, d ≠ .p r) → (t.writeWs d ws).p = t.p) := by
  induction ws generalizing t d with
  | nil => exact ⟨fun _ => rfl, fun _ => rfl, fun _ => rfl⟩
  | cons w ws ih =>
    rw [Thread.writeWs]
    obtain ⟨h1, h2, h3⟩ := ih (t.writeW d w) (lopPlus d 1)
    refine ⟨fun h => ?_, fun h => ?_, fun h => ?_⟩
    · rw [h1 (fun r => by cases d <;> simp_all [lopPlus]; split <;> simp)]; cases d <;> simp_all [Thread.writeW]
    · rw [h2 (fun r => by cases d <;> simp_all [lopPlus]; split <;> simp)]; cases d <;> simp_all [Thread.writeW]
    · rw [h3 (fun r => by cases d <;> simp_all [lopPlus] <;> split <;> simp)]; cases d <;> simp_all [Thread.writeW]

theorem Thread.writeWs_p (t : Thread) (r : Fin 6) (w : Word) (ws : List Word) :
    (t.writeWs (.p r) (w :: ws)).p = (t.writeW (.p r) w).p := by
  rw [Thread.writeWs]
  exact (Thread.writeWs_other _ _ _).2.2 (fun k => by simp [lopPlus])

theorem getLsbD_oneShift {w : Nat} (r k : Nat) (hk : k < w) : (1#w <<< r).getLsbD k = decide (r = k) := by
  rw [BitVec.getLsbD_shiftLeft, BitVec.getLsbD_one]
  by_cases h : r = k
  · subst h; simp; omega
  · by_cases h2 : k < r
    · simp [h, h2]
    · simp [h, h2]; omega
theorem orBit {w : Nat} (p : BitVec w) (r k : Fin w) : (p ||| (1#w <<< r.val)).getLsbD k.val = (decide (r = k) || p.getLsbD k.val) := by
  rw [BitVec.getLsbD_or, getLsbD_oneShift _ _ k.isLt, Bool.or_comm]; congr 1; simp [Fin.ext_iff]
theorem clearBit {w : Nat} (p : BitVec w) (r k : Fin w) : (p &&& ~~~(1#w <<< r.val)).getLsbD k.val = (!decide (r = k) && p.getLsbD k.val) := by
  rw [BitVec.getLsbD_and, BitVec.getLsbD_not, getLsbD_oneShift _ _ k.isLt, Bool.and_comm]; simp [Fin.ext_iff]

theorem Thread.readW_writeW_p (t : Thread) (l : Nat) (r k : Fin 6) (w : Word) :
    (t.writeW (.p r) w).readW l (.p k) = if r = k then Word.ofBool (w != 0#32) else t.readW l (.p k) := by
  unfold Thread.writeW Thread.readW
  simp only
  split
  · next h => subst h; simp only [clearBit]; by_cases hk : r = k <;> simp [hk]
  · next h =>
    have hb : (w != 0#32) = true := by simpa using h
    simp only [orBit, hb]; by_cases hk : r = k <;> simp [hk]

/-! ### Uniform registers -/

theorem Crew.writeUs_frame (cr : Crew) (r : Nat) (ws : List Word) : cr.writeUs r ws = { cr with s := (cr.writeUs r ws).s, wrote := (cr.writeUs r ws).wrote } := by
  induction ws generalizing cr r with
  | nil => rfl
  | cons w ws ih => rw [Crew.writeUs, ih]; rfl

@[simp] theorem Crew.putS_get (cr : Crew) (r : Nat) (w : Word) (k : Nat) : (cr.putS r w).s.get k = if r = k then w else cr.s.get k :=
  Store.get_put _ _ _ _

theorem Crew.writeUs_get (cr : Crew) (r : Nat) (ws : List Word) (k : Nat) :
    (cr.writeUs r ws).s.get k = if r ≤ k ∧ k < r + ws.length then ws.getD (k - r) 0#32 else cr.s.get k := by
  induction ws generalizing cr r with
  | nil => simp only [Crew.writeUs, List.length_nil, Nat.add_zero]; rw [if_neg (by omega)]
  | cons w ws ih =>
    rw [Crew.writeUs, ih, List.length_cons]
    by_cases h2 : r + 1 ≤ k ∧ k < r + 1 + ws.length
    · rw [if_pos h2, if_pos (by omega)]
      have : k - r = (k - (r + 1)) + 1 := by omega
      rw [this, List.getD_cons_succ]
    · rw [if_neg h2, Crew.putS_get]
      by_cases hk : r = k
      · subst hk; rw [if_pos rfl, if_pos (by omega)]; simp
      · rw [if_neg hk, if_neg (by omega)]

/-- What a uniform write makes of its crew. -/
def Crew.writeUni (cr : Crew) (d : UOp) (ws : List Word) : Crew :=
  match d with
  | .s r => cr.writeUs r.val ws
  | _ => cr.writeU d (ws.headD 0#32)

/-- Overtaking uniform registers of a crew changes that crew alone, in its held accesses. -/
theorem State.supersede_crew (s : State) (c : Nat) (regs : List Nat) (j : Nat) :
    (s.supersede c regs).crew j = if c = j then (s.crew c).superseded regs else s.crew j := by
  unfold State.supersede
  simp only [State.crew_modCore]
  exact State.crew_setCrew _ _ _ _

theorem Crew.superseded_frame (cr : Crew) (regs : List Nat) :
    cr.superseded regs = { cr with threads := (cr.superseded regs).threads } := rfl

/-- What a uniform write leaves of its crew's held accesses. -/
def Crew.overtakenIn (cr : Crew) (d : UOp) (n : Nat) : Crew :=
  match d with
  | .s r => cr.superseded ((List.range n).map (r.val + ·))
  | _ => cr

theorem State.writeUni_crew (s : State) (c : Nat) (d : UOp) (ws : List Word) (j : Nat) :
    (s.writeUni c d ws).crew j = if c = j then ((s.crew c).overtakenIn d ws.length).writeUni d ws else s.crew j := by
  cases d with
  | s r =>
    simp only [State.writeUni, Crew.writeUni, Crew.overtakenIn, State.modCrew_eq, State.crew_setCrew, State.supersede_crew]
    by_cases h : c = j <;> simp [h]
  | _ => simp only [State.writeUni, Crew.writeUni, State.modCrew_eq, State.crew_setCrew]; rfl

theorem Crew.writeUni_frame (cr : Crew) (d : UOp) (ws : List Word) :
    cr.writeUni d ws = { cr with s := (cr.writeUni d ws).s, k := (cr.writeUni d ws).k, wrote := (cr.writeUni d ws).wrote } := by
  cases d with
  | s r => simp only [Crew.writeUni]; rw [Crew.writeUs_frame]
  | _ => rfl

/-- A predicate after a write of one. -/
theorem Crew.readU_writeU_k (cr : Crew) (r k : Fin 7) (w : Word) :
    (cr.writeU (.k r) w).readU (.k k) = if r = k then Word.ofBool (w != 0#32) else cr.readU (.k k) := by
  unfold Crew.writeU Crew.readU
  simp only
  split
  · next h => subst h; simp only [clearBit]; by_cases hk : r = k <;> simp [hk]
  · next h =>
    have hb : (w != 0#32) = true := by simpa using h
    simp only [orBit, hb]; by_cases hk : r = k <;> simp [hk]

end Sys2Proof.Machine
end

