-- ==== Sys2Proof/Laws/Steps.lean ====
section
/-! SUPPORT. Laws of small operations that many meanings share: what each changes, and what it leaves. -/

namespace Sys2Proof.Machine

@[simp] theorem Thread.putQ_q0 (t : Thread) (a b : Word) : (t.putQ a b).q0 = a := rfl
@[simp] theorem Thread.putQ_q1 (t : Thread) (a b : Word) : (t.putQ a b).q1 = b := rfl

/-- Of a thread, a write of `q0` and `q1` leaves all but them, and the lines that count as written. -/
theorem Thread.putQ_frame (t : Thread) (a b : Word) : t.putQ a b = { t with q0 := a, q1 := b, wrote := (t.putQ a b).wrote } := rfl

/-- Waiting for an acknowledgement changes nothing but what is waited for. -/
theorem State.awaitAck_frame (s : State) (launch core : Nat) :
    s.awaitAck launch core = { s with nextId := s.nextId + 1, unacked := (s.awaitAck launch core).unacked } := rfl

/-- An acknowledgement leaves nothing behind of what waits for no more reports. -/
theorem State.acknowledge_left (s : State) (core : Nat) : ∀ u ∈ (s.acknowledge core).unacked, u.left ≠ 0 := by
  intro u hu
  simpa [State.acknowledge] using (List.mem_filter.mp hu).2

/-- A load or an atomic notes, on the writes whose bytes it reads, that its threads have read them, and changes nothing else. -/
theorem State.noteRead_frame (s : State) (op : Op) :
    s.noteRead op = { s with mem := { s.mem with pend := (s.noteRead op).mem.pend } } := rfl

/-- A mark leaves all of a thread but the lines that count as written. -/
theorem Thread.mark_frame (t : Thread) (lines : List Nat) : t.mark lines = { t with wrote := (t.mark lines).wrote } := rfl

/-- A starvation count changes its thread alone, and may call for the promotion. -/
theorem State.starveLane_frame (s : State) (c l : Nat) :
    s.starveLane c l = { s with crews := (s.starveLane c l).crews, agenda := (s.starveLane c l).agenda } := by
  unfold State.starveLane
  dsimp only
  split
  · split <;> rfl
  · rfl

/-- So do the counts of a crew. -/
theorem State.starve_frame (s : State) (c : Nat) (lanes : List Nat) :
    s.starve c lanes = { s with crews := (s.starve c lanes).crews, agenda := (s.starve c lanes).agenda } := by
  unfold State.starve
  generalize (List.range (s.crew c).threads.length).filter (fun l => !lanes.contains l) = ls
  induction ls generalizing s with
  | nil => rfl
  | cons l ls ih => rw [List.foldl_cons, ih (s.starveLane c l), s.starveLane_frame c l]

/-- After a word of a crew only its starvation counts change, with the promotions that they call for, and what the sampler sees. -/
theorem State.issueDone_frame (s : State) (c : Nat) :
    s.issueDone c = { s with crews := (s.issueDone c).crews, cores := (s.issueDone c).cores, agenda := (s.issueDone c).agenda } := by
  unfold State.issueDone
  dsimp only
  split
  · rfl
  · split
    · rfl
    · next x _ _ => exact (s.starve_frame c x.2.1).trans (by rw [s.starve_frame c x.2.1])

@[simp] theorem State.wordDone_cur (s : State) : s.wordDone.cur = none := by
  unfold State.wordDone
  split <;> first | assumption | rfl

/-- After a word nothing changes but which crew issues, its starvation counts, and what the sampler sees of the cycle. -/
theorem State.wordDone_frame (s : State) :
    s.wordDone = { s with crews := s.wordDone.crews, cores := s.wordDone.cores, agenda := s.wordDone.agenda, cur := none } := by
  unfold State.wordDone
  split
  · next h => rw [← h]
  · next c _ => rw [s.issueDone_frame c]

/-- Noting the lines that a step has written changes nothing but those notes. -/
theorem State.noteWritten_frame (s : State) : s.noteWritten = { s with crews := s.noteWritten.crews } := rfl

theorem Crew.noteWritten_frame (cr : Crew) (image : DWord) : cr.noteWritten image = { cr with wrote := (cr.noteWritten image).wrote } := rfl

/-- A thread that waits for the baton no longer changes only who waits, on its core and in its squad's image. -/
theorem State.leaveTakes_frame (s : State) (c l : Nat) :
    s.leaveTakes c l = { s with cores := (s.leaveTakes c l).cores, squads := (s.leaveTakes c l).squads } := rfl

/-- A slot is freed, or nothing changes. -/
theorem State.freeEvicted_frame (s : State) (core slot c : Nat) :
    s.freeEvicted core slot c = { s with cores := (s.freeEvicted core slot c).cores } := by
  unfold State.freeEvicted
  split <;> rfl

end Sys2Proof.Machine
end

