-- ==== Sys2Proof/Safety.lean ====
section
/-! DEFINITION. What counts as a safe step and a safe run: the machine answers a next state. -/

namespace Sys2Proof.Machine

/-- An outcome is a next state. -/
def goesOn {σ φ ρ : Type} : Host.Outcome σ φ ρ → Bool
  | .next _ => true
  | _ => false

/-- A run of `n` steps from a state meets neither a fault nor a refusal. -/
def SafeFor (n : Nat) (s : State) : Prop := goesOn (Host.Core.run Sys2Proof.core n s) = true

end Sys2Proof.Machine
end

