-- ==== Sys2Proof/Tests/Slice0.lean ====
section
/-! SUPPORT. Tests of this model: ill-formed terms that the check refuses, words written out from the encodings of spec/, worked examples of
spec/, and for each statement of the certificate a state that meets its hypotheses. -/

set_option maxRecDepth 20000

namespace Sys2Proof.Tests

open Sys2Proof.Machine Sys2Proof.Claim

/-! ### Well-formedness: an ill-formed term for each check (R20-R28) -/

theorem test_wf_offset : Instr.wf (.pfl2 0 (.v 0) (.units 32#6)) = false := by decide
theorem test_wf_load_of_zero : Instr.wf (.ldgB32 false .zero (.v 0) 0#3 (.units 0#6)) = false := by decide
theorem test_wf_load_offset : Instr.wf (.ldsB8 false (.v 0) (.v 0) (.units 32#6)) = false := by decide
theorem test_wf_destination : Instr.wf (.sadd (.lit 5#32) .zero .zero) = false := by decide
theorem test_wf_lane : Instr.wf (.napExpiry 1 32) = false := by decide
theorem test_wf_core : Instr.wf (.engineRelease 576) = false := by decide
theorem test_wf_slot : Instr.wf (.evictionWriteback 0 16) = false := by decide
theorem test_wf_stage : Instr.wf (.frontierAnnounce 1 16 0) = false := by decide
theorem test_wf_thief : Instr.wf (.squadSteal 1 576) = false := by decide
theorem test_wf_queue : Instr.wf (.qerrClear 0 8) = false := by decide
theorem test_wf_partition : Instr.wf (.startRegister 8 1#16) = false := by decide
theorem test_wf_counter : Instr.wf (.counterLowRead 0 10) = false := by decide
theorem test_wf_cluster : Instr.wf (.replayRegister 48) = false := by decide
theorem test_wf_island : Instr.wf (.clockThrottle 4 true) = false := by decide
theorem test_wf_link : Instr.wf (.linkTraining 6 16 128) = false := by decide

/-! ### Words written out from the encodings, beside their instructions (R20-R28, R44-R46) -/

/-- Words decode to an instruction, and are what it encodes to. -/
noncomputable def reads (ws : List Word) (i : Instr) : Bool :=
  (match decodeWords ws with
    | .ok (d, n) => decide (d.instr = i ∧ n = ws.length)
    | .error _ => false) && decide (encode i = ws)

theorem test_word_add : reads [0x00010403#32] (.add false (.v 1) (.v 2) (.lane (.v 3))) = true := by decide

theorem test_word_add_u : reads [0x00810403#32] (.add true (.v 1) (.v 2) (.lane (.v 3))) = true := by decide

theorem test_word_add_ports : reads [0x0003F87D#32] (.add false (.v 3) (.port .north) (.lane (.port .south))) = true := by decide

theorem test_word_shl : reads [0x10050887#32] (.shl false (.v 5) (.v 4) (.s 7)) = true := by decide

theorem test_word_clz : reads [0x1402FE06#32] (.clz false (.v 2) (.lane (.v 6))) = true := by decide

theorem test_word_mov_s : reads [0x2507FE80#32] (.mov false (.v 7) (.s 0)) = true := by decide

theorem test_word_mov_to_port : reads [0x257AFE04#32] (.mov false (.port .east) (.lane (.v 4))) = true := by decide

theorem test_word_udiv : reads [0x29091147#32] (.udiv false (.v 9) (.v 8) (.imm 39)) = true := by decide

theorem test_word_sadd : reads [0x800301C5#32] (.sadd (.s 3) (.s 1) (.const 5)) = true := by decide

theorem test_word_smov : reads [0xA514A8FF#32, 0x12345678#32] (.smov (.s 20) (.lit 0x12345678#32)) = true := by decide

theorem test_word_skand : reads [0xABA1A009#32] (.skand (.k 1) (.k 0) (.s 9)) = true := by decide

theorem test_word_sldg : reads [0xB10A04D0#32] (.sldgB64 (.s 10) (.s 4) (.const 16)) = true := by decide

theorem test_word_slds : reads [0xB20206C0#32] (.sldsB32 (.s 2) (.s 6) (.const 0)) = true := by decide

theorem test_word_ffma_rz : reads [0x3D080C07#32] (.ffmaRz false (.v 8) (.v 6) (.lane (.v 7))) = true := by decide

theorem test_word_fmin : reads [0x40010403#32] (.fmin false (.v 1) (.v 2) (.lane (.v 3))) = true := by decide

theorem test_word_fcmp_lt : reads [0x43730805#32] (.fcmpLt false (.p 1) (.v 4) (.lane (.v 5))) = true := by decide

theorem test_word_fclass : reads [0x4602FE06#32] (.fclass false (.v 2) (.lane (.v 6))) = true := by decide

theorem test_word_frsq : reads [0x47090204#32] (.frsq false (.v 9) (.lane (.v 4))) = true := by decide

theorem test_word_fsin : reads [0x47031002#32] (.fsin false (.v 3) (.lane (.v 2))) = true := by decide

theorem test_word_fdiv_full : reads [0x48040202#32] (.fdivFull false (.v 4) (.v 1) (.lane (.v 2))) = true := by decide

theorem test_word_hfma2 : reads [0x4E060805#32] (.hfma2 false (.v 6) (.v 4) (.lane (.v 5))) = true := by decide

theorem test_word_cvtf : reads [0x50036802#32] (.cvtf false (.v 3) 1#2 true 4#4 (.lane (.v 2))) = true := by decide

theorem test_word_cvtf_w : reads [0x51050803#32] (.cvtfW false (.v 5) 4#4 (.lane (.v 3))) = true := by decide

theorem test_word_pk4 : reads [0x5609080C#32] (.pk4 false (.v 9) 0#2 false 4#4 (.lane (.v 12))) = true := by decide

theorem test_word_upk : reads [0x570C0809#32] (.upk false (.v 12) 4#4 (.lane (.v 9))) = true := by decide

theorem test_word_qnt : reads [0x54030A02#32] (.qnt false (.v 3) 5 (.lane (.v 2))) = true := by decide

theorem test_word_dqnt : reads [0x55040A03#32] (.dqnt false (.v 4) 5 (.lane (.v 3))) = true := by decide

theorem test_word_lds : reads [0x6A050682#32] (.ldsB32 false (.v 5) (.v 3) (.units 2#6)) = true := by decide

theorem test_word_ldp : reads [0x6A060341#32] (.ldpB32 false (.v 6) (.v 1) (.units 1#6)) = true := by decide

theorem test_word_sts : reads [0x6B0806FF#32] (.stsB64 false (.v 8) (.v 3) (.units 63#6)) = true := by decide

theorem test_word_ats_exch : reads [0x6C040408#32] (.atsExch (.v 4) (.v 2) false) = true := by decide

theorem test_word_scpy : reads [0xB40405FF#32, 0x00000100#32] (.scpy (.s 4) (.s 5) (.lit 256#32)) = true := by decide

theorem test_word_sfil : reads [0xB504C006#32] (.sfil (.s 4) (.const 0) (.s 6)) = true := by decide

theorem test_word_pcfg : reads [0x78020141#32] (.pcfg (.v 2) (.imm 33)) = true := by decide

theorem test_word_pcnt : reads [0x78030341#32] (.pcnt (.v 3) 1#3) = true := by decide

theorem test_word_ppk : reads [0x78040543#32] (.ppk (.v 4) 3#3) = true := by decide

theorem test_word_pfls : reads [0x78050745#32] (.pfls (.v 5) 5#3) = true := by decide

theorem test_word_psts : reads [0x78060940#32] (.psts (.v 6) 0#3) = true := by decide

theorem test_word_btn_take : reads [0xCBA8A8A8#32] (.btnTake .zero) = true := by decide

theorem test_word_btn_pass : reads [0xCCA8A8C0#32] (.btnPass .zero) = true := by decide

theorem test_word_btn_query : reads [0xCD09A8A8#32] (.btnQuery (.s 9)) = true := by decide

theorem test_word_mma : reads [0xC40210A8#32] (.mma (.s 2) (.s 16)) = true := by decide

theorem test_word_mmsp : reads [0xC5A818A8#32] (.mmsp .zero (.s 24)) = true := by decide

theorem test_word_mzero : reads [0xC6A8A8C3#32] (.mzero .zero (.const 3)) = true := by decide

theorem test_word_mst : reads [0xC8041CA8#32] (.mst (.s 4) (.s 28)) = true := by decide

theorem test_word_madd : reads [0xC9A80CA8#32] (.madd .zero (.s 12)) = true := by decide

theorem test_word_mpred : reads [0xCAA814C4#32] (.mpred .zero (.s 20) (.const 4)) = true := by decide

theorem test_word_tdef : reads [0xB601C508#32] (.tdef (.s 1) (.const 5) (.s 8)) = true := by decide

theorem test_word_txrd : reads [0xB703C5E0#32] (.txrd (.s 3) (.const 5) (.const 32)) = true := by decide

theorem test_word_tfree : reads [0xB8A8C5A8#32] (.tfree .zero (.const 5)) = true := by decide

theorem test_word_bisx : reads [0xCE281E20#32] (.bisx (.s 40) (.s 30) (.s 32)) = true := by decide

theorem test_word_cpy : reads [0xC00210A8#32] (.cpy (.s 2) (.s 16)) = true := by decide

theorem test_word_cpyt : reads [0xC10318A8#32] (.cpyt (.s 3) (.s 24)) = true := by decide

theorem test_word_cpym : reads [0xC2A820A8#32] (.cpym .zero (.s 32)) = true := by decide

theorem test_word_cpyst : reads [0xC305A8A8#32] (.cpyst (.s 5)) = true := by decide

theorem test_word_ltset : reads [0xD8A80AC2#32] (.ltset (.s 10) (.const 2)) = true := by decide

theorem test_word_ltinc : reads [0xD9A8C3C1#32] (.ltinc (.const 3) (.const 1)) = true := by decide

theorem test_word_ltcap : reads [0xDAA80CC1#32] (.ltcap (.s 12) (.const 1)) = true := by decide

theorem test_word_ltdrop : reads [0xDBA80CC1#32] (.ltdrop (.s 12) (.const 1)) = true := by decide

theorem test_word_ftwait : reads [0xDCC2C106#32] (.ftwait 2#4 (.const 1) (.s 6)) = true := by decide

theorem test_word_ftpoll : reads [0xDD28A8C1#32] (.ftpoll (.s 40) (.const 1)) = true := by decide

theorem test_word_ltsum : reads [0xDE030809#32] (.ltsum (.s 3) (.s 8) (.s 9)) = true := by decide

theorem test_word_cins : reads [0xD10310A8#32] (.cins (.s 3) (.s 16)) = true := by decide

theorem test_word_cfind : reads [0xD32808C1#32] (.cfind (.s 40) (.s 8) (.const 1)) = true := by decide

theorem test_word_cclr : reads [0xD405A8C0#32] (.cclr (.s 5) (.const 0)) = true := by decide

theorem test_word_plnch : reads [0xD00230A8#32] (.plnch (.s 2) (.s 48)) = true := by decide

theorem test_word_pldr : reads [0x7D080B40#32] (.pldrB128 (.v 8) true (.imm 32)) = true := by decide

theorem test_word_pret : reads [0x7E7F2943#32] (.pret (.v 20) 3#3) = true := by decide

theorem test_word_trap : reads [0xF2A8A8C5#32] (.trap (.const 5)) = true := by decide

theorem test_word_brk : reads [0xF3A8A8A8#32] (.brk) = true := by decide

theorem test_word_rply : reads [0xF601A8C0#32] (.rplyReplayAll (.s 1)) = true := by decide

theorem test_word_rply_end : reads [0xF601C3C1#32] (.rplyEndEntry (.s 1) (.const 3)) = true := by decide

theorem test_word_amsg : reads [0xE30440A8#32] (.amsg (.s 4) (.s 64)) = true := by decide

theorem test_word_bfe_literal : reads [0x17030FFF#32, 0x00000804#32] (.bfeU false (.v 3) (.v 7) (.lit 0x804#32)) = true := by decide

theorem test_word_ldg : reads [0x62041402#32] (.ldgB32 false (.v 4) (.v 10) 0#3 (.units 2#6)) = true := by decide

theorem test_word_ldg_dev : reads [0x62041542#32] (.ldgB32 false (.v 4) (.v 10) 5#3 (.units 2#6)) = true := by decide

theorem test_word_stg : reads [0x6806143E#32] (.stgB64 false (.v 6) (.v 10) 0#3 (.units 62#6)) = true := by decide

theorem test_word_ldga : reads [0x6D04154B#32] (.ldga (.v 4) (.v 10) 5#3 false) = true := by decide

theorem test_word_stgr : reads [0x6E0514CC#32] (.stgr (.v 5) (.v 10) 3#3 false) = true := by decide

theorem test_word_atg_add : reads [0x6D081940#32] (.atgAdd (.v 8) (.v 12) 5#3 false) = true := by decide

theorem test_word_redg_add : reads [0x6E081940#32] (.redgAdd (.v 8) (.v 12) 5#3 false) = true := by decide

theorem test_word_atg_cas : reads [0x6D0819A9#32] (.atgCas (.v 8) (.v 12) 6#3 true) = true := by decide

theorem test_word_fence : reads [0x6F7FFF40#32] (.fence 5#3) = true := by decide

theorem test_word_fence_st : reads [0x6F7FFE82#32] (.fenceSt 2#3) = true := by decide

theorem test_word_pfl2 : reads [0x627F1420#32, 0x00000100#32] (.pfl2 2 (.v 10) (.lit 256#32)) = true := by decide

theorem test_word_bra : reads [0x7073FFFE#32] (.bra false (.p 1) true 0x7FFE#15) = true := by decide

theorem test_word_call : reads [0x710A0003#32] (.call false (.v 10) 3#15) = true := by decide

theorem test_word_ret : reads [0x727F147F#32] (.ret (.v 10)) = true := by decide

theorem test_word_exit : reads [0x737FFE7F#32] (.exitThread) = true := by decide

theorem test_word_nap : reads [0x777FFF47#32] (.nap (.imm 39)) = true := by decide

theorem test_word_vote_any : reads [0x74030404#32] (.voteAny (.v 3) (.lane (.v 4))) = true := by decide

theorem test_word_shfl : reads [0x75040A06#32] (.shfl (.v 4) (.v 5) (.lane (.v 6))) = true := by decide

theorem test_word_gsr : reads [0x74030E08#32] (.gsr (.v 3) 8#9) = true := by decide

theorem test_word_xdeal : reads [0x7A04FE7F#32] (.xdeal (.v 4)) = true := by decide

theorem test_word_xred_fadd : reads [0x7B050202#32] (.xredFadd (.v 5) (.lane (.v 2))) = true := by decide

theorem test_word_xend : reads [0x7C04007F#32] (.xend (.v 4)) = true := by decide

theorem test_word_jmp : reads [0xF0A804A8#32] (.jmp (.s 4)) = true := by decide

theorem test_word_bar : reads [0xF1A8A8A8#32] (.bar) = true := by decide

theorem test_word_ssr : reads [0xF416C1A8#32] (.ssr 22#8 (.const 1)) = true := by decide

theorem test_word_sret_skip : reads [0xF5A8A8C1#32] (.sretSkip) = true := by decide

theorem test_word_lnch : reads [0xE00102A8#32] (.lnch (.s 1) (.s 2)) = true := by decide

theorem test_word_qpush : reads [0xE1010208#32] (.qpush (.s 1) (.s 2) (.s 8)) = true := by decide

theorem test_word_qpull : reads [0xE20802A8#32] (.qpull (.s 8) (.s 2)) = true := by decide

theorem test_word_tlbi : reads [0xF7010204#32] (.tlbi (.s 1) (.s 2) (.s 4)) = true := by decide

theorem test_word_flt : reads [0xF8010204#32] (.flt (.s 1) (.s 2) (.s 4)) = true := by decide

theorem test_word_ctxs : reads [0xF9010204#32] (.ctxs (.s 1) (.s 2) (.s 4)) = true := by decide

/-! ### States that the statements' hypotheses are shown on

`B` is core 0 with one crew of 32 threads (crew 3 of squad 2 of launch 1) at the only word of a clause, its pages mapped one to one. -/

/-- A translation of the first GiB of space 0. -/
def tlb0 : TlbEntry := { space := 0, va := 0, size := 2 ^ 30, pa := 0, w := true, x := true }

/-- The machine at the first of `n` words of a clause. -/
def baseOf (words : List Word) : State :=
  ((State.reset.withLoneRun words).modCore 0 (fun k => { k with tlb := [tlb0] })).modSquad 2 (fun q => { q with allot := 4096, units := [0] })

/-- The machine at a clause of one word. -/
def B : State := baseOf [0#32]

/-- Its issuing run. -/
def xOf (s : State) : Issuer := { c := 3, cr := s.crew 3, run := ((s.crew 3).run).getD { lanes := [], hdr := 0#64, hword := none, words := [], idx := 0 } }

/-- A crew's run, if any, is of lanes of its own, in ascending order. -/
def crewFits (cr : Crew) : Bool :=
  match cr.run with
  | none => true
  | some r => !r.lanes.isEmpty && decide (r.lanes.Pairwise (· < ·)) && r.lanes.all (fun l => decide (l < cr.threads.length))

theorem find_mem {α : Type} (l : AList α) (k : Nat) (v : α) (h : l.find k = some v) : (k, v) ∈ l := by
  induction l with
  | nil => simp [AList.find] at h
  | cons p t ih =>
    obtain ⟨a, y⟩ := p
    simp only [AList.find] at h
    split at h
    · simp_all
    · exact List.mem_cons_of_mem _ (ih h)

/-- Runs fit where every crew listed passes the check. -/
theorem fits_of (s : State) (h : s.crews.all (fun (p : Nat × Crew) => crewFits p.2) = true) : RunsFit s := by
  intro c r hr
  have hc : crewFits (s.crew c) = true := by
    unfold State.crew at hr ⊢
    cases hf : s.crews.find c with
    | none => rfl
    | some cr => exact List.all_eq_true.mp h _ (find_mem _ _ _ hf)
  unfold crewFits at hc
  rw [hr] at hc
  simp only [Bool.and_eq_true, Bool.not_eq_true', List.isEmpty_eq_false_iff, decide_eq_true_eq, List.all_eq_true] at hc
  exact ⟨hc.1.1, hc.1.2, hc.2⟩

theorem B_fits : RunsFit B := fits_of _ (by decide)
theorem B_issuer : B.issuer = some (xOf B) := by decide

/-- Where no thread of the run counts an operation, every flag has room. -/
theorem room_of (s : State) (x : Issuer) (h : ∀ l ∈ x.run.lanes, (s.thread x.c l).flags = []) (f : Option Nat) : FlagRoom s x f := by
  intro l hl g _
  rw [h l hl]
  show (0#4 : BitVec 4) ≠ 15#4
  decide

/-- No flag of the run counts 15 in `B`. -/
theorem B_room (f : Option Nat) : FlagRoom B (xOf B) f := by
  intro l hl g _
  have h : ∀ l ∈ (xOf B).run.lanes, (B.thread (xOf B).c l).flags = [] := by decide
  rw [h l hl]
  show (0#4 : BitVec 4) ≠ 15#4
  decide

/-! #### Lane and uniform words -/

/-- The hypotheses of `LaneWordsGiveResults` for `add v103, v0, 5`: the highest register. -/
theorem test_hyp_lane_words : ∃ i f fn d a b, LaneWord i f fn false false d a b ∧ RunsFit B ∧ B.issuer = some (xOf B) ∧
    laneLegal f (B.regsOf (xOf B).c) false d a b = true ∧ noPorts f d a b = true ∧ LinesHere (xOf B) (laneLines f d a b) ∧
    SameSources (xOf B) f false d a b :=
  ⟨_, _, _, _, _, _, .add false (.v 103) (.v 0) (.imm 37), B_fits, B_issuer, by decide, by decide, by unfold LinesHere; decide,
    nofun⟩

/-- The hypotheses of `ShiftAndFieldWords` for `shl`, at the highest register. -/
theorem test_hyp_shift_words : RunsFit B ∧ B.issuer = some (xOf B) ∧
    laneLegal binary (B.regsOf (xOf B).c) false (.v 103) (.v 0) (.imm 37) = true ∧ noPorts binary (.v 103) (.v 0) (.imm 37) = true ∧
    LinesHere (xOf B) (laneLines binary (.v 103) (.v 0) (.imm 37)) ∧ SameSources (xOf B) binary false (.v 103) (.v 0) (.imm 37) :=
  ⟨B_fits, B_issuer, by decide, by decide, by unfold LinesHere; decide, nofun⟩

/-- The hypotheses of `DivisionCases` for `srem`, at the highest register. -/
theorem test_hyp_division_words : RunsFit B ∧ B.issuer = some (xOf B) ∧
    laneLegal binary (B.regsOf (xOf B).c) false (.v 103) (.v 0) (.imm 37) = true ∧ noPorts binary (.v 103) (.v 0) (.imm 37) = true ∧
    LinesHere (xOf B) (laneLines binary (.v 103) (.v 0) (.imm 37)) ∧ SameSources (xOf B) binary false (.v 103) (.v 0) (.imm 37) :=
  ⟨B_fits, B_issuer, by decide, by decide, by unfold LinesHere; decide, nofun⟩

/-- The hypotheses of `FloatOrder` for `fcmpLe`, at the highest register. -/
theorem test_hyp_float_order_words : RunsFit B ∧ B.issuer = some (xOf B) ∧
    laneLegal binary.float (B.regsOf (xOf B).c) false (.v 103) (.v 0) (.imm 37) = true ∧ noPorts binary.float (.v 103) (.v 0) (.imm 37) = true ∧
    LinesHere (xOf B) (laneLines binary.float (.v 103) (.v 0) (.imm 37)) ∧ SameSources (xOf B) binary.float false (.v 103) (.v 0) (.imm 37) :=
  ⟨B_fits, B_issuer, by decide, by decide, by unfold LinesHere; decide, nofun⟩

theorem test_hyp_uniform_words : ∃ i f fn slow d a b, UniWord i f fn slow d a b ∧ RunsFit B ∧ B.issuer = some (xOf B) ∧
    uniLegal f d a b = true :=
  ⟨_, _, _, _, _, _, _, .sadd (.s 159) (.s 0) (.const 62), B_fits, B_issuer, by decide⟩

theorem test_hyp_illegal_lane : ∃ i f fn d a b, LaneWord i f fn false false d a b ∧ RunsFit B ∧ B.issuer = some (xOf B) ∧
    laneLegal f (B.regsOf (xOf B).c) false d a b = false :=
  ⟨_, _, _, _, _, _, .add64 false (.v 103) (.v 0) (.lane (.v 2)), B_fits, B_issuer, by decide⟩

theorem test_hyp_illegal_uniform : ∃ i f fn slow d a b, UniWord i f fn slow d a b ∧ RunsFit B ∧ B.issuer = some (xOf B) ∧
    uniLegal f d a b = false :=
  ⟨_, _, _, _, _, _, _, .sadd (.reserved 0) (.s 0) (.const 62), B_fits, B_issuer, by decide⟩

/-- The machine with a line of the register file absent. -/
def BAbsent : State := B.modCrew 3 (fun cr => { cr with away := [(103, List.replicate 32 0#32)] })

theorem test_hyp_absent_line : ∃ i f fn d a b, LaneWord i f fn false false d a b ∧ RunsFit BAbsent ∧ BAbsent.issuer = some (xOf BAbsent) ∧
    laneLegal f (BAbsent.regsOf 3) false d a b = true ∧ ∃ n ∈ laneLines f d a b, n ∈ (xOf BAbsent).cr.absent :=
  ⟨_, _, _, _, _, _, .add false (.v 103) (.v 0) (.imm 37), fits_of _ (by decide), by decide, by decide, by decide⟩

/-- The machine with UCHK on. -/
def BCheck : State := B.modCrew 3 (fun cr => { cr with mode := 1#32 })

theorem test_hyp_uniform_check : ∃ i f fn d a b, LaneWord i f fn false true d a b ∧ RunsFit BCheck ∧ BCheck.issuer = some (xOf BCheck) ∧
    laneLegal f (BCheck.regsOf 3) true d a b = true ∧ LinesHere (xOf BCheck) (laneLines f d a b) ∧
    ¬ SameSources (xOf BCheck) f true d a b :=
  ⟨_, _, _, _, _, _, .add true (.v 0) .lid (.imm 37), fits_of _ (by decide), by decide, by decide, by unfold LinesHere; decide,
    by unfold SameSources; decide⟩

/-! #### Conversions and ports -/

theorem test_hyp_conversion : ∃ i f fn d b, FieldWord i true f fn false d b ∧ RunsFit B ∧ B.issuer = some (xOf B) ∧
    laneLegal f (B.regsOf 3) false d .zero b = true ∧ noPorts f d .zero b = true ∧ LinesHere (xOf B) (laneLines f d .zero b) ∧
    SameSources (xOf B) f false d .zero b :=
  ⟨_, _, _, _, _, .cvtf false (.v 1) 0#2 false (.lane (.v 2)) 9#4, B_fits, B_issuer, by decide, by decide, by unfold LinesHere; decide,
    nofun⟩

theorem test_hyp_conversion_field : ∃ i f fn d b, FieldWord i false f fn false d b ∧ RunsFit B ∧ B.issuer = some (xOf B) :=
  ⟨_, _, _, _, _, .cvtf false (.v 1) 0#2 false (.lane (.v 2)) 10#4, B_fits, B_issuer⟩

/-- The machine with tensor identifier 63 defined, of format E5M2 (3). -/
def BTensor (fmt : Nat) : State :=
  B.modSquad 2 (fun q => { q with tx := q.tx.set 63 { words := BitVec.ofNat 32 (fmt * 2 ^ 0) :: List.replicate 31 0#32 } })

theorem test_hyp_quant_low : QuantReady (BTensor 3) (xOf (BTensor 3)) false (.v 1) (.lane (.v 2)) ∧
    ∃ k, QuantName (BTensor 3) (xOf (BTensor 3)) 63 k :=
  ⟨⟨fits_of _ (by decide), by decide, by decide, by decide, by unfold LinesHere; decide, nofun, nofun⟩,
    _, rfl, by decide, by decide⟩

theorem test_hyp_quant_high : QuantReady (BTensor 8) (xOf (BTensor 8)) true (.v 1) (.lane (.v 2)) ∧
    ∃ k, QuantName (BTensor 8) (xOf (BTensor 8)) 63 k :=
  ⟨⟨fits_of _ (by decide), by decide, by decide, by decide, by unfold LinesHere; decide, by unfold SameSources; decide,
    by unfold SameSources; decide⟩, _, rfl, by decide, by decide⟩

theorem test_hyp_quant_none : QuantReady B (xOf B) false (.v 1) (.lane (.v 2)) ∧ ∀ k, ¬ QuantName B (xOf B) 63 k := by
  refine ⟨⟨B_fits, B_issuer, by decide, by decide, by unfold LinesHere; decide, nofun, nofun⟩, ?_⟩
  intro k h
  have : (B.squad (xOf B).cr.squad).tx.find 63 = none := by decide
  rw [h.1] at this
  cases this

/-- The machine with an entry in every west queue. -/
def BWest : State := B.modThreads 3 (List.range 32) (fun _ t => t.modPort .west (fun p => { p with queue := [7#32] }))

theorem test_hyp_port_sources : ∃ i f fn d a b, LaneWord i f fn false false d a b ∧ RunsFit BWest ∧ BWest.issuer = some (xOf BWest) ∧
    laneLegal f (BWest.regsOf 3) false d a b = true ∧ d.noPort = true ∧ LinesHere (xOf BWest) (laneLines f d a b) ∧
    SameSources (xOf BWest) f false d a b ∧ srcPorts f a b ≠ [] ∧ PortsGo BWest (xOf BWest) (srcPorts f a b) none :=
  ⟨_, _, _, _, _, _, .add false (.v 103) (.port .west) (.lane .lid), fits_of _ (by decide), by decide, by decide, by decide,
    by unfold LinesHere; decide, nofun, by decide, by unfold PortsGo; decide⟩

/-- The machine with a second squad of the launch on core 1, whose one crew is the first's neighbour to the north. -/
def BNorth : State :=
  (B.modSquad 5 (fun _ => { launch := 1, st := .resident, core := 1, index := 1, crews := [6] })).setCrew 6
    { loneCrew 5 [] with portCore := 1, run := none }

theorem test_hyp_port_results : ∃ i f fn a b, LaneWord i f fn false false (.port .north) a b ∧ RunsFit BNorth ∧
    BNorth.issuer = some (xOf BNorth) ∧ laneLegal f (BNorth.regsOf 3) false (.port .north) a b = true ∧ srcPorts f a b = [] ∧
    LinesHere (xOf BNorth) (laneLines f (.port .north) a b) ∧ SameSources (xOf BNorth) f false (.port .north) a b ∧
    PortsGo BNorth (xOf BNorth) [] (some .north) ∧
    ∀ l ∈ (xOf BNorth).run.lanes, BNorth.neighbourExited 3 l .north = false ∧ (BNorth.thread 3 l).ports.length = 5 ∧
      ∃ n, BNorth.neighbour 3 l .north = some n ∧ n.1 ≠ 3 :=
  ⟨_, _, _, _, _, .mov false (.port .north) (.lane .lid), fits_of _ (by decide), by decide, by decide, by decide,
    by unfold LinesHere; decide, nofun, by unfold PortsGo; decide,
    by
      intro l hl
      have h : ∀ l ∈ (xOf BNorth).run.lanes, BNorth.neighbourExited 3 l .north = false ∧ (BNorth.thread 3 l).ports.length = 5 ∧
        BNorth.neighbour 3 l .north = some (6, l) := by decide
      exact ⟨(h l hl).1, (h l hl).2.1, _, (h l hl).2.2, by simp⟩⟩

/-! #### Numbers -/

theorem test_hyp_shift_small : ∃ y : Word, y.toNat ≤ 31 := ⟨31#32, by decide⟩
theorem test_hyp_shift_large : ∃ y : Word, 32 ≤ y.toNat := ⟨32#32, by decide⟩
theorem test_hyp_field : ∃ (y : Word) (pos n : Nat), pos = y.toNat % 32 ∧ n = min (y.toNat / 2 ^ 8 % 64) 32 :=
  ⟨0x3F1F#32, 31, 32, by decide, by decide⟩
theorem test_hyp_permute : ∃ (x y z : Word) (k c v : Nat), k < 4 ∧ c = y.toNat / 2 ^ (4 * k) % 16 ∧
    v = (x.toNat + z.toNat * 2 ^ 32) / 2 ^ (8 * (c % 8)) % 256 :=
  ⟨0x44332211#32, 0xF000#32, 0x88776655#32, 3, 15, 0x88, by decide, by decide, by decide⟩
theorem test_hyp_division : ∃ x y : Word, y ≠ 0#32 ∧ ¬ (x = 0x80000000#32 ∧ y = 0xFFFFFFFF#32) :=
  ⟨0x80000000#32, 0xFFFFFFFE#32, by decide, by decide⟩

/-! #### Memory words -/

/-- The machine at a word whose clause header names flag 11 for SETA and flag 10 for SETB. -/
def flagged (s : State) : State :=
  s.modCrew 3 (fun cr => { cr with run := cr.run.map (fun r => { r with hword := some 0xBA00#32 }) })

/-- `B` at such a clause. -/
def BF : State := flagged B

theorem BF_fits : RunsFit BF := fits_of _ (by decide)
theorem BF_issuer : BF.issuer = some (xOf BF) := by decide

/-- The operand of a global access whose page is mapped: a load of 16 bytes at its lane's own address, the last register quad. -/
theorem test_hyp_load : ∃ i m, MemWord i m ∧ RunsFit BF ∧ BF.issuer = some (xOf BF) ∧ m.Ready BF (xOf BF) ∧ m.d.noPort = true ∧
    (∀ l ∈ (xOf BF).run.lanes, m.addr (xOf BF) l % m.w = 0) ∧ m.global = true ∧
    (opened (xOf BF) m.write BF ((m.groups (xOf BF)).map (fun g => m.addr (xOf BF) (g.headD 0)))).isSome = true :=
  ⟨_, _, .ldgB128 false (.v 100) (.v 0) 6#3 (.units 31#6), BF_fits, BF_issuer,
    ⟨by decide, by decide, by unfold LinesHere; decide, by
      intro l hl f _
      have h : ∀ l ∈ (xOf BF).run.lanes, (BF.thread (xOf BF).c l).flags = [] := by decide
      rw [h l hl]
      show (0#4 : BitVec 4) ≠ 15#4
      decide, nofun⟩,
    by decide, by decide, by decide, by decide⟩

theorem test_hyp_atomic_once : ∃ i m, MemWord i m ∧ m.write = true ∧ m.Ready BF (xOf BF) ∧ m.d.noPort = true ∧
    (∀ l ∈ (xOf BF).run.lanes, m.addr (xOf BF) l % m.w = 0) ∧ m.global = true ∧
    (opened (xOf BF) m.write BF ((m.groups (xOf BF)).map (fun g => m.addr (xOf BF) (g.headD 0)))).isSome = true :=
  ⟨_, _, .atgCas (.v 0) (.v 4) 1#3 true, by decide,
    ⟨by decide, by decide, by unfold LinesHere; decide, by
      intro l hl f _
      have h : ∀ l ∈ (xOf BF).run.lanes, (BF.thread (xOf BF).c l).flags = [] := by decide
      rw [h l hl]
      show (0#4 : BitVec 4) ≠ 15#4
      decide, nofun⟩,
    by decide, by decide, by decide, by decide⟩

theorem test_hyp_local : ∃ i m, MemWord i m ∧ m.Ready BF (xOf BF) ∧ m.d.noPort = true ∧
    (∀ l ∈ (xOf BF).run.lanes, m.addr (xOf BF) l % m.w = 0) ∧ m.global = false ∧
    (∀ l ∈ (xOf BF).run.lanes, 0 ≤ m.sum (xOf BF) l ∧ m.sum (xOf BF) l < 2 ^ 32 ∧ m.addr (xOf BF) l + m.w ≤ m.limit BF (xOf BF)) ∧ m.kind = .sts :=
  ⟨_, _, .stsB128 true (.v 0) .zero (.lit 4080#32),
    ⟨by decide, by decide, by unfold LinesHere; decide, by
      intro l hl f _
      have h : ∀ l ∈ (xOf BF).run.lanes, (BF.thread (xOf BF).c l).flags = [] := by decide
      rw [h l hl]
      show (0#4 : BitVec 4) ≠ 15#4
      decide, by unfold Access.SameRun; decide⟩,
    by decide, by decide, by decide, by decide, by decide⟩

theorem test_hyp_slice : ∃ i m, MemWord i m ∧ m.Ready BF (xOf BF) ∧ m.d.noPort = true ∧
    (∀ l ∈ (xOf BF).run.lanes, m.addr (xOf BF) l % m.w = 0) ∧ m.global = false ∧
    (∀ l ∈ (xOf BF).run.lanes, 0 ≤ m.sum (xOf BF) l ∧ m.sum (xOf BF) l < 2 ^ 32 ∧ m.addr (xOf BF) l + m.w ≤ m.limit BF (xOf BF)) ∧ m.kind = .ldp :=
  ⟨_, _, .ldpB32 false (.v 0) .zero (.lit 0x7FC#32),
    ⟨by decide, by decide, by unfold LinesHere; decide, by
      intro l hl f _
      have h : ∀ l ∈ (xOf BF).run.lanes, (BF.thread (xOf BF).c l).flags = [] := by decide
      rw [h l hl]
      show (0#4 : BitVec 4) ≠ 15#4
      decide, nofun⟩,
    by decide, by decide, by decide, by decide, by decide⟩

/-! #### Uniform loads, blocks, fences, pair loads -/

/-- No flag of the run counts 15 in `BF`. -/
theorem BF_room (f : Option Nat) : FlagRoom BF (xOf BF) f := by
  intro l hl g _
  have h : ∀ l ∈ (xOf BF).run.lanes, (BF.thread (xOf BF).c l).flags = [] := by decide
  rw [h l hl]
  show (0#4 : BitVec 4) ≠ 15#4
  decide

theorem test_hyp_uniform_load_global : ∃ i n r a b f ea, UniLoad i true n r a b ∧ RunsFit BF ∧ BF.issuer = some (xOf BF) ∧ r.val % n = 0 ∧
    (xOf BF).seta = some f ∧ FlagRoom BF (xOf BF) (some f) ∧ uSrcOk 1 b = true ∧ a.pair?.isSome = true ∧
    ea = ((((xOf BF).cr.readUD a).toNat + ((xOf BF).cr.readU b).toInt) % ((2 ^ 64 : Nat) : Int)).toNat ∧ ea % (4 * n) = 0 ∧
    ∃ pa s2, BF.access (BF.coreOf 3) (BF.spaceOf 3) ea false false = (.ok pa, s2) :=
  ⟨_, _, _, _, _, 11, 0x3FFFFFF8, .sldgB64 158 (.s 0) (.lit 0x3FFFFFF8#32), BF_fits, BF_issuer, by decide, by decide, BF_room _, by decide,
    by decide, by decide, by decide, 0x3FFFFFF8, _, Prod.ext (by decide) rfl⟩

theorem test_hyp_uniform_load_scratch : ∃ i n r a b f ea, UniLoad i false n r a b ∧ r.val % n = 0 ∧ (xOf BF).seta = some f ∧
    uSrcOk 1 b = true ∧ uSrcOk 1 a = true ∧
    ea = ((((xOf BF).cr.readU a).toNat + ((xOf BF).cr.readU b).toInt) % ((2 ^ 32 : Nat) : Int)).toNat ∧ ea % (4 * n) = 0 ∧
    ea + 4 * n ≤ (BF.squad (xOf BF).cr.squad).allot :=
  ⟨_, _, _, _, _, 11, 4092, .sldsB32 159 (.s 0) (.lit 4092#32), by decide, by decide, by decide, by decide, by decide, by decide, by decide⟩

/-- The machine with 64 in `s0`. -/
def BS : State := BF.modCrew 3 (fun cr => { cr with s := [(0, 64#32)] })

theorem test_hyp_blocks : ∃ (r : Fin 160) (a b : UOp) (dst src n : Nat), RunsFit BS ∧ BS.issuer = some (xOf BS) ∧
    FlagRoom BS (xOf BS) (xOf BS).setb ∧ uSrcOk 1 a = true ∧ uSrcOk 1 b = true ∧ dst = ((xOf BS).cr.s.get r.val).toNat ∧
    src = ((xOf BS).cr.readU a).toNat ∧ n = ((xOf BS).cr.readU b).toNat ∧ dst % 4 = 0 ∧ n % 4 = 0 ∧
    dst + n ≤ (BS.squad (xOf BS).cr.squad).allot ∧ src % 4 = 0 ∧ src + n ≤ (BS.squad (xOf BS).cr.squad).allot :=
  ⟨0, .zero, .lit 4032#32, 64, 0, 4032, fits_of _ (by decide), by decide, by
    intro l hl g _
    have h : ∀ l ∈ (xOf BS).run.lanes, (BS.thread (xOf BS).c l).flags = [] := by decide
    rw [h l hl]
    show (0#4 : BitVec 4) ≠ 15#4
    decide, by decide, by decide, by decide, by decide, by decide, by decide, by decide, by decide, by decide, by decide⟩

theorem test_hyp_prefetch : srcOk (B.regsOf 3) 2 false (.v 102) = true ∧ LinesHere (xOf B) (linesOf 2 (.v 102)) :=
  ⟨by decide, by unfold LinesHere; decide⟩

theorem test_hyp_fence_free : ∃ i kind sc, FenceWord i kind sc ∧ sc ≠ 0#3 ∧ sc ≠ 7#3 ∧ FenceFree B (xOf B) kind sc.toNat :=
  ⟨_, _, _, .fence 6#3, by decide, by decide,
    ⟨(by intro op h; rw [show B.ops = [] by decide] at h; cases h),
      Or.inr (Or.inr (by intro w h; rw [show B.mem.pend = [] by decide] at h; cases h))⟩⟩

/-- A load of lane 0 that is outstanding. -/
def opLoad : Op := { id := 1, kind := .load false, crew := 3, lanes := [0], flag := some 11, dest := .lane (.v 1), addr := 0, pa := 0, width := 4
                     ord := 1, data := [], pc := 4#64, stage := 0#4, time := 0#64 }

/-- The machine with one operation outstanding. -/
def BOp1 (o : Op) : State := { BF with ops := [o] }

theorem test_hyp_fence_waits : ∃ i kind sc, FenceWord i kind sc ∧ sc ≠ 0#3 ∧ sc ≠ 7#3 ∧ RunsFit (BOp1 opLoad) ∧
    (BOp1 opLoad).issuer = some (xOf (BOp1 opLoad)) ∧ ¬ FenceFree (BOp1 opLoad) (xOf (BOp1 opLoad)) kind sc.toNat :=
  ⟨_, _, _, .fenceLd 1#3, by decide, by decide, fits_of _ (by decide), by decide, by
    intro h
    exact (h.1 opLoad (by decide) rfl (by decide) ⟨0, by decide, by decide⟩).1 (by decide)⟩

/-- A tensor of one row of 8 words a record, at address 0. -/
def tens (words : List Word) : Tensor := { words := words }

/-- Descriptor words of an FP32 array of rows of eight words, 32 bytes apart, from address 0. -/
def rows8 : List Word := [0x120#32, 2#32, 0#32, 0#32, 0#32, 0#32, 8#32, 1000#32, 1#32, 1#32, 1#32, 1#32, 1#32, 1#32, 0#32, 0#32, 32#32] ++ List.replicate 15 0#32

/-- A pair launch of squad 2 at table 3 of core 0's cluster. -/
def pl : PairLaunch :=
  { launch := 1, squad := 2, crew := 3, lanes := [0], flag := none, sd := none, core := 0, pc := 4#64, block := List.replicate 16 0#32
    p := tens rows8, q := tens rows8, exl := tens rows8, exo := tens rows8, accq := tens rows8, accp := tens rows8, table := 3
    sweep := none, stage := 0#4, time := 0#64, cap := 1, cores := [{ core := 0 }], skip := 0 }

/-- The machine whose run is of one thread of a pair crew, which holds pair (1, 2) of pair launch 7 on core 0. -/
def BPair (p : PairLaunch) : State :=
  let s := BF.modThread 3 0 (fun t => { t with pair := some { launch := 7, core := 0, place := 0, i := 1#32, j := 2#32 } })
  let s := { s with pairLaunches := [(7, p)] }
  s.modCrew 3 (fun cr => { cr with run := cr.run.map (fun r => { r with lanes := [0] }) })

theorem test_hyp_pair_load : ∃ i w d p b f eas, PairLoad i w d p b ∧ RunsFit (BPair pl) ∧ (BPair pl).issuer = some (xOf (BPair pl)) ∧
    loadDstOk ((BPair pl).regsOf 3) w false d = true ∧ d.noPort = true ∧ bSrcOk ((BPair pl).regsOf 3) 1 false b = true ∧ b.noPort = true ∧
    (xOf (BPair pl)).seta = some f ∧ FlagRoom (BPair pl) (xOf (BPair pl)) (some f) ∧
    LinesHere (xOf (BPair pl)) (linesOf (wordsOfWidth w) d ++ bLinesOf 1 b) ∧
    (xOf (BPair pl)).run.lanes.map (pairAddr (BPair pl) (xOf (BPair pl)) w p b) = eas.map some ∧
    (opened (xOf (BPair pl)) false (BPair pl) (recordPages w eas)).isSome = true :=
  ⟨_, _, _, _, _, 11, [80], .pldrB128 (.v 100) true (.imm 48), fits_of _ (by decide), by decide, by decide, by decide, by decide, by decide,
    by decide, by
      intro l hl g _
      have h : ∀ l ∈ (xOf (BPair pl)).run.lanes, ((BPair pl).thread 3 l).flags = [] := by decide
      show ((BPair pl).thread 3 l).flags.get g ≠ 15#4
      rw [h l hl]
      show (0#4 : BitVec 4) ≠ 15#4
      decide, by unfold LinesHere; decide, by decide, by decide⟩

/-! #### The crew group, special registers, control -/

theorem test_hyp_crew_word : ∃ i d ok lines n v, CrewWord i d ok lines n v ∧ RunsFit B ∧ B.issuer = some (xOf B) ∧
    ok (B.regsOf 3) = true ∧ ownDst B (xOf B) d ∧ LinesHere (xOf B) (linesOf 1 d ++ lines) :=
  ⟨_, _, _, _, _, _, .shflXor (.v 103) (.v 0) (.lit 31#32), B_fits, B_issuer, by decide, ⟨by decide, by decide⟩, by unfold LinesHere; decide⟩

theorem test_hyp_gsr : ∃ (d : LOp) (num : BitVec 9), num.toNat < 23 ∧ ownDst B (xOf B) d ∧ LinesHere (xOf B) (linesOf 1 d) :=
  ⟨.v 103, 22#9, by decide, ⟨by decide, by decide⟩, by unfold LinesHere; decide⟩

theorem test_hyp_gsr_none : ∃ num : BitVec 9, 23 ≤ num.toNat := ⟨23#9, by decide⟩

theorem test_hyp_ssr : ∃ a : UOp, uSrcOk 1 a = true ∧ ((xOf B).cr.readU a).toNat < 2 := ⟨.const 1, by decide, by decide⟩
theorem test_hyp_ssr_mode : ∃ a : UOp, uSrcOk 1 a = true ∧ ¬ ((xOf B).cr.readU a).toNat < 2 := ⟨.const 2, by decide, by decide⟩

theorem test_hyp_branch : LastWord (xOf B) 1 ∧ srcOk (B.regsOf 3) 1 true (.v 103) = true ∧ (LOp.v 103).noPort = true ∧
    LinesHere (xOf B) (linesOf 1 (.v 103)) ∧
    ((true = true) → (xOf B).cr.uchk = true → ∀ l ∈ (xOf B).run.lanes,
      ((xOf B).cr.thread l).readW l (.v 103) = ((xOf B).cr.thread (xOf B).lowest).readW (xOf B).lowest (.v 103)) :=
  ⟨by unfold LastWord; decide, by decide, by decide, by unfold LinesHere; decide, by decide⟩

theorem test_hyp_call : dstOk (B.regsOf 3) 2 false (.v 102) = true ∧ (LOp.v 102) ≠ .zero ∧ LinesHere (xOf B) (linesOf 2 (.v 102)) :=
  ⟨by decide, by decide, by unfold LinesHere; decide⟩

theorem test_hyp_ret : srcOk (B.regsOf 3) 2 false (.v 102) = true ∧ LinesHere (xOf B) (linesOf 2 (.v 102)) ∧
    (((xOf B).cr.thread (xOf B).lowest).readD (xOf B).lowest (.v 102)).toNat % 4 = 0 :=
  ⟨by decide, by unfold LinesHere; decide, by decide⟩

theorem test_hyp_ret_misaligned : srcOk (B.regsOf 3) 2 false .lid = false := by decide

/-- The machine with 6 in `v0` of every lane, and in `s0`. -/
def BSix : State := B.modCrew 3 (fun cr => { cr with s := [(0, 6#32)], threads := cr.threads.map (fun t => { t with v := [(0, 6#32)] }) })

theorem test_hyp_ret_six : BSix.issuer = some (xOf BSix) ∧ srcOk (BSix.regsOf 3) 2 false (.v 0) = true ∧
    ¬ (((xOf BSix).cr.thread (xOf BSix).lowest).readD (xOf BSix).lowest (.v 0)).toNat % 4 = 0 := ⟨by decide, by decide, by decide⟩

theorem test_hyp_jmp_six : ¬ (Word.pair ((xOf BSix).cr.s.get 0) ((xOf BSix).cr.s.get 1)).toNat % 4 = 0 := by decide

/-- The machine at the first of two words of a clause. -/
def BTwo : State := baseOf [0#32, 0#32]

theorem test_hyp_end_word : ∃ i n ok, EndWord i n ok ∧ RunsFit BTwo ∧ BTwo.issuer = some (xOf BTwo) ∧ ok (BTwo.regsOf 3) = true ∧ ¬ LastWord (xOf BTwo) n :=
  ⟨_, _, _, .pret (.v 103) 1#3, fits_of _ (by decide), by decide, by decide, by unfold LastWord; decide⟩

/-- A branch on a port, a nap of a port's word, and a `pret` of five registers. -/
theorem test_hyp_end_operand :
    (∃ ok, EndWord (.bra false (.port .die) true 0#15) 1 ok ∧ ok (BTwo.regsOf 3) = false) ∧
    (∃ n ok, EndWord (.nap (.lane (.port .die))) n ok ∧ ok (BTwo.regsOf 3) = false) ∧
    ∃ ok, EndWord (.pret (.v 0) 5#3) 1 ok ∧ ok (BTwo.regsOf 3) = false :=
  ⟨⟨_, .bra .., by decide⟩, ⟨_, _, .nap _, by decide⟩, ⟨_, .pret .., by decide⟩⟩

theorem test_hyp_nap : LastWord (xOf BTwo) (BOp.lit 0xFFFFFFFF#32).size ∧ bSrcOk (BTwo.regsOf 3) 1 false (.lit 0xFFFFFFFF#32) = true ∧
    LinesHere (xOf BTwo) (bLinesOf 1 (.lit 0xFFFFFFFF#32)) := ⟨by unfold LastWord; decide, by decide, by unfold LinesHere; decide⟩

theorem test_hyp_exit : LastWord (xOf B) 1 ∧ ∀ l ∈ (xOf B).run.lanes, (B.thread (xOf B).c l).st = .running :=
  ⟨by unfold LastWord; decide, by decide⟩

theorem test_hyp_trap : uSrcOk 1 (.lit 255#32) = true ∧ ((xOf B).cr.readU (.lit 255#32)).toNat ≤ 255 := ⟨by decide, by decide⟩
theorem test_hyp_trap_large : uSrcOk 1 (.lit 256#32) = true ∧ ¬ ((xOf B).cr.readU (.lit 256#32)).toNat ≤ 255 := ⟨by decide, by decide⟩

/-! #### Port control words -/

theorem test_hyp_port_state : PortWordReady B (xOf B) (.v 103) 4#3 5 :=
  ⟨B_fits, B_issuer, by decide, ⟨by decide, by decide⟩, by unfold LinesHere; decide⟩

theorem test_hyp_port_position : PortWordReady B (xOf B) (.v 103) 5#3 6 :=
  ⟨B_fits, B_issuer, by decide, ⟨by decide, by decide⟩, by unfold LinesHere; decide⟩

theorem test_hyp_pcfg_two : bSrcOk (B.regsOf 3) 1 false (.imm 34) = true ∧ 2 ≤ ((xOf B).cr.readBW (xOf B).lowest false (.imm 34)).toNat :=
  ⟨by decide, by decide⟩

theorem test_hyp_pcfg_whole : bSrcOk (B.regsOf 3) 1 false (.imm 33) = true ∧ ((xOf B).cr.readBW (xOf B).lowest false (.imm 33)).toNat < 2 ∧
    WholeCrew (xOf B) ∧ RingIdle B 3 := by
  refine ⟨by decide, by decide, ?_, ?_, ?_⟩
  · intro l hl
    exact Or.inl (List.mem_range.mpr hl)
  · intro f hf
    rw [show B.flights = [] by decide] at hf
    cases hf
  · intro t ht p hp
    have h : ∀ t ∈ (B.crew 3).threads, ∀ p ∈ [Port.east, .west], (t.port p).queue = [] ∧ 8 ≤ (t.port p).credit := by decide
    exact h t ht p (by rcases hp with rfl | rfl <;> simp)

theorem test_hyp_pcfg_busy : WholeCrew (xOf BWest) ∧ ¬ RingIdle BWest 3 := by
  constructor
  · intro l hl
    exact Or.inl (List.mem_range.mpr hl)
  · intro h
    have := h.2 (BWest.thread 3 0) (by decide) .west (Or.inr rfl)
    exact absurd this.1 (by decide)

/-- The machine whose run is of lane 31 alone. -/
def BOne (s : State) : State := s.modCrew 3 (fun cr => { cr with run := cr.run.map (fun r => { r with lanes := [31] }) })

theorem test_hyp_pcfg_part : RunsFit (BOne B) ∧ (BOne B).issuer = some (xOf (BOne B)) ∧ ¬ WholeCrew (xOf (BOne B)) := by
  refine ⟨fits_of _ (by decide), by decide, fun h => ?_⟩
  exact absurd (h 0 (by decide)) (by decide)

theorem test_hyp_peek : PortWordReady BF (xOf BF) (.v 103) 1#3 5 ∧ (xOf BF).seta = some 11 ∧ FlagRoom BF (xOf BF) (some 11) ∧
    FivePorts BF (xOf BF) ∧ (∀ l ∈ (xOf BF).run.lanes, (BF.thread 3 l).st ≠ .exited) ∧
    (∀ l ∈ (xOf BF).run.lanes, ((BF.thread 3 l).port .west).peeks = []) ∧
    (∀ l ∈ (xOf BF).run.lanes, ((BF.thread 3 l).port .west).queue = [] →
      ∃ n, BF.neighbour 3 l .west = some n ∧ (BF.thread n.1 n.2).st ≠ .exited) := by
  refine ⟨⟨BF_fits, BF_issuer, by decide, ⟨by decide, by decide⟩, by unfold LinesHere; decide⟩, by decide, BF_room _,
    by unfold FivePorts; decide, by decide, by decide, ?_⟩
  intro l hl _
  have h : ∀ l ∈ (xOf BF).run.lanes, BF.neighbour 3 l .west = some (3, (l + 31) % 32) ∧ (BF.thread 3 ((l + 31) % 32)).st ≠ .exited := by decide
  exact ⟨_, (h l hl).1, (h l hl).2⟩

theorem test_hyp_flush : PortWordReady BWest (xOf BWest) (.v 103) 5#3 6 ∧ FivePorts BWest (xOf BWest) :=
  ⟨⟨fits_of _ (by decide), by decide, by decide, ⟨by decide, by decide⟩, by unfold LinesHere; decide⟩, by unfold FivePorts; decide⟩

theorem test_hyp_peek_alone : PortWordReady (BOne BF) (xOf (BOne BF)) (.v 103) 4#3 5 ∧ (xOf (BOne BF)).seta = some 11 ∧
    FlagRoom (BOne BF) (xOf (BOne BF)) (some 11) ∧ (xOf (BOne BF)).run.lanes = [31] ∧ (((BOne BF).thread 3 31).port .die).queue = [] ∧
    ∀ n, (BOne BF).neighbour 3 31 .die = some n → ((BOne BF).thread n.1 n.2).st = .exited := by
  refine ⟨⟨fits_of _ (by decide), by decide, by decide, ⟨by decide, by decide⟩, by unfold LinesHere; decide⟩, by decide, ?_, by decide,
    by decide, ?_⟩
  · intro l hl g _
    have h : ∀ l ∈ (xOf (BOne BF)).run.lanes, ((BOne BF).thread (xOf (BOne BF)).c l).flags = [] := by decide
    rw [h l hl]
    show (0#4 : BitVec 4) ≠ 15#4
    decide
  · intro n h
    rw [show (BOne BF).neighbour 3 31 .die = none by decide] at h
    cases h

theorem test_hyp_peek_free : PortQueueReady BF (xOf BF) (.v 103) 1#3 5 ∧ (∀ l ∈ (xOf BF).run.lanes, PeekFree BF 3 l (.v 103)) :=
  ⟨⟨⟨BF_fits, BF_issuer, by decide, ⟨by decide, by decide⟩, by unfold LinesHere; decide⟩, by unfold LinesHere; decide⟩,
    by unfold PeekFree; decide⟩

theorem test_hyp_gsr_port : LinesHere (xOf BNorth) (linesOf 1 (.port .north)) ∧ (22#9 : BitVec 9).toNat < 23 := ⟨by unfold LinesHere; decide, by decide⟩

/-! #### The expand unit -/

/-- The machine whose run is of lane 31, with a session of its squad in the unit. -/
def BSession (z : Session) : State := (BOne BF).modCore 0 (fun k => { k with session := some z })

theorem BSession_fits (z : Session) : RunsFit (BSession z) := by
  intro c r h
  exact (fits_of (BOne BF) (by decide)) c r h

/-- A sealed session of the run's squad, whose one participant is the thread of lane 31, with 2^32 - 1 indices. -/
def zSealed : Session :=
  { squad := 2, sealed := true, owners := [{ code := 31, start := 5#32, length := 2 ^ 32 - 1 }], ranks := [31], total := 2 ^ 32 - 1 }

theorem test_hyp_xld : ExpandReady (BOne BF) (xOf (BOne BF)) (.v 103) ∧ (xOf (BOne BF)).run.lanes = [31] ∧
    srcOk ((BOne BF).regsOf 3) 1 false (.v 0) = true ∧ bSrcOk ((BOne BF).regsOf 3) 1 false (.lit 0xFFFFFFFF#32) = true ∧
    LinesHere (xOf (BOne BF)) (linesOf 1 (.v 0) ++ bLinesOf 1 (.lit 0xFFFFFFFF#32)) ∧
    ((BOne BF).squad (xOf (BOne BF)).cr.squad).savedSession = none :=
  ⟨⟨fits_of _ (by decide), by decide, ⟨by decide, by decide⟩, by unfold LinesHere; decide⟩, by decide, by decide, by decide,
    by unfold LinesHere; decide, by decide⟩

/-- What the unit answers: 0 as it is free, 4 for a range of 2^32, 3 for a second range, 2 for another squad's, 1 for a sealed one. -/
theorem test_hyp_xld_status : (loadOne 2 31 5#32 (2 ^ 32 - 1) none).1 = 0#32 ∧ (loadOne 2 31 5#32 (2 ^ 32) none).1 = 4#32 ∧
    (loadOne 2 31 5#32 1 (some { squad := 2, owners := [{ code := 31, start := 0#32, length := 1 }] })).1 = 3#32 ∧
    (loadOne 2 31 5#32 1 (some { squad := 7 })).1 = 2#32 ∧ (loadOne 2 31 5#32 1 (some zSealed)).1 = 1#32 :=
  ⟨by decide, by decide, by decide, by decide, by decide⟩

theorem test_hyp_xdeal_none : (BOne BF).sessionOf (xOf (BOne BF)).cr.squad = none := by decide

theorem test_hyp_xdeal : dstOk ((BSession zSealed).regsOf 3) 2 false (.v 102) = true ∧ (LOp.v 102) ≠ .zero ∧
    LinesHere (xOf (BSession zSealed)) (linesOf 2 (.v 102)) ∧ (BSession zSealed).sessionOf 2 = some zSealed ∧ zSealed.sealed = true ∧
    ∀ l ∈ (xOf (BSession zSealed)).run.lanes, ((BSession zSealed).thread 3 l).xopen = none :=
  ⟨by decide, by decide, by unfold LinesHere; decide, by decide, by decide, by decide⟩

theorem test_hyp_xred : ∃ i op d b, RedWord i op d b ∧ redDstOk ((BSession zSealed).regsOf 3) d = true ∧ b.noPort = true ∧
    bSrcOk ((BSession zSealed).regsOf 3) 1 false b = true ∧ (xOf (BSession zSealed)).seta = some 11 ∧
    FlagRoom (BSession zSealed) (xOf (BSession zSealed)) (some 11) ∧ LinesHere (xOf (BSession zSealed)) (linesOf 1 d ++ bLinesOf 1 b) :=
  ⟨_, _, _, _, .max (.v 103) (.lane (.v 0)), by decide, by decide, by decide, by decide, by
    intro l hl g _
    have h : ∀ l ∈ (xOf (BSession zSealed)).run.lanes, ((BSession zSealed).thread (xOf (BSession zSealed)).c l).flags = [] := by decide
    rw [h l hl]
    show (0#4 : BitVec 4) ≠ 15#4
    decide, by unfold LinesHere; decide⟩

/-- The machine whose lane 31 has an index open of a session in which it owns three, the first applied. -/
def BOpen (n : Nat) : State :=
  (BSession { squad := 2, sealed := true, owners := [{ code := 31, start := 0#32, length := 3, next := 1 }], ranks := [31], total := 3 }).modThread 3 31
    (fun t => { t with xopen := some n })

/-- Its owner. -/
def xo : XOwner := { code := 31, start := 0#32, length := 3, next := 1 }

/-- Index 1 is the owner's next, and index 2 is not. -/
theorem test_hyp_terms : ∀ n ∈ [1, 2], ((BOpen n).thread 3 31).xopen = some n ∧
    OpenAt (BOpen n) 2 { squad := 2, sealed := true, owners := [xo], ranks := [31], total := 3 } n xo := by
  intro n h
  simp only [List.mem_cons, List.not_mem_nil, or_false] at h
  rcases h with rfl | rfl
  · exact ⟨by decide, by decide, by decide, by decide, by decide, by decide, by decide, by decide⟩
  · exact ⟨by decide, by decide, by decide, by decide, by decide, by decide, by decide, by decide⟩

theorem test_hyp_terms_run : RunsFit (BOpen 1) ∧ (BOpen 1).issuer = some (xOf (BOpen 1)) ∧ (xOf (BOpen 1)).run.lanes = [31] ∧
    (xOf (BOpen 1)).seta = some 11 := ⟨fits_of _ (by decide), by decide, by decide, by decide⟩

/-- The reductions on two values that differ as signed numbers: sums, the lesser and the greater. -/
theorem test_hyp_red_values : redNext 0 0xFFFFFFFF#32 2#32 = 1#32 ∧ redNext 2 0xFFFFFFFF#32 2#32 = 0xFFFFFFFF#32 ∧
    redNext 3 0xFFFFFFFF#32 2#32 = 2#32 := ⟨by decide, by decide, by decide⟩

theorem test_hyp_xend_none : (BOne BF).sessionOf 2 = none := by decide
theorem test_hyp_xend_work : SessionWork (BSession zSealed) 2 zSealed := Or.inl (by decide)

/-- A session without owners. -/
def zEmpty : Session := { squad := 2 }

theorem test_hyp_xend_done : (BSession zEmpty).sessionOf 2 = some zEmpty ∧ ¬ SessionWork (BSession zEmpty) 2 zEmpty := by
  refine ⟨by decide, ?_⟩
  rintro (h | h | ⟨op, h, _⟩)
  · exact absurd h (by decide)
  · exact h rfl
  · rw [show (BSession zEmpty).ops = [] by decide] at h
    cases h

/-! #### Tensor identifiers, the engine and the baton -/

/-- The machine whose squad holds the engine, with the baton at its crew, identifiers, uniform registers and scratch. -/
def BE (tx : AList Tensor) (regs : Store 32) : State :=
  let s := BF.modCrew 3 (fun cr => { cr with s := regs })
  let s := s.modSquad 2 (fun q => { q with tx := tx })
  s.modCore 0 (fun k => { k with engine := { holder := some 2, baton := 0 } })

theorem BE_fits (tx : AList Tensor) (regs : Store 32) : RunsFit (BE tx regs) := by
  intro c r h
  exact fits_of (BE tx regs) rfl c r h

theorem BE_elect (tx : AList Tensor) (regs : Store 32) (d : UOp) (h : electDstOk d = true) :
    ElectReady (BE tx regs) (xOf (BE tx regs)) d :=
  ⟨BE_fits _ _, rfl, h, fun _ => by
    show (xOf BF).seta.isSome = true
    decide, room_of _ _ (by
    have h : ∀ l ∈ (xOf BF).run.lanes, (BF.thread 3 l).flags = [] := by decide
    exact h) _⟩

/-- An array of a format, of 8 by 1,000 elements with rows 32 bytes apart, from address 0 of global memory. -/
def tensOf (fmt : Nat) : Tensor := tens (BitVec.ofNat 32 (0x120 + fmt) :: rows8.drop 1)

/-- Identifiers 1 and 63: FP32 arrays. -/
def tx2 : AList Tensor := [(1, tensOf 0), (63, tensOf 0)]

theorem test_hyp_tdef : uDstOk 1 (.s 159) = true ∧ uSrcOk 1 (.const 62) = true ∧ uSrcOk 1 (.lit 3968#32) = true ∧
    (((xOf BF).cr.readU (.const 62)).toNat < 64) ∧ ((xOf BF).cr.readU (.lit 3968#32)).toNat % 16 = 0 ∧
    ((xOf BF).cr.readU (.lit 3968#32)).toNat + 128 ≤ (BF.squad (xOf BF).cr.squad).allot :=
  ⟨by decide, by decide, by decide, by decide, by decide, by decide⟩

theorem test_hyp_tdef_outside : ((xOf BF).cr.readU (.lit 3984#32)).toNat % 16 = 0 ∧
    (BF.squad (xOf BF).cr.squad).allot < ((xOf BF).cr.readU (.lit 3984#32)).toNat + 128 := ⟨by decide, by decide⟩

theorem test_hyp_tdef_misaligned : ((xOf BF).cr.readU (.lit 3976#32)).toNat % 16 ≠ 0 := by decide

/-- The machine with a legal descriptor at the start of its scratch. -/
def BDesc : State := BF.modSquad 2 (fun q => { q with scratch := [(0, 0x10#8), (1, 1#8), (24, 4#8), (62, 1#8)] })

theorem test_hyp_txrd : uSrcOk 1 (.const 48) = true ∧ ((xOf BF).cr.readU (.const 48)).toNat ≤ 48 := ⟨by decide, by decide⟩

theorem test_hyp_baton_held : ElectReady (BE tx2 []) (xOf (BE tx2 [])) (.s 159) ∧ BatonHeld (BE tx2 []) (xOf (BE tx2 [])) :=
  ⟨BE_elect _ _ _ (by decide), by unfold BatonHeld EngineHeld; decide⟩

theorem test_hyp_engine_free : ElectReady BF (xOf BF) .zero ∧ (BF.core (BF.squad (xOf BF).cr.squad).core).engine.holder = none :=
  ⟨⟨BF_fits, BF_issuer, by decide, by decide, BF_room _⟩, by decide⟩

/-- The machine whose engine another squad holds. -/
def BOther : State := BF.modCore 0 (fun k => { k with engine := { holder := some 9, baton := 0 } })

theorem test_hyp_engine_other : ElectReady BOther (xOf BOther) .zero ∧ (BOther.core (BOther.squad (xOf BOther).cr.squad).core).engine.holder ≠ none ∧
    ¬ BatonHeld BOther (xOf BOther) :=
  ⟨⟨fits_of _ (by decide), by decide, by decide, by decide, room_of _ _ (by decide) _⟩, by decide, by unfold BatonHeld EngineHeld; decide⟩

/-- The block of a matrix multiplication of FP32 operands from identifiers 1 and 63, of 4,096 chunks. -/
def mmaRegs : Store 32 := [(152, 0#32), (153, 1#32), (154, 63#32), (155, 4096#32)].filter (fun p => p.2 != 0#32)

theorem test_hyp_mma : firstFail (mmaChecks (BE tx2 mmaRegs) (xOf (BE tx2 mmaRegs)) (Claim.words (xOf (BE tx2 mmaRegs)) 152 8) false) = none ∧
    (xOf (BE tx2 mmaRegs)).cr.absent = [] ∧ MatrixRoom (BE tx2 mmaRegs) (xOf (BE tx2 mmaRegs)) ∧
    CapRoom (BE tx2 mmaRegs) (xOf (BE tx2 mmaRegs)) :=
  ⟨by decide, by decide, by unfold MatrixRoom; decide, by unfold CapRoom; decide⟩

/-- The block of a sparse one, whose A comes from `v0`: three chunks of FP8. -/
def mmspRegs : Store 32 := [(152, 0x04400800#32), (153, 80#32), (154, 63#32), (155, 3#32), (159, 1#32)]

/-- Identifiers 1 and 63: metadata and E4M3. -/
def txSparse : AList Tensor := [(1, tensOf 14), (63, tensOf 4)]

theorem test_hyp_mmsp : firstFail (mmaChecks (BE txSparse mmspRegs) (xOf (BE txSparse mmspRegs))
    (Claim.words (xOf (BE txSparse mmspRegs)) 152 8) true) = none := by decide

theorem test_hyp_mzero : uSrcOk 1 (.const 15) = true ∧ ((xOf (BE tx2 [])).cr.readU (.const 15)).toNat < 16 := ⟨by decide, by decide⟩

/-- The block of a tile load or store of identifier 63. -/
def tileRegs : Store 32 := [(156, 0x3F0#32)]

theorem test_hyp_tile : ((Claim.words (xOf (BE tx2 tileRegs)) 156 4).getD 0 0#32).toNat < 2 ^ 16 ∧
    (Claim.words (xOf (BE tx2 tileRegs)) 156 4).getD 3 0#32 = 0#32 ∧
    IdOf (BE tx2 tileRegs) (xOf (BE tx2 tileRegs)) (blk (Claim.words (xOf (BE tx2 tileRegs)) 156 4) 0 4 6) (tensOf 0) ∧
    mldFmt (((Claim.words (xOf (BE tx2 tileRegs)) 156 4).getD 0 0#32).getLsbD 15) (tensOf 0).fmt = true ∧
    mstFmt (((Claim.words (xOf (BE tx2 tileRegs)) 156 4).getD 0 0#32).getLsbD 15) (tensOf 0).fmt = true :=
  ⟨by decide, by decide, by unfold IdOf; decide, by decide, by decide⟩

theorem test_hyp_madd : uSrcOk 1 (.lit 0x7FFFF#32) = true ∧ EngineHeld (BE tx2 []) (xOf (BE tx2 [])) ∧
    ((xOf (BE tx2 [])).cr.readU (.lit 0x3FFFF#32)).toNat < 2 ^ 19 ∧
    maddReg ((BE tx2 []).regsOf 3) (0x336FF / 2 ^ 4 % 2 ^ 7) = some (.o 7) ∧ maddReg ((BE tx2 []).regsOf 3) (0x336FF / 2 ^ 11 % 2 ^ 7) = some (.v 102) :=
  ⟨by decide, by unfold EngineHeld; decide, by decide, by decide, by decide⟩

/-! #### The copy streamer -/

theorem test_hyp_no_rights : ElectReady (BE tx2 []) (xOf (BE tx2 [])) .zero ∧
    ¬ CopyRights ((BE tx2 []).modSquad 2 (fun q => { q with allot := 0 })) (xOf (BE tx2 [])) :=
  ⟨BE_elect _ _ _ (by decide), by unfold CopyRights; decide⟩

/-- A copy of 64 bytes from global address 0 to the last 64 bytes of the allotment. -/
def cpyRegs : Store 32 := [(156, 4032#32), (158, 64#32), (159, 1#32)]

theorem test_hyp_cpy : CopyRights (BE tx2 cpyRegs) (xOf (BE tx2 cpyRegs)) ∧ CopyRoom (BE tx2 cpyRegs) (xOf (BE tx2 cpyRegs)) ∧
    CpyBlock (BE tx2 cpyRegs) (xOf (BE tx2 cpyRegs)) (Claim.words (xOf (BE tx2 cpyRegs)) 154 6) ∧
    CapRoom (BE tx2 cpyRegs) (xOf (BE tx2 cpyRegs)) :=
  ⟨by unfold CopyRights; decide, by unfold CopyRoom; decide, by unfold CpyBlock CopyRange; decide, by unfold CapRoom; decide⟩

/-- A copy between identifiers 1 and 63. -/
def cpytRegs : Store 32 := [(154, 1#32), (156, 63#32)]

theorem test_hyp_cpyt : CopyRights (BE tx2 cpytRegs) (xOf (BE tx2 cpytRegs)) ∧
    CpytBlock (BE tx2 cpytRegs) (xOf (BE tx2 cpytRegs)) (Claim.words (xOf (BE tx2 cpytRegs)) 154 6) (tensOf 0) (tensOf 0) :=
  ⟨by unfold CopyRights; decide, by unfold CpytBlock IdOf; decide⟩

/-- A multicast of 64 bytes to all twelve cores of the cluster. -/
def cpymRegs : Store 32 := [(156, 4032#32), (157, 64#32), (158, 0xFFF#32), (159, 1#32)]

theorem test_hyp_cpym : CopyRights (BE tx2 cpymRegs) (xOf (BE tx2 cpymRegs)) ∧
    CpymBlock (BE tx2 cpymRegs) (xOf (BE tx2 cpymRegs)) (Claim.words (xOf (BE tx2 cpymRegs)) 154 6) ∧
    ((BE tx2 cpymRegs).ctIncs 0 1 ((0#4, 0#64) :: (castTo (BE tx2 cpymRegs) (xOf (BE tx2 cpymRegs))
      (Claim.words (xOf (BE tx2 cpymRegs)) 154 6)).map (fun _ => (0#4, 0#64)))).isSome = true ∧
    castTo (BE tx2 cpymRegs) (xOf (BE tx2 cpymRegs)) (Claim.words (xOf (BE tx2 cpymRegs)) 154 6) = [(0, 2)] :=
  ⟨by unfold CopyRights; decide, by unfold CpymBlock CopyRange; decide, by decide, by decide⟩

/-! #### Elected words that start an operation -/

theorem test_hyp_elected : ElectedStart (BE tx2 []) (xOf (BE tx2 [])) (.ftpoll (.s 156) .zero) (.s 156) [156, 157, 158, 159] (.ftpoll 0) 1 :=
  .ftpoll 156 .zero (by decide) (by decide) (by decide) (by decide)

/-! #### Sweep builds and pair launches -/

/-- The block of a sweep build into table 3, of spacing 1.0, from identifiers 0 (positions), 1 and 2. -/
def cinsRegs : Store 32 := [(148, 3#32), (150, 1#32), (151, 2#32), (153, 1000#32), (154, 0x3F800000#32)]

/-- Its identifiers. -/
def txSweep : AList Tensor := [(0, tensOf 0), (1, tens (0x12E#32 :: 2#32 :: 0#32 :: 0#32 :: 0#32 :: 0#32 :: 1000#32 :: rows8.drop 7)),
  (2, tens (0x12E#32 :: 2#32 :: 0#32 :: 0#32 :: 0#32 :: 0#32 :: 1000#32 :: rows8.drop 7))]

/-- The machine of a sweep build. -/
def BCins : State := BE txSweep cinsRegs

theorem test_hyp_cins : ElectReady BCins (xOf BCins) (.s 159) ∧ (∃ p o c, CinsBlock BCins (xOf BCins) (Claim.words (xOf BCins) 148 12) p o c) ∧
    sweepRefusal ((BCins.cluster 0).tables.getD 3 {}) 1 0#64 = 0 ∧ 3 < (BCins.cluster 0).tables.length ∧ CopyRoom BCins (xOf BCins) ∧
    CapRoom BCins (xOf BCins) :=
  ⟨BE_elect _ _ _ (by decide), ⟨_, _, _, by decide, rfl, rfl, rfl, by decide, by decide, by decide, by decide⟩,
    by unfold sweepRefusal; decide, by decide, by unfold CopyRoom; decide, by unfold CapRoom; decide⟩

theorem test_hyp_cins_refused : sweepRefusal { bound := some 9 } 1 0#64 = 3 ∧
    sweepRefusal { sweeps := [{ st := .complete }] } 1 0#64 = 1 ∧ sweepRefusal { sweeps := [{ st := .building, time := 1#64 }] } 1 0#64 = 2 := by
  unfold sweepRefusal; decide

/-- The block of a pair launch of identifiers 1 and 63 with accumulators 1 and 63, on all cores of the cluster. -/
def plRegs : Store 32 := [(145, 0x3F01#32), (147, 0x3F01#32), (156, 0xFFF#32)]

/-- The machine of a pair launch, with a pair slot of the launch on core 0. -/
def BPl : State := (BE tx2 plRegs).modCore 0 (fun k => { k with reserves := [{ launch := 1, pair := [4], handler := [] }] })

theorem test_hyp_plnch : ElectReady BPl (xOf BPl) (.s 159) ∧ plnchBlockOk (Claim.words (xOf BPl) 144 16) = true ∧
    IdOf BPl (xOf BPl) 1 (tensOf 0) ∧ IdOf BPl (xOf BPl) 63 (tensOf 0) ∧ tensorIs (some (tensOf 0)) 0 3 = true ∧
    tensorIs (some (tensOf 0)) 0 1 = true ∧ 7 ≤ BPl.regsOf 3 ∧ (BPl.pairCores 1 0 0xFFF).1 = [0] ∧
    BPl.incOk 0 1 0#4 0#64 0#4 0#64 = true ∧ (BPl.core 0).isthmus.length < 4 ∧ BPl.ctRoom 0 1 0#4 0#64 = true :=
  ⟨⟨fits_of _ (by decide), by decide, by decide, by decide, room_of _ _ (by decide) _⟩, by decide, by unfold IdOf; decide, by unfold IdOf; decide,
    by decide, by decide, by decide, by decide, by decide, by decide, by decide⟩

theorem test_hyp_pret_none : RunsFit (BOne BF) ∧ (xOf (BOne BF)).run.lanes = [31] ∧ LastWord (xOf (BOne BF)) 1 ∧
    pretRegsOk ((BOne BF).regsOf 3) 4 (.v 100) = true ∧ LinesHere (xOf (BOne BF)) (linesOf 4 (.v 100)) ∧
    ((BOne BF).thread 3 31).st = .running ∧ ((BOne BF).thread 3 31).pair = none :=
  ⟨fits_of _ (by decide), by decide, by unfold LastWord; decide, by decide, by unfold LinesHere; decide, by decide, by decide⟩

/-- A pair whose thread runs. -/
def pr : Pair :=
  { i := 1, j := 2, n := 0, dx := 0#32, dy := 0#32, dz := 0#32, r2 := 0#32, wrap := false, icatch := true, jcatch := true, jcore := 0, st := .running }

/-- A pair launch with one pair on core 0 and accumulators of four fields. -/
def pl4 : PairLaunch := { pl with block := 0x30#32 :: List.replicate 15 0#32, cores := [{ core := 0, arrived := true, enumerated := true, pairs := [pr] }] }

theorem test_hyp_pret : RunsFit (BPair pl4) ∧ (BPair pl4).issuer = some (xOf (BPair pl4)) ∧ (xOf (BPair pl4)).run.lanes = [0] ∧
    LastWord (xOf (BPair pl4)) 1 ∧ ((BPair pl4).thread 3 0).pair.isSome = true ∧ (BPair pl4).pairLaunches.find 7 = some pl4 ∧
    ¬ blk pl4.block 0 4 2 + 1 < 4 :=
  ⟨fits_of _ (by decide), by decide, by decide, by unfold LastWord; decide, by decide, by decide, by decide⟩

theorem test_hyp_pret_few : blk pl.block 0 4 2 + 1 < 2 := by decide

/-! #### Device launches, tasks and messages -/

theorem test_hyp_lnch : ElectReady (BE [] [(158, 64#32)]) (xOf (BE [] [(158, 64#32)])) (.s 0) ∧
    (Word.pair ((xOf (BE [] [(158, 64#32)])).cr.s.get 158) ((xOf (BE [] [(158, 64#32)])).cr.s.get 159)).toNat % 64 = 0 :=
  ⟨BE_elect _ _ _ (by decide), by decide⟩

theorem test_hyp_lnch_misaligned :
    (Word.pair ((xOf (BE [] [(158, 63#32)])).cr.s.get 158) ((xOf (BE [] [(158, 63#32)])).cr.s.get 159)).toNat % 64 ≠ 0 := by decide

/-- A message to core 11 of cluster 11 of island 3, of 48 bytes for handler 0xFFFF. -/
def amsgRegs : Store 32 := [(146, 0x3BB00#32), (147, 0xFFFF0030#32)]

theorem test_hyp_amsg : (xOf (BE [] amsgRegs)).cr.tasks = [] ∧ blk (Claim.words (xOf (BE [] amsgRegs)) 146 14) 0 0 8 = 0 ∧
    blk (Claim.words (xOf (BE [] amsgRegs)) 146 14) 0 18 14 = 0 ∧ blk (Claim.words (xOf (BE [] amsgRegs)) 146 14) 1 6 10 = 0 ∧
    blk (Claim.words (xOf (BE [] amsgRegs)) 146 14) 1 0 6 = 48 ∧ blk (Claim.words (xOf (BE [] amsgRegs)) 146 14) 0 12 4 < 12 ∧
    blk (Claim.words (xOf (BE [] amsgRegs)) 146 14) 0 8 4 < 12 ∧ CapRoom (BE [] amsgRegs) (xOf (BE [] amsgRegs)) :=
  ⟨by decide, by decide, by decide, by decide, by decide, by decide, by decide, by unfold CapRoom; decide⟩

/-- The machine of a persistent launch with one task handler. -/
def BTask (tasks : List TaskEntry) : State :=
  ((BE [] []).modLaunch 1 (fun k => { k with pkt := { k.pkt with persist := true }, handlers := [{ pc := 0#64, msg := false, task := true, sunits := 0, hregs := 8 }] })).modSquad 2
    (fun q => { q with tasks := tasks })

theorem BTask_elect (tasks : List TaskEntry) (d : UOp) (h : electDstOk d = true) : ElectReady (BTask tasks) (xOf (BTask tasks)) d :=
  ⟨fits_of _ rfl, rfl, h, fun _ => by
    show (xOf BF).seta.isSome = true
    decide, room_of _ _ (by
    have h : ∀ l ∈ (xOf BF).run.lanes, (BF.thread 3 l).flags = [] := by decide
    exact h) _⟩

theorem test_hyp_qpush : ElectReady (BTask []) (xOf (BTask [])) (.s 0) ∧ pushStatus (BTask []) (xOf (BTask [])) 15 0#32 = 0 ∧
    (BTask []).incOk 0 1 0#4 0#64 0#4 0#64 = true ∧ pushTo (BTask []) (xOf (BTask [])) 15 = some 2 ∧
    (BTask []).ctRoom ((BTask []).squad 2).core 1 0#4 0#64 = true ∧ InCohort (BTask []) 2 2 :=
  ⟨BTask_elect _ _ (by decide), by unfold pushStatus pushTo; decide, by decide, by unfold pushTo; decide, by decide,
    ⟨(BTask []).squad 2, by decide, by decide, by decide, by decide, by decide⟩⟩

/-- Its squad is no ordinary one: it has no queue of its own (R310). -/
theorem test_hyp_qpush_nowhere : pushTo ((BTask []).modSquad 2 (fun q => { q with kind := .pair })) (xOf (BTask [])) 15 = none ∧
    pushTo ((BTask []).modSquad 2 (fun q => { q with kind := .pair })) (xOf (BTask [])) 0 = none := by unfold pushTo; decide

theorem test_hyp_qpush_refused : pushStatus BF (xOf BF) 0 0#32 = 3 ∧ pushStatus (BTask []) (xOf (BTask [])) 0 0x10000#32 = 1 := by
  unfold pushStatus; decide

theorem test_hyp_qpull : ElectReady (BTask []) (xOf (BTask [])) (.s 152) ∧ ((xOf (BTask [])).cr.readU (.lit 255#32)).toNat < 256 ∧
    (∀ op ∈ (BTask []).ops, op.id < (BTask []).nextId) ∧ ((BTask []).squad 2).ownTask 255 = none :=
  ⟨BTask_elect _ _ (by decide), by decide, by decide, by decide⟩

theorem test_hyp_qpull_head : ((BTask [{ queue := 7, words := List.replicate 8 0#32, cap := 0 }]).squad 2).ownTask 255 =
    some { queue := 7, words := List.replicate 8 0#32, cap := 0 } := by decide

/-! #### Logical time -/

theorem test_hyp_ltset : StageReady BF (xOf BF) (.lit 7#32) .zero ∧ MovesFit BF (xOf BF) (fun _ _ => (0#4, 7#64)) :=
  ⟨⟨⟨BF_fits, BF_issuer, by decide, by decide, BF_room _⟩, by decide, by decide, by decide, by decide⟩, by unfold MovesFit; decide⟩

theorem test_hyp_ltinc : ((xOf BF).cr.readU (.const 0)).toNat ≤ 3 ∧ ((xOf BF).cr.readU (.lit 0xFFFF#32)).toNat ≤ 0xFFFF ∧
    (∀ l ∈ (xOf BF).run.lanes, (addTime (BF.thread 3 l).time 0 0xFFFF).isSome = true) ∧
    MovesFit BF (xOf BF) (fun g t => (g, (addTime t 0 0xFFFF).getD t)) :=
  ⟨by decide, by decide, by decide, by unfold MovesFit; decide⟩

theorem test_hyp_ltinc_bad : 3 < ((xOf BF).cr.readU (.const 4)).toNat := by decide

theorem test_hyp_ltcap : StageReady BF (xOf BF) .zero .zero ∧ BF.incOk 0 1 0#4 0#64 0#4 0#64 = true ∧ progCount BF 2 0#4 0#64 < 0xFFFF ∧
    (BF.squad 2).progCaps.length < 16 ∧ BF.ctRoom 0 1 0#4 0#64 = true :=
  ⟨⟨⟨BF_fits, BF_issuer, by decide, by decide, BF_room _⟩, by decide, by decide, by decide, by decide⟩, by decide, by decide, by decide, by decide⟩

/-- The machine with a program capability. -/
def BCap : State := BF.modSquad 2 (fun q => { q with progCaps := [{ stage := 0#4, time := 0#64, entries := [0] }] })

theorem test_hyp_ltdrop : StageReady BCap (xOf BCap) .zero .zero ∧ (((BCap.squad 2).progCap 0#4 0#64).map ProgCap.count).getD 0 = 1 :=
  ⟨⟨⟨fits_of _ (by decide), by decide, by decide, by decide, room_of _ _ (by decide) _⟩, by decide, by decide, by decide, by decide⟩, by decide⟩

theorem test_hyp_ftwait : (11#4 : BitVec 4).toNat < 12 ∧ uSrcOk 1 .zero = true ∧ uSrcOk 2 .zero = true ∧ (BF.launchOf 3).declares 0#4 = true ∧
    FlagRoom BF (xOf BF) (some 11) ∧ BF.front 0 1 0#4 = some 0#64 ∧ (xOf BF).cr.waits.length < 16 :=
  ⟨by decide, by decide, by decide, by decide, BF_room _, by decide, by decide⟩

/-- The machine of a launch with SYS, whose threads may issue system words. -/
def BSys (f : Cluster) : State := (BF.modLaunch 1 (fun k => { k with pkt := { k.pkt with sys := true } })).modCluster 0 (fun _ => f)

theorem BSys_fits (f : Cluster) : RunsFit (BSys f) := fits_of _ rfl

theorem test_hyp_ltsum : ElectReady (BSys {}) (xOf (BSys {})) (.s 159) ∧ (BSys {}).systemAllowed 3 = true ∧
    (BSys {}).byHandle ((BSys {}).partOfCore 0) 1#16 = some 1 :=
  ⟨⟨BSys_fits _, by decide, by decide, by decide, room_of _ _ (by decide) _⟩, by decide, by decide⟩

theorem test_hyp_ltsum_not : BF.systemAllowed 3 = false := by decide

/-! #### System words -/

theorem test_hyp_system_word : ∃ i d n ok value, SystemWord (xOf BF) i d n ok value ∧ RunsFit BF ∧ BF.issuer = some (xOf BF) ∧ statusDst d ∧
    ok = true ∧ BF.systemAllowed 3 = false :=
  ⟨_, _, _, _, _, .endEntry (.s 159) (.const 7), BF_fits, BF_issuer, Or.inr ⟨159, rfl⟩, by decide, by decide⟩

theorem test_hyp_system_operand : ∃ i d n ok value, SystemWord (xOf BF) i d n ok value ∧ statusDst d ∧ ok = false :=
  ⟨_, _, _, _, _, .endEntry .zero (.reserved 0), Or.inl rfl, by decide⟩

theorem test_hyp_system_value : ∃ i d n ok value, SystemWord (xOf (BSys {})) i d n ok value ∧ statusDst d ∧ ok = true ∧ value = false ∧
    (BSys {}).systemAllowed 3 = true :=
  ⟨_, _, _, _, _, .endEntry .zero (.const 8), Or.inl rfl, by decide, by decide, by decide⟩

theorem test_hyp_system_act : RunsFit (BSys {}) ∧ (BSys {}).issuer = some (xOf (BSys {})) ∧ statusDst .zero ∧ (BSys {}).systemAllowed 3 = true ∧
    uSrcOk 1 (.const 8) = true ∧ ((xOf (BSys {})).cr.readU (.const 8)).toNat = 8 ∧ ((xOf (BSys {})).cr.readU (.lit 0x2FFFF#32)).toNat < 2 ^ 18 ∧
    ((xOf (BSys {})).cr.readU (.lit 0x2FFFF#32)).toNat / 2 ^ 16 ≠ 3 :=
  ⟨BSys_fits _, by decide, Or.inl rfl, by decide, by decide, by decide, by decide, by decide⟩

/-! #### Events of the scheduler -/

/-- The machine whose crew has no run: its threads stand at header 0. -/
def BIdle : State := B.modCrew 3 (fun cr => { cr with run := none, threads := cr.threads.map (fun t => { t with mid := false, pc := 0#64 }) })

theorem test_hyp_selection : BIdle.selectable 3 = true ∧ (∀ k ∈ (BIdle.crew 3).threads, k.deferred = []) ∧
    NextRun BIdle 3 0#64 (List.range 32) ∧ ¬ HeldAtJoin BIdle 3 0#64 (List.range 32) := by
  refine ⟨by decide, by decide, ⟨by decide, by decide, by decide⟩, ?_⟩
  rintro ⟨_, _, ⟨h, e, b⟩, _⟩
  rw [show BIdle.peekHeader 3 0#64 = some 0#32 by decide] at e
  cases e
  exact absurd b (by decide)

/-- Lane 31 alone is promoted, and stands above the others: its run is the next. -/
theorem test_hyp_selection_promoted :
    NextRun (BIdle.modThread 3 31 (fun k => { k with pc := 8#64, promoted := true, starve := 1024 })) 3 8#64 [31] :=
  ⟨by decide, by decide, by decide⟩

/-- Lane 31 has a yield mark and stands below the others, inside a clause: theirs is the next. -/
theorem test_hyp_selection_yield :
    NextRun (BIdle.modThreads 3 (List.range 32) (fun l k => if l = 31 then { k with yieldMark := true } else { k with pc := 8#64, mid := true })) 3 8#64
      (List.range 31) := ⟨by decide, by decide, by decide⟩

/-- The machine whose lane 31 stands at a header with J set, above the others. -/
def BJoin : State :=
  let s := BIdle.modThreads 3 (List.range 32) (fun l k => if l = 31 then { k with pc := 64#64, promoted := true, starve := 1024 } else k)
  { s with mem := { s.mem with views := s.mem.views.map (fun m => m.write 64 [0x40#8]) } }

theorem test_hyp_join : BJoin.selectable 3 = true ∧ NextRun BJoin 3 64#64 [31] ∧ HeldAtJoin BJoin 3 64#64 [31] :=
  ⟨by decide, ⟨by decide, by decide, by decide⟩, by decide, by decide, ⟨0x40#32, by decide, by decide⟩, BJoin.thread 3 0, by decide, by decide,
    by decide, by decide⟩

/-- A hold runs at that header. -/
theorem test_hyp_join_running : HeldAtJoin (BJoin.modCrew 3 (fun cr => { cr with hold := some (64#64, 9) })) 3 64#64 [31] :=
  ⟨by decide, by decide, by rfl⟩

/-- The machine whose crew has no run and no thread that is ready. -/
def BNap : State := BIdle.modCrew 3 (fun cr => { cr with threads := cr.threads.map (fun t => { t with st := .napping }) })

theorem test_hyp_selection_none : BNap.selectable 3 = true ∧ (∀ k ∈ (BNap.crew 3).threads, k.deferred = []) ∧ BNap.readyLanes 3 = [] :=
  ⟨by decide, by decide, by decide⟩

/-- The machine whose run waits for its clause. -/
def BFetch : State := BIdle.modCrew 3 (fun cr => { cr with run := some { lanes := List.range 32, hdr := 0#64, hword := none, words := [], idx := 0 } })

theorem test_hyp_fetch : RunsFit BFetch ∧ (∃ r, (BFetch.crew 3).run = some r ∧ r.hword = none ∧
    (∃ s2, BFetch.fetchClause (BFetch.coreOf 3) (BFetch.spaceOf 3) r.hdr = (.ok (0#32, [0#32]), s2)) ∧
    (∀ l ∈ r.lanes, (BFetch.thread 3 l).mid = false) ∧ (∀ l ∈ r.lanes, (BFetch.thread 3 l).arrival ≠ .vector)) ∧
    (BFetch.crew 3).resident = true ∧ HeaderFit 0#32 :=
  ⟨fits_of _ (by decide), ⟨{ lanes := List.range 32, hdr := 0#64, hword := none, words := [], idx := 0 }, by decide, by decide,
    ⟨_, Prod.ext (by rfl) rfl⟩, by decide, by decide⟩, by decide, by unfold HeaderFit; decide⟩

/-- Headers that trap: a reserved bit, and flag 12. -/
theorem test_hyp_header_faults : ¬ HeaderFit 1#32 ∧ ¬ HeaderFit 0xC000#32 ∧ HeaderFit 0xFB00#32 :=
  ⟨by unfold HeaderFit; decide, by unfold HeaderFit; decide, by unfold HeaderFit; decide⟩

/-- The machine whose run of lane 31 is to be fetched at an address, lane 31 having come there so. -/
def BFetchAt (hdr : DWord) (how : Arrival) (mid : Bool) : State :=
  (BIdle.modThread 3 31 (fun k => { k with pc := hdr, arrival := how, mid := mid, clhdr := 0#64 })).modCrew 3 (fun cr => { cr with
    run := some { lanes := [31], hdr := hdr, hword := none, words := [], idx := 0 } })

/-- Entered by a call or from a trap at a header whose E is clear, and inside a clause. -/
theorem test_hyp_fetch_at : ∀ how ∈ [Arrival.entry, .vector, .fall],
    Fetches (BFetchAt 0#64 how false) 3 { lanes := [31], hdr := 0#64, hword := none, words := [], idx := 0 } ∧
    ((BFetchAt 0#64 how true).thread 3 31).mid = true ∧
    (∃ s2, (BFetchAt 0#64 how false).fetchClause ((BFetchAt 0#64 how false).coreOf 3) ((BFetchAt 0#64 how false).spaceOf 3) 0#64 = (.ok (0#32, [0#32]), s2)) ∧
    ((BFetchAt 0#64 how false).thread 3 31).arrival = how := by
  intro how h
  simp only [List.mem_cons, List.not_mem_nil, or_false] at h
  rcases h with rfl | rfl | rfl <;> exact ⟨⟨fits_of _ (by decide), by decide, by decide, by decide⟩, by decide, ⟨_, Prod.ext (by rfl) rfl⟩, by decide⟩

theorem test_hyp_fetch_unmapped : ∃ va s2, (BFetchAt 0x40000000#64 .fall false).fetchClause ((BFetchAt 0x40000000#64 .fall false).coreOf 3)
    ((BFetchAt 0x40000000#64 .fall false).spaceOf 3) 0x40000000#64 = (.error (.unmapped, va), s2) := ⟨_, _, Prod.ext (by rfl) rfl⟩

theorem test_hyp_fetch_denied : ∃ va s2, (BFetchAt 0x8000000000000000#64 .fall false).fetchClause ((BFetchAt 0x8000000000000000#64 .fall false).coreOf 3)
    ((BFetchAt 0x8000000000000000#64 .fall false).spaceOf 3) 0x8000000000000000#64 = (.error (.denied, va), s2) := ⟨_, _, Prod.ext (by rfl) rfl⟩

theorem test_hyp_promotion : 1024 ≤ ((B.modThread 3 31 (fun t => { t with starve := 1024 })).thread 3 31).starve ∧
    31 < ((B.modThread 3 31 (fun t => { t with starve := 1024 })).crew 3).threads.length := ⟨by decide, by decide⟩

/-- The machine with a join hold that has come to its end. -/
def BHold : State := BIdle.modCrew 3 (fun cr => { cr with hold := some (0#64, 0) })

theorem test_hyp_hold : (BHold.crew 3).hold = some (0#64, 0) ∧ (BHold.crew 3).resident = true := ⟨by decide, by decide⟩

theorem test_hyp_nap_over : (BNap.thread 3 31).st = .napping ∧ (BNap.thread 3 31).nap = 0 ∧ (BNap.crew 3).resident = true ∧
    31 < (BNap.crew 3).threads.length := ⟨by decide, by decide, by decide, by decide⟩

/-- The machine with a thread that backs off for a permit. -/
def BBack : State := BIdle.modThread 3 31 (fun t => { t with stall := some .permit })

theorem test_hyp_backoff : (BBack.thread 3 31).stall = some .permit ∧ (BBack.thread 3 31).backoff = 0 ∧ 31 < (BBack.crew 3).threads.length :=
  ⟨by decide, by decide, by decide⟩

/-! #### Accesses that are performed -/

/-- Where no thread listed peeks, none does. -/
theorem peeks_of (s : State) (h : s.crews.all (fun p => p.2.threads.all (fun k => k.peeks.isEmpty)) = true) (c l : Nat) :
    (s.thread c l).peeks = [] := by
  unfold State.thread State.crew
  cases hf : s.crews.find c with
  | none => rfl
  | some cr =>
    have hc := List.all_eq_true.mp h _ (find_mem _ _ _ hf)
    show ((cr.threads.getD l {}).peeks = [])
    rw [List.getD_eq_getElem?_getD]
    cases hl : cr.threads[l]? with
    | none => rfl
    | some k => simpa using List.all_eq_true.mp hc k (List.mem_of_getElem? hl)

/-- No thread of a state with one operation peeks. -/
theorem noPeeks (o : Op) : ∀ l ∈ o.lanes, ∀ k ∈ ((BOp1 o).thread o.crew l).peeks, k.value = none ∧ Dest.clash 4 o.width (.lane k.d) o.dest = false := by
  intro l _ k hk
  rw [peeks_of _ (by show BF.crews.all _ = true; decide)] at hk
  cases hk

/-- `MayGo` for the one operation of a state. -/
theorem goes (o : Op) : MayGo (BOp1 o) o := by
  refine ⟨?_, ?_, ?_⟩
  · show List.find? _ [o] = some o
    simp
  · intro e he
    have : e = o := by simpa [BOp1] using he
    subst this
    simp [Op.before, Op.lowerLane]
  · exact noPeeks o

/-- No operation of a state with one is a store of its own, where it is none. -/
theorem noStores (o : Op) (h : isGlobalStore o = false) (h2 : ∀ k, sameLocalStore k o = false) : NoOwnStores (BOp1 o) o := by
  intro e he _ _
  have : e = o := by simpa [BOp1] using he
  subst this
  exact ⟨h, h2⟩

theorem test_hyp_load_lands : MayGo (BOp1 opLoad) opLoad ∧ OneLane (BOp1 opLoad) opLoad 0 (.v 1) ∧
    (BOp1 opLoad).mem.poisoned 0 4 = false ∧ NoOwnStores (BOp1 opLoad) opLoad :=
  ⟨goes _, ⟨by decide, by decide, by decide, by decide, by decide⟩, by decide, noStores _ (by decide) (fun k => by cases k <;> rfl)⟩

/-- A store, at device scope. -/
def opStore : Op := { opLoad with kind := .store false, dest := .none, ord := 5, data := [1#8, 2#8, 3#8, 4#8] }

theorem test_hyp_store : MayGo (BOp1 opStore) opStore ∧ 5 ≤ opStore.ord ∧ (BOp1 opStore).mem.canWriteAll ((BOp1 opStore).islandOf 3) = true :=
  ⟨goes _, by decide, by decide⟩

theorem test_hyp_store_local : MayGo (BOp1 { opStore with ord := 4 }) { opStore with ord := 4 } := goes _

/-- The machine with a write that island 3's view has not applied. -/
def BPend : State := { B with mem := B.mem.write 0 [(0, 7#8)] 2 1 [(3, 0)] }

theorem test_hyp_remote : ∃ w, BPend.mem.pend.find? (fun v => v.id == w.id) = some w ∧ BPend.mem.applicable w = true ∧ w.dst = 3 := by
  have h : BPend.mem.pend.any (fun w => decide (BPend.mem.pend.find? (fun v => v.id == w.id) = some w ∧ BPend.mem.applicable w = true ∧ w.dst = 3)) = true := by decide
  obtain ⟨w, _, hw⟩ := List.any_eq_true.mp h
  exact ⟨w, of_decide_eq_true hw⟩

/-- An atomic that returns the old value. -/
def opAtomic : Op := { opLoad with kind := .atomic 0 true, ord := 4, data := [1#8, 0#8, 0#8, 0#8] }

theorem test_hyp_atomic : MayGo (BOp1 opAtomic) opAtomic ∧ OneLane (BOp1 opAtomic) opAtomic 0 (.v 1) ∧ opAtomic.ord < 5 ∧
    AtomicFree (BOp1 opAtomic) opAtomic :=
  ⟨goes _, ⟨by decide, by decide, by decide, by decide, by decide⟩, by decide, by unfold AtomicFree; decide⟩

theorem test_hyp_atomic_device : MayGo (BOp1 { opAtomic with ord := 5 }) { opAtomic with ord := 5 } ∧
    AtomicFree (BOp1 { opAtomic with ord := 5 }) { opAtomic with ord := 5 } ∧
    (BOp1 { opAtomic with ord := 5 }).mem.canWriteAll ((BOp1 opAtomic).islandOf 3) = true :=
  ⟨goes _, by unfold AtomicFree; decide, by decide⟩

theorem test_hyp_reduction : MayGo (BOp1 { opAtomic with kind := .atomic 8 false, dest := .none }) { opAtomic with kind := .atomic 8 false, dest := .none } ∧
    AtomicFree (BOp1 { opAtomic with kind := .atomic 8 false, dest := .none }) { opAtomic with kind := .atomic 8 false, dest := .none } :=
  ⟨goes _, by unfold AtomicFree; decide⟩

/-- The machine with a thread that waits at a fence. -/
def BFence : State := BIdle.modThread 3 31 (fun t => { t with stall := some (.fence 6 0 1 true) })

theorem test_hyp_fence_release : (BFence.thread 3 31).stall = some (.fence 6 0 1 true) ∧ (BFence.thread 3 31).st = .running ∧
    (∀ m < 32, m ≠ 31 → (BFence.thread 3 m).stall = none) ∧ BFence.fenceMet 3 [31] 6 0 1 = true :=
  ⟨by decide, by decide, by decide, by decide⟩

/-- A scratch load, a slice load, a scratch store, a scratch copy and uniform loads. -/
def opLds : Op := { opLoad with kind := .lds, addr := 4092 }
/-- A slice load. -/
def opLdp : Op := { opLoad with kind := .ldp, addr := 2044 }
/-- A scratch store. -/
def opSts : Op := { opLoad with kind := .sts, dest := .none, data := [1#8, 2#8, 3#8, 4#8] }
/-- A uniform load. -/
def opUni (k : OpKind) : Op := { opLoad with kind := k, dest := .uni [159] }

theorem test_hyp_lds : MayGo (BOp1 opLds) opLds ∧ OneLane (BOp1 opLds) opLds 0 (.v 1) ∧ NoOwnStores (BOp1 opLds) opLds ∧
    ((BOp1 opLds).squad 2).scratchPoison = [] :=
  ⟨goes _, ⟨by decide, by decide, by decide, by decide, by decide⟩, noStores _ (by decide) (fun k => by cases k <;> rfl), by decide⟩

/-- The machine with the last word of the allotment poisoned. -/
def BPoison : State := (BOp1 opLds).modSquad 2 (fun q => { q with scratchPoison := [1023] })

theorem test_hyp_lds_poisoned : (∃ w ∈ (BPoison.squad 2).scratchPoison, 4 * w < opLds.addr + opLds.width ∧ opLds.addr < 4 * w + 4) ∧
    BPoison.opAt 1 = some opLds ∧ ∀ e ∈ BPoison.ops, e.before opLds = false := ⟨⟨1023, by decide, by decide, by decide⟩, by decide, by decide⟩

/-- The machine with an operation and the last line of the slices in the slice SRAM. -/
def BSlice (o : Op) : State := (BOp1 o).modCrew 3 (fun cr => { cr with sliceIn := [511] })

/-- The last word of a slice is word 511. -/
theorem sliceHere (o : Op) (hc : o.crew = 3) (ha : o.addr = 2044) (hw : o.width = 4) : SliceHere (BSlice o) o := by
  intro k h1 h2
  have hk : k = 511 := by omega
  subst hk
  rw [hc]
  show 511 ∈ [511]
  simp

theorem test_hyp_ldp : MayGo (BSlice opLdp) opLdp ∧ OneLane (BSlice opLdp) opLdp 0 (.v 1) ∧ SliceHere (BSlice opLdp) opLdp ∧
    ((BSlice opLdp).thread 3 0).slicePoison = [] :=
  ⟨by unfold MayGo; decide, ⟨by decide, by decide, by decide, by decide, by decide⟩, sliceHere _ rfl rfl rfl, by decide⟩

/-- A slice store, of two lanes. -/
def opStp : Op := { opLdp with kind := .stp, dest := .none, data := [1#8, 2#8, 3#8, 4#8] }

theorem test_hyp_stp : MayGo (BSlice opStp) opStp ∧ opStp.kind = .stp ∧ opStp.data.length = opStp.width ∧ SliceHere (BSlice opStp) opStp :=
  ⟨by unfold MayGo; decide, rfl, rfl, sliceHere _ rfl rfl rfl⟩

/-- A scratch atomic, a compare-and-swap. -/
def opAts : Op := { opLds with kind := .ats 9, data := [0#8, 0#8, 0#8, 0#8, 7#8, 0#8, 0#8, 0#8] }

theorem test_hyp_ats : MayGo (BOp1 opAts) opAts ∧ OneLane (BOp1 opAts) opAts 0 (.v 1) ∧ ((BOp1 opAts).squad 2).scratchPoison = [] ∧
    leaves opAts 9 (((BOp1 opAts).squad 2).scratch.read opAts.addr opAts.width) = some [7#8, 0#8, 0#8, 0#8] :=
  ⟨goes _, ⟨by decide, by decide, by decide, by decide, by decide⟩, by decide, by decide⟩

/-- Each operation of R24 on one byte: what it leaves of 0xFE and 3; a compare-and-swap that fails leaves nothing. -/
theorem test_hyp_atomic_values : (List.range 10).map (fun code => atomicLeaves code 1 0xFE 3 9) =
    [some 1, some 0xFE, some 3, some 3, some 0xFE, some 2, some 0xFF, some 0xFD, some 3, none] := by decide

theorem test_hyp_sfil : MayGo (BOp1 { opSts with kind := .sfil 0x12345678#32 8 }) { opSts with kind := .sfil 0x12345678#32 8 } ∧ 8 % 4 = 0 :=
  ⟨goes _, rfl⟩

theorem test_hyp_sts : MayGo (BOp1 opSts) opSts ∧ opSts.kind = .sts := ⟨goes _, rfl⟩
theorem test_hyp_scpy : MayGo (BOp1 (opUni (.scpy 0 4))) (opUni (.scpy 0 4)) := goes _
theorem test_hyp_uniform_lands : MayGo (BOp1 (opUni .sldg)) (opUni .sldg) ∧ NoOwnStores (BOp1 (opUni .sldg)) (opUni .sldg) ∧
    (BOp1 (opUni .sldg)).mem.poisoned 0 4 = false := ⟨goes _, noStores _ (by decide) (fun k => by cases k <;> rfl), by decide⟩
theorem test_hyp_uniform_lands_scratch : MayGo (BOp1 (opUni .slds)) (opUni .slds) ∧ NoOwnStores (BOp1 (opUni .slds)) (opUni .slds) :=
  ⟨goes _, noStores _ (by decide) (fun k => by cases k <;> rfl)⟩

/-! #### Ports and elected operations -/

/-- An entry on its way to lane 31's die port. -/
def fl : PortFlight := { id := 9, crew := 3, lane := 31, port := .die, word := 5#32, fromCrew := 6, fromLane := 31 }

/-- The machine with it in flight, and a credit. -/
def BFlight : State := { B with flights := [fl], credits := [{ id := 8, crew := 3, lane := 31, port := .die, count := 1 }] }

theorem test_hyp_flight : BFlight.flights.find? (fun g => g.id == fl.id) = some fl ∧
    BFlight.flights.find? (fun g => g.crew == fl.crew && g.lane == fl.lane && g.port == fl.port) = some fl ∧ (BFlight.thread 3 31).st ≠ .exited ∧
    31 < (BFlight.crew 3).threads.length ∧ (BFlight.thread 3 31).ports.length = 5 ∧ ((BFlight.thread 3 31).port .die).peeks = [] ∧
    BFlight.mayArrive fl.id (BFlight.coreOf 6 / 12) (BFlight.coreOf 3 / 12) = true :=
  ⟨by decide, by decide, by decide, by decide, by decide, by decide, by decide⟩

theorem test_hyp_credit : ∃ f, BFlight.credits.find? (fun g => g.id == f.id) = some f := ⟨{ id := 8, crew := 3, lane := 31, port := .die, count := 1 }, by decide⟩

/-- The machine with a thread that has stood at a port word for 2^24 cycles. -/
def BWatch : State := BIdle.modThread 3 31 (fun t => { t with stall := some (.portEmpty [(1, 1)] none), watchdog := 2 ^ 24 })

theorem test_hyp_port_stall : BWatch.stallPort 3 31 = some 1 ∧ (BWatch.crew 3).resident = true ∧ (BWatch.thread 3 31).st = .running ∧
    2 ^ 24 ≤ (BWatch.thread 3 31).watchdog ∧ 31 < (BWatch.crew 3).threads.length ∧ 0 < (BWatch.core (BWatch.coreOf 3)).permits :=
  ⟨by decide, by decide, by decide, by decide, by decide, by decide⟩

theorem test_hyp_bisx : Waiting (BOp1 (opUni (.bisx 2 4 1#32 3#32 0#32 0#32))) (opUni (.bisx 2 4 1#32 3#32 0#32 0#32)) (.bisx 2 4 1#32 3#32 0#32 0#32) [159] :=
  ⟨(goes _).1, rfl, rfl, fun l h k hk => (noPeeks _ l h k hk).1⟩
theorem test_hyp_cpyst : Waiting (BOp1 (opUni .cpyst)) (opUni .cpyst) .cpyst [159] := ⟨(goes _).1, rfl, rfl, fun l h k hk => (noPeeks _ l h k hk).1⟩
theorem test_hyp_ftpoll : Waiting (BOp1 (opUni (.ftpoll 15))) (opUni (.ftpoll 15)) (.ftpoll 15) [159] := ⟨(goes _).1, rfl, rfl, fun l h k hk => (noPeeks _ l h k hk).1⟩

/-- The machine with a complete sweep at time 0 in table 3, one voxel in it, and an operation outstanding. -/
def BTable (o : Op) : State :=
  (BOp1 o).modCluster 0 (fun k => { k with tables := [{}, {}, {}, { bound := some 1, sweeps := [{ st := .complete }]
                                                                    entries := [{ ix := 0, iy := 0, iz := -1, sweep := 0, start := 4, count := 2 }] }] })

theorem test_hyp_cfind : (BTable (opUni (.cfind 3 0xFFFFF0000000000#64 0#64 (some 0)))).opAt 1 = some (opUni (.cfind 3 0xFFFFF0000000000#64 0#64 (some 0))) ∧
    (BTable (opUni (.cfind 3 0xFFFFF0000000000#64 0#64 (some 0)))).tableReady (opUni (.cfind 3 0xFFFFF0000000000#64 0#64 (some 0))) 3 = true ∧
    (((BTable opLoad).cluster 0).tables.getD 3 {}).bound = some 1 ∧ (((BTable opLoad).cluster 0).tables.getD 3 {}).sweepAt 0#64 = some 0 ∧
    (((((BTable opLoad).cluster 0).tables.getD 3 {}).sweeps[0]?).map Sweep.st = some .complete) ∧
    ((((BTable opLoad).cluster 0).tables.getD 3 {}).entries.find? (fun e => e.sweep == 0 && e.ix == ((0xFFFFF0000000000#64 : DWord).setWidth 20).toInt &&
      e.iy == ((0xFFFFF0000000000#64 : DWord) >>> 20 |>.setWidth 20).toInt && e.iz == ((0xFFFFF0000000000#64 : DWord) >>> 40 |>.setWidth 20).toInt)).isSome = true :=
  ⟨by decide, by decide, by decide, by decide, by decide, by decide⟩

theorem test_hyp_cclr : (BTable (opUni (.cclr 3))).opAt 1 = some (opUni (.cclr 3)) ∧ (BTable (opUni (.cclr 3))).tableReady (opUni (.cclr 3)) 3 = true ∧ 3 < ((BTable (opUni (.cclr 3))).cluster 0).tables.length ∧
    frontPast (((BTable (opUni (.cclr 3))).modCore 0 (fun k => { k with fronts := [(16, none)] })).front 0 1 0#4) 0#64 = true :=
  ⟨by decide, by decide, by decide, by decide⟩

/-! #### Engine jobs -/

/-- A job of lane 0 of the crew. -/
def jobOf (kind : JobKind) (matrix started : Bool) : Job :=
  { id := 1, core := 0, squad := 2, crew := 3, lanes := [0], flag := some 11, sd := some 159, pc := 4#64, stage := 0#4, time := 0#64, cap := 0
    kind := kind, matrix := matrix, started := started, readDone := started }

/-- The machine with one job. -/
def BJob (j : Job) : State := { BE tx2 [] with jobs := [j] }

theorem head_job (j : Job) (h : j.matrix = true) (h2 : j.core = 0) : HeadJob (BJob j) 0 j := by
  constructor
  · show List.find? _ [j] = some j
    simp [h, h2]
  · show List.find? _ [j] = some j
    simp

theorem test_hyp_matrix_start : HeadJob (BJob (jobOf (.mzero 15) true false)) 0 (jobOf (.mzero 15) true false) ∧
    ((BJob (jobOf (.mzero 15) true false)).core 0).engine.holder = some 2 ∧
    (BJob (jobOf (.mzero 15) true false)).issuerDone (jobOf (.mzero 15) true false) = true ∧
    (BJob (jobOf (.mzero 15) true false)).jobBlocked (jobOf (.mzero 15) true false) = false :=
  ⟨head_job _ rfl rfl, by decide, by decide, by decide⟩

theorem test_hyp_mzero_runs : HeadJob (BJob (jobOf (.mzero 15) true true)) 0 (jobOf (.mzero 15) true true) ∧ Runs (jobOf (.mzero 15) true true) :=
  ⟨head_job _ rfl rfl, by unfold Runs; decide⟩

theorem test_hyp_madd_runs : Runs (jobOf (.madd 15 true [(4095#32, 1#32)]) true true) ∧
    HeadJob (BJob (jobOf (.madd 15 true [(4095#32, 1#32)]) true true)) 0 (jobOf (.madd 15 true [(4095#32, 1#32)]) true true) :=
  ⟨by unfold Runs; decide, head_job _ rfl rfl⟩

/-- The same array in scratch, of a format. -/
def tensLoc (fmt : Nat) : Tensor := tens (BitVec.ofNat 32 (0x20 + fmt) :: rows8.drop 1)

/-- A block of one chunk of E4M3 elements, accumulating into tile 15 without CLR. -/
def mmaBlk : List Word := [0x044F0000#32, 0#32, 0#32, 1#32] ++ List.replicate 12 0#32

theorem test_hyp_mma_runs : HeadJob (BJob (jobOf (.mma mmaBlk (some (tensLoc 4)) (some (tensLoc 4)) none []) true true)) 0
      (jobOf (.mma mmaBlk (some (tensLoc 4)) (some (tensLoc 4)) none []) true true) ∧
    Runs (jobOf (.mma mmaBlk (some (tensLoc 4)) (some (tensLoc 4)) none []) true true) ∧ (tensLoc 4).glob = false ∧
    Clean (BJob (jobOf (.mzero 0) true true)) (jobOf (.mzero 0) true true) ∧ bKc mmaBlk ≤ 4096 ∧ bAcc mmaBlk = 15 ∧
    mmaClass (bAfmt mmaBlk) (bBfmt mmaBlk) = some ⟨16, 18, false, false⟩ :=
  ⟨head_job _ rfl rfl, by unfold Runs; decide, by decide, by unfold Clean; decide, by decide, by decide, by decide⟩

theorem test_hyp_mld_runs : HeadJob (BJob (jobOf (.mld mmaBlk (tensLoc 0)) true true)) 0 (jobOf (.mld mmaBlk (tensLoc 0)) true true) ∧
    Runs (jobOf (.mld mmaBlk (tensLoc 0)) true true) ∧ (tensLoc 0).glob = false := ⟨head_job _ rfl rfl, by unfold Runs; decide, by decide⟩

theorem test_hyp_mst_runs : HeadJob (BJob (jobOf (.mst mmaBlk (tensLoc 0)) true true)) 0 (jobOf (.mst mmaBlk (tensLoc 0)) true true) ∧
    Runs (jobOf (.mst mmaBlk (tensLoc 0)) true true) ∧ ((BJob (jobOf (.mst mmaBlk (tensLoc 0)) true true)).core 0).engine.accPoison = [] :=
  ⟨head_job _ rfl rfl, by unfold Runs; decide, by decide⟩

theorem test_hyp_mpred_runs : HeadJob (BJob (jobOf (.mpred 7 0#64) true true)) 0 (jobOf (.mpred 7 0#64) true true) ∧
    7 < ((BJob (jobOf (.mpred 7 0#64) true true)).core 0).engine.preds.length := ⟨head_job _ rfl rfl, by decide⟩

/-- The machine whose engine is to be released. -/
def BRelease : State :=
  BF.modCore 0 (fun k => { k with engine := { holder := some 2, release := [{ squad := 2, crew := 3, lanes := [0], sd := some 159, flag := some 11, order := 1 }] } })

theorem test_hyp_release : (BRelease.core 0).engine.holder = some 2 ∧ (BRelease.core 0).engine.release.length = 1 ∧ BRelease.jobs = [] ∧
    (BRelease.core 0).takes = [] := ⟨by decide, by decide, by decide, by decide⟩

theorem test_hyp_copy_start : (BJob (jobOf (.cpy false false 0 8 4096) false false)).job 1 = some (jobOf (.cpy false false 0 8 4096) false false) ∧
    (jobOf (.cpy false false 0 8 4096) false false).isCopy = true ∧
    (BJob (jobOf (.cpy false false 0 8 4096) false false)).issuerDone (jobOf (.cpy false false 0 8 4096) false false) = true ∧
    (BJob (jobOf (.cpy false false 0 8 4096) false false)).jobBlocked (jobOf (.cpy false false 0 8 4096) false false) = false :=
  ⟨by decide, by decide, by decide, by decide⟩

theorem test_hyp_copy_runs : Runs { jobOf (.cpy false false 0 4 8) false true with readDone := false } ∧
    (BJob { jobOf (.cpy false false 0 4 8) false true with readDone := false }).job 1 =
      some { jobOf (.cpy false false 0 4 8) false true with readDone := false } ∧
    ((BJob (jobOf (.cpy false false 0 4 8) false true)).squad 2).scratchPoison = [] := ⟨by unfold Runs; decide, by decide, by decide⟩

/-- A copy from global memory, before its reading. -/
def jCopyIn : Job := { jobOf (.cpy true false 0 4 8) false true with readDone := false }

theorem test_hyp_copy_in : (BJob jCopyIn).job 1 = some jCopyIn ∧ Runs jCopyIn ∧ Clean (BJob jCopyIn) jCopyIn ∧
    (∃ m s1, (BJob jCopyIn).openPages 0 ((BJob jCopyIn).spaceOfSquad 2) (pagesOf [⟨true, 0, 8, false⟩]) = (.ok m, s1)) :=
  ⟨by decide, by unfold Runs; decide, by unfold Clean; decide, _, _, by rfl⟩

/-- A copy to global memory, with what it has read to be written. -/
def jCopyOut : Job := { jobOf (.cpy false true 0 64 4) false true with cells := [{ addr := 64, mask := 0xFF#8, val := 5#8 }] }

theorem test_hyp_copy_out : (BJob jCopyOut).job 1 = some jCopyOut ∧ Runs jCopyOut ∧ jCopyOut.cells ≠ [] ∧ (∀ c ∈ jCopyOut.cells, c.mask = 0xFF#8) ∧
    ((BJob jCopyOut).part 0).events.log = 0#5 ∧
    (∃ m s1, (BJob jCopyOut).openPages 0 ((BJob jCopyOut).spaceOfSquad 2) (cellPages jCopyOut.cells) = (.ok m, s1)) :=
  ⟨by decide, by unfold Runs; decide, by decide, by decide, by decide, _, _, by rfl⟩

/-- A copy of a page that is not mapped. -/
def jCopyHeld : Job := { jobOf (.cpy true false (2 ^ 31) 4 8) false true with readDone := false }

theorem test_hyp_copy_held : (BJob jCopyHeld).job 1 = some jCopyHeld ∧ Runs jCopyHeld ∧
    (∃ a w s1, (BJob jCopyHeld).openPages 0 ((BJob jCopyHeld).spaceOfSquad 2) (pagesOf [⟨true, 2 ^ 31, 8, false⟩]) = (.error (a, w, .unmapped), s1)) :=
  ⟨by decide, by unfold Runs; decide, _, _, _, by rfl⟩

/-- A conversion between two scratch tensors. -/
def jCpyt : Job := { jobOf (.cpyt (tensLoc 0) (tensLoc 4) 0 0 false) false true with readDone := false }

theorem test_hyp_cpyt_runs : (BJob jCpyt).job 1 = some jCpyt ∧ Runs jCpyt ∧ (tensLoc 0).glob = false ∧ (tensLoc 4).glob = false :=
  ⟨by decide, by unfold Runs; decide, by decide, by decide⟩

theorem test_hyp_multicast : (BJob (jobOf (.cpym false 0 0 4 0x800 0 [(11, 2, 0)] 0) false true)).job 1 =
      some (jobOf (.cpym false 0 0 4 0x800 0 [(11, 2, 0)] 0) false true) ∧ Runs (jobOf (.cpym false 0 0 4 0x800 0 [(11, 2, 0)] 0) false true) ∧
    ((BJob (jobOf (.cpym false 0 0 4 0x800 0 [(11, 2, 0)] 0) false true)).squad 2).st ≠ .retired ∧
    (BJob (jobOf (.mzero 0) true true)).landing 1 0 0 0 4 = some 2 ∧ (BJob (jobOf (.mzero 0) true true)).landing 1 0 11 0 4 = none ∧
    ((BJob (jobOf (.mzero 0) true true)).squad 2).out = false :=
  ⟨by decide, by unfold Runs; decide, by decide, by decide, by decide, by decide⟩

/-- A build whose records stand on a page that is not mapped. -/
def jBuildHeld : Job :=
  { jobOf (.cins (List.replicate 5 0#32 ++ [1#32] ++ List.replicate 10 0#32) (tens (rows8.set 3 1#32)) (tensOf 0) (tensOf 0) 3 7 false) false true with readDone := false }

theorem test_hyp_build_held : (BJob jBuildHeld).job 1 = some jBuildHeld ∧ Runs jBuildHeld ∧ jBuildHeld.words = [] ∧
    (∃ a w s1, (BJob jBuildHeld).openPages 0 ((BJob jBuildHeld).spaceOfSquad 2) (pagesOf ((tens (rows8.set 3 1#32)).recordRanges 0 0)) =
      (.error (a, w, .unmapped), s1)) :=
  ⟨by decide, by unfold Runs; decide, by decide, _, _, _, by rfl⟩

theorem test_hyp_build : (BJob (jobOf (.cins [] (tensOf 0) (tensOf 0) (tensOf 0) 3 7 false) false true)).job 1 =
      some (jobOf (.cins [] (tensOf 0) (tensOf 0) (tensOf 0) 3 7 false) false true) ∧
    Runs (jobOf (.cins [] (tensOf 0) (tensOf 0) (tensOf 0) 3 7 false) false true) ∧
    ((((BJob (jobOf (.mzero 0) true true)).cluster 0).tables.getD 3 {}).sweeps[7]?).isSome = true ∧
    3 < ((BJob (jobOf (.mzero 0) true true)).cluster 0).tables.length := ⟨by decide, by unfold Runs; decide, by decide, by decide⟩

/-! #### Capabilities -/

/-- The machine with a capability of core 0 that is to be dropped, after writes numbered below `w`. -/
def BDropOf (d : Drop) : State :=
  { BPend.modCore 0 (fun k => { k with table := [(255, { launch := 1, stage := 0#4, time := 0#64, count := 1 })] }) with drops := [d] }

/-- The same for the drop of a job. -/
def BDrop (w : Nat) : State := BDropOf { id := 9, core := 0, entry := 255, squad := 2, before := 0, writes := w }

/-- The drop of a time word that is outstanding. -/
def dropOp : Drop := { id := 9, core := 0, entry := 255, squad := 2, before := 0, writes := 0, op := some 1 }

theorem test_hyp_drop_word : ({ BDropOf dropOp with ops := [opLoad] }).dropReady dropOp = true ∧ ({ BDropOf dropOp with ops := [opLoad] }).opAt 1 = some opLoad ∧
    (∀ l ∈ opLoad.lanes, ((BDrop 0).thread 3 l).peeks = []) := ⟨by decide, by decide, by decide⟩

/-- The drop of a capability that the image record counts. -/
def dropImage : Drop := { id := 9, core := 0, entry := 255, squad := 2, before := 0, writes := 0, image := some ⟨1, 0#4, 0#64, -1⟩ }

theorem test_hyp_drop_image : (BDropOf dropImage).dropReady dropImage = true ∧ ((BDropOf dropImage).launches.find 1).isSome = true ∧
    (((BDropOf dropImage).launch 1).counts.Pairwise (fun a b => ¬ (a.stage = b.stage ∧ a.time = b.time))) := ⟨by decide, by decide, by decide⟩

theorem test_hyp_drop : (BDrop 0).dropReady { id := 9, core := 0, entry := 255, squad := 2, before := 0, writes := 0 } = true ∧
    (((BDrop 0).core 0).table.find 255).isSome = true := ⟨by decide, by decide⟩

theorem test_hyp_drop_waits : (BDrop 1).dropReady { id := 9, core := 0, entry := 255, squad := 2, before := 0, writes := 1 } = false := by decide

/-- The machine with a hand-off from core 575 to core 0. -/
def BHand : State :=
  { B.modCore 575 (fun k => { k with table := [(255, { launch := 1, stage := 0#4, time := 0#64, count := 2 })] }) with
    handoffs := [{ id := 9, giver := 575, entry := 255, receiver := 0, launch := 1, stage := 0#4, time := 0#64 }] }

theorem test_hyp_handoff : (BHand.handoffs.find? (fun x => x.id == 9)).isSome = true ∧ (∀ r ∈ (BHand.core 0).reports, r.launch ≠ 1) ∧
    ((BHand.core 575).table.find 255).isSome = true := ⟨by decide, by decide, by decide⟩

/-- The machine with a report of core 0. -/
def BReport : State := B.modCore 0 (fun k => { k with reports := [⟨1, 15#4, 7#64, -1⟩] })

theorem test_hyp_report : (BReport.core 0).reports = [⟨1, 15#4, 7#64, -1⟩] ∧ (BReport.launches.find 1).isSome = true ∧
    ((BReport.launch 1).counts.Pairwise (fun a b => ¬ (a.stage = b.stage ∧ a.time = b.time))) := ⟨by decide, by decide, by decide⟩

/-- The machine of a launch whose last capability stands at time 7. -/
def BFront : State := B.modLaunch 1 (fun k => { k with counts := [⟨1, 0#4, 7#64, 1⟩] })

theorem test_hyp_front : (BFront.launches.find 1).isSome = true ∧ BFront.squadsHere 1 0 ≠ [] ∧ BFront.front 0 1 0#4 = some 0#64 ∧
    (BFront.launch 1).frontier 0#4 = some 7#64 := ⟨by decide, by decide, by decide, by decide⟩

theorem test_hyp_front_same : B.front 0 1 15#4 = none := by decide

/-! #### Pair launches at work -/

/-- A self pair launch on core 0. -/
def plSelf : PairLaunch := { pl with block := 4#32 :: List.replicate 15 0#32, sweep := some 0, cores := [{ core := 0, arrived := true }] }

/-- The machine with a pair launch on core 0 and in its Isthmus, a pair slot free, and table 3 with a complete sweep. -/
def BIs (p : PairLaunch) : State :=
  let s := { BF with pairLaunches := [(7, p)] }
  let s := s.modCore 0 (fun k => { k with isthmus := [7], reserves := [{ launch := 1, pair := [4], handler := [] }] })
  (s.modCluster 0 (fun k => { k with tables := [{}, {}, {}, { bound := some 1, sweeps := [{ st := .complete }] }] })).modLaunch 1
    (fun k => { k with pkt := { k.pkt with nImg := 2 } })

theorem test_hyp_enumerate : PairWork (BIs plSelf) 0 7 plSelf { core := 0, arrived := true } ∧ ((BIs plSelf).keptSlot 0 1 false).isSome = true ∧
    blk plSelf.block 0 2 1 = 1 ∧ (((BIs plSelf).cluster 0).tables.getD 3 {}).cellsOf 0 = [] ∧
    ((((BIs plSelf).cluster 0).tables.getD 3 {}).sweeps.getD 0 {}).ccount = 0 :=
  ⟨⟨⟨[], by decide⟩, by decide, by decide, by decide⟩, by decide, by decide, by decide, by decide⟩

/-- A pair launch on core 0 with one pair in a state. -/
def plWith (st : PairStage) : PairLaunch := { pl with cores := [{ core := 0, arrived := true, enumerated := true, pairs := [{ pr with st := st }] }] }

theorem test_hyp_pair_crew : PairWork (BIs (plWith .accepted)) 0 7 (plWith .accepted) { core := 0, arrived := true, enumerated := true, pairs := [{ pr with st := .accepted }] } ∧
    PairCore.nextPair { core := 0, arrived := true, enumerated := true, pairs := [{ pr with st := .accepted }] } = some 0 ∧
    (BIs (plWith .accepted)).keptSlot 0 1 false = some 4 ∧ ((BIs (plWith .accepted)).launch 1).freeFrame = some 1 :=
  ⟨⟨⟨[], by decide⟩, by decide, by decide, by decide⟩, by decide, by decide, by decide⟩

theorem test_hyp_pair_retire : ∀ st ∈ [PairStage.returned [], .killed],
    PairWork (BIs (plWith st)) 0 7 (plWith st) { core := 0, arrived := true, enumerated := true, pairs := [{ pr with st := st }] } := by
  intro st h
  simp only [List.mem_cons, List.not_mem_nil, or_false] at h
  rcases h with rfl | rfl <;> exact ⟨⟨[], by decide⟩, by decide, by decide, by decide⟩

/-- A half on its way to core 575. -/
def hf : Half := { id := 9, pairLaunch := 7, core := 0, place := 0, jcore := 575, j := 2, f := [0x3F800000#32], rows := [some 0] }

/-- The machine with a half, the accumulator's pages mapped at its core or not. -/
def BHalf (h : Half) (w : Bool) : State :=
  { (BIs (plWith .waiting)).modCore 575 (fun k => { k with tlb := [{ tlb0 with w := w }] }) with halves := [h] }

theorem test_hyp_half : (BHalf hf true).halves.find? (fun x => x.id == 9) = some hf ∧ (BHalf hf true).pairLaunches.find 7 = some (plWith .waiting) ∧
    ((BHalf hf true).openPages 575 ((BHalf hf true).spaceOfSquad 2) (pagesOf ((plWith .waiting).accq.rowRanges 2 1))).1.isOk = true ∧
    (plWith .waiting).accq.inRange [0, 2] = true ∧ (BHalf hf true).mayArrive 9 0 47 = true ∧ (BHalf hf true).mayAdd 575 = true ∧
    (∀ x ∈ (BHalf hf true).halves, x.jcore = 575 → x.answer = none → x.id ≠ 9 → x.arrived = false) :=
  ⟨by decide, by decide, by decide, by decide, by decide, by decide, by decide⟩

theorem test_hyp_half_denied : (match ((BHalf hf false).openPages 575 ((BHalf hf false).spaceOfSquad 2) (pagesOf ((plWith .waiting).accq.rowRanges 2 1))).1 with
    | .error (_, w, x) => w && decide (x = .denied)
    | .ok _ => false) = true := by decide

theorem test_hyp_acknowledge : (BHalf { hf with answer := some none } true).halves.find? (fun x => x.id == 9) = some { hf with answer := some none } ∧
    (BHalf hf true).mem.poisoned 0 4 = false ∧ (BHalf hf true).mayAdd 0 = true ∧
    (∀ x ∈ (BHalf { hf with answer := some none, answeredAt := 3 } true).halves, x.answer ≠ none → 3 ≤ x.answeredAt) :=
  ⟨by decide, by decide, by decide, by decide⟩

theorem test_hyp_plnch_done : (BIs (plWith .done)).pairLaunches.find 7 = some (plWith .done) ∧
    ((BIs (plWith .done)).modCore 0 (fun k => { k with isthmus := [] })).pairsOver 7 (plWith .done) = true := ⟨by decide, by decide⟩

/-! #### Traps -/

/-- The machine whose run is of lane 31, in its handler. -/
def BHandler : State := (BOne BF).modThread 3 31 (fun t => { t with inHandler := true, frec := { cause := 1#6 } })

theorem test_hyp_sret : RunsFit BHandler ∧ BHandler.issuer = some (xOf BHandler) ∧ LastWord (xOf BHandler) 1 ∧
    (∀ l ∈ (xOf BHandler).run.lanes, (BHandler.thread 3 l).inHandler = true) ∧
    ∃ s2, BHandler.sretFetch 3 (xOf BHandler).run.lanes = ([(31, [0#32])], none, [], s2) :=
  ⟨fits_of _ (by decide), by decide, by unfold LastWord; decide, by decide, _, by rfl⟩

theorem test_hyp_sret_not : ∃ l ∈ (xOf (BOne BF)).run.lanes, ((BOne BF).thread 3 l).inHandler = false := ⟨31, by decide, by decide⟩

/-- A cause that waits for delivery. -/
def pk : Parked := { cause := .trap, addr := 255#64 }

/-- The machine with lane 31 parked, its launch with a trap vector or without. -/
def BTrap (vec : DWord) : State :=
  let s := BIdle.modSquad 2 (fun q => { q with trapVec := vec })
  s.modThread 3 31 (fun t => { t with st := .parked, parked := some pk })

theorem test_hyp_delivery : Deliverable (BTrap 64#64) 3 31 pk (128 * 144 + 32 * 28) ∧ ((BTrap 64#64).thread 3 31).inHandler = false ∧
    ((BTrap 64#64).squadOf 3).trapVec ≠ 0#64 := by
  refine ⟨⟨by decide, by decide, by decide, by decide, by decide, by decide, ?_, ⟨128 * 144 + 32 * 31, by decide⟩, by decide⟩, by decide, by decide⟩
  intro m hm
  by_cases h : m < 32
  · have h2 : ∀ m < 32, m ≠ 31 → ((BTrap 64#64).thread 3 m).parked = none := by decide
    exact h2 m h hm
  · have h3 : ((BTrap 64#64).crew 3).threads.length = 32 := by decide
    have h4 : (BTrap 64#64).thread 3 m = {} := by
      show ((BTrap 64#64).crew 3).threads.getD m {} = {}
      rw [List.getD_eq_getElem?_getD, List.getElem?_eq_none (by omega)]
      rfl
    rw [h4]

theorem test_hyp_delivery_kill : ((BTrap 0#64).squadOf 3).trapVec = 0#64 ∧ ((BTrap 0#64).thread 3 31).pair = none := ⟨by decide, by decide⟩

/-- An access that is held, of lane 31. -/
def hd : Held :=
  { op := some { opLoad with lanes := [31], flag := none, addr := 2 ^ 30, pa := 0 }, fetch := false, write := false, addr := 0x40000000#64, after := 8#64, mid := false }

/-- The machine with lane 31 parked on a page and its walk under way, and a translation. -/
def BWalk (e : TlbEntry) : State :=
  { (BIdle.modThread 3 31 (fun t => { t with st := .parked, parked := some { cause := .pageFault, addr := 0x40000000#64, route := .walk }, held := some hd })).modCore 0
      (fun k => { k with tlb := [e], permits := 3 }) with walks := [(9, .lane 3 31)] }

theorem test_hyp_walk : Walking (BWalk { tlb0 with va := 2 ^ 30 }) 9 3 31 hd ∧
    ((BWalk { tlb0 with va := 2 ^ 30 }).access 0 ((BWalk tlb0).spaceOf 3) hd.addr.toNat hd.write hd.fetch).1 = .ok 0 :=
  ⟨⟨by decide, by decide, by decide, by decide⟩, by decide⟩

theorem test_hyp_walk_unmapped : Walking (BWalk tlb0) 9 3 31 hd ∧
    ((BWalk tlb0).access 0 ((BWalk tlb0).spaceOf 3) hd.addr.toNat hd.write hd.fetch).1 = .unmapped :=
  ⟨⟨by decide, by decide, by decide, by decide⟩, by decide⟩

theorem test_hyp_walk_denied :
    ((BWalk { tlb0 with va := 2 ^ 30, w := false }).access 0 ((BWalk tlb0).spaceOf 3) hd.addr.toNat true hd.fetch).1 = .denied := by decide

/-- A fault-list entry. -/
def le : ListEntry := { id := 9, launch := 1, core := 0, record := { cause := 1#6 }, time := 0#64, permit := some (3, 31) }

/-- The machine with an entry on its way to a list of a capacity. -/
def BList (list : DWord) (cap : Nat) : State :=
  { B.modLaunch 1 (fun k => { k with pkt := { k.pkt with flist := list, flCap := cap } }) with listEntries := [le] }

theorem test_hyp_list_none : (BList 0#64 0).listEntries.find? (fun x => x.id == 9) = some le ∧ ((BList 0#64 0).launch 1).pkt.flist = 0#64 := ⟨by decide, by decide⟩

theorem test_hyp_list_full : ((BList 4096#64 0).launch 1).pkt.flist ≠ 0#64 ∧ le.phase = .entry ∧ le.writeEnded = false ∧ le.writeHeld = false ∧
    ((BList 4096#64 0).launch 1).pkt.flCap ≤ ((BList 4096#64 0).launch 1).fcount := ⟨by decide, by decide, by decide, by decide, by decide⟩

theorem test_hyp_list : ((BList 4096#64 1).launch 1).fcount < ((BList 4096#64 1).launch 1).pkt.flCap ∧ (4096 + 128) % 65536 ≤ 65488 ∧
    ((BList 4096#64 1).access 0 0 4224 true false).1 = .ok 4224 := ⟨by decide, by decide, by decide⟩

/-- The words that follow an entry: COUNT at 0, OVER at 4, LOST of stage 15 at 0x7C. -/
theorem test_hyp_list_header : [ListPhase.count, .over_, .lost 15].map (headerWord ((BList 4096#64 1).launch 1)) = [[(0, 0)], [(4, 0)], [(0x7C, 0)]] ∧
    (4096 + 0x7C) % 65536 ≤ 65532 ∧ ((BList 4096#64 1).access 0 0 (4096 + 0x7C) true false).1 = .ok 0x107C := ⟨by decide, by decide, by decide⟩

/-- The machine with lane 31 in a `tlbi`. -/
def BTlbi : State := BIdle.modThread 3 31 (fun t => { t with stall := some (.tlbi 0 0 2 (some 159) 2 true) })

theorem test_hyp_tlbi : (BTlbi.thread 3 31).stall = some (.tlbi 0 0 2 (some 159) 2 true) ∧ (BTlbi.thread 3 31).st = .running ∧
    (∀ m < 32, m ≠ 31 → (BTlbi.thread 3 m).stall = none) ∧ 31 < (BTlbi.crew 3).threads.length := ⟨by decide, by decide, by decide, by decide⟩

/-- A task that failed. -/
def tk (word0 : Word) (effects : Bool) (fails : Nat) : Task :=
  { entry := { queue := 7, words := word0 :: List.replicate 7 0#32, cap := 0, fails := fails }, effects := effects, failed := true }

theorem test_hyp_task_again : (tk 0#32 false 2).failed = true ∧ ((tk 0#32 false 2).entry.idem = true ∨ (tk 0#32 false 2).effects = false) ∧
    (tk 0#32 false 2).entry.fails < 3 ∧
    ((BIdle.modCrew 3 (fun cr => { cr with tasks := [{ entry := (tk 0#32 false 2).entry }, tk 0#32 false 2] })).crew 3).tasks.filter Task.failed = [tk 0#32 false 2] :=
  ⟨by decide, by decide, by decide, by decide⟩

theorem test_hyp_task_over : ¬ (((tk 0#32 true 0).entry.idem = true ∨ (tk 0#32 true 0).effects = false) ∧ (tk 0#32 true 0).entry.fails < 3) ∧
    ¬ (((tk 0#32 false 3).entry.idem = true ∨ (tk 0#32 false 3).effects = false) ∧ (tk 0#32 false 3).entry.fails < 3) := ⟨by decide, by decide⟩

/-! #### Squads -/

/-- The machine with an unplaced squad of the launch in the range of core 1. -/
def BPlace : State :=
  let s := B.modLaunch 1 (fun k => { k with ranges := [(1, [7])], frames := [0], pkt := { k.pkt with nImg := 2 } })
  s.modSquad 7 (fun _ => { launch := 1, index := 1 })

theorem test_hyp_place : (BPlace.launch 1).headOn 1 = some 7 ∧ BPlace.firstIn 7 1 = true ∧ BPlace.room 1 1 = true ∧
    (BPlace.core 1).slots.length = 16 ∧ (BPlace.launch 1).freeFrame = some 1 ∧ (BPlace.ctInc 1 1 0#4 0#64).isSome = true :=
  ⟨by decide, by decide, by decide, by decide, by decide, by decide⟩

/-- The machine whose one crew has retired. -/
def BDone (persist : Bool) : State :=
  let s := BIdle.modLaunch 1 (fun k => { k with pkt := { k.pkt with persist := persist } })
  s.modCrew 3 (fun cr => { cr with retired := true, resident := false, threads := cr.threads.map (fun t => { t with st := .exited }) })

theorem test_hyp_retire : (BDone false).squadDone 2 = true ∧ ((BDone false).launch ((BDone false).squad 2).launch).pkt.persist = false :=
  ⟨by decide, by decide⟩

/-- The machine of a persistent launch with a second squad whose crew runs on. -/
def BStay : State := ((BDone true).modSquad 7 (fun _ => { launch := 1, index := 1, st := .resident, core := 1, crews := [8] })).setCrew 8 (loneCrew 7 [])

theorem test_hyp_retire_waits : (BStay.launch 1).pkt.persist = true ∧ (BStay.squad 2).kind = .ordinary ∧ (BStay.launch 1).ending = none ∧
    7 ∈ BStay.squadsOf 1 ∧ (BStay.squad 7).st ≠ .retired ∧ BStay.squadDone 7 = false := ⟨by decide, by decide, by decide, by decide, by decide, by decide⟩

theorem test_hyp_lines : (BIdle.crew 3).resident = true ∧ BIdle.victimAt (BIdle.coreOf 3) (BIdle.crew 3).slot = none := ⟨by decide, by decide⟩

/-- The machine whose slot 0 is evicting the crew, with one line to go. -/
def BEvict (ns : List Nat) : State :=
  let s := BIdle.modCrew 3 (fun cr => { cr with resident := false, evictable := ns })
  s.modCore 0 (fun k => { k with slots := k.slots.set 0 (.evicting 3) })

theorem test_hyp_evict : (BEvict [103]).victimAt 0 0 = some 3 ∧ ((BEvict [103]).crew 3).lineHeld = false ∧
    ((BEvict [103]).access 0 0 (128 * 103) true false).1 = .ok (128 * 103) ∧ ((BEvict [103]).core 0).slot 0 = .evicting 3 :=
  ⟨by decide, by decide, by decide, by decide⟩

theorem test_hyp_evict_unmapped : (((BEvict [103]).modCore 0 (fun k => { k with tlb := [] })).access 0 0 (128 * 103) true false).1 = .unmapped := by decide

/-- A space table at 0 whose space 0 maps its first GiB one to one. -/
def maps : Memory := [(1, 0x20#8), (0x2000, 1#8), (0x2001, 0x30#8), (0x3000, 1#8), (0x3001, 0x40#8), (0x4000, 0xF#8)]

/-- The machine whose crew's line 103 is away, with zeros in its image or a word that software wrote there. -/
def BAway (cells : Memory) : State :=
  let s := BIdle.modCrew 3 (fun cr => { cr with away := [(103, List.replicate 32 0#32)], threads := cr.threads.map (fun t => { t with stall := some (.regMiss [103]) }) })
  { s with mem := { s.mem with home := maps ++ cells } }

theorem test_hyp_line_as_written : (∀ n ∈ ((BAway []).crew 3).absent, ImageRead (BAway []) 3 n ∧ AsWritten (BAway []) 3 n) ∧
    WantsLine ((BAway []).crew 3) 103 := by
  have h : ((BAway []).crew 3).absent = [103] := by decide
  refine ⟨?_, ?_⟩
  · intro n hn
    rw [h] at hn
    obtain rfl : n = 103 := by simpa using hn
    exact ⟨⟨128 * 103, by decide⟩, List.replicate 32 0#32, by decide, Or.inr ⟨by decide, by decide⟩⟩
  · exact ⟨(BAway []).thread 3 0, by decide, by decide, [103], by decide, by decide⟩

theorem test_hyp_line_written_over : ((BAway [(128 * 103, 7#8)]).crew 3).missing = [103] ∧
    ((BAway [(128 * 103, 7#8)]).memLine 3 103).map (fun ws => ws.getD 0 0#32) = some 7#32 ∧
    ((BAway [(128 * 103, 7#8)]).crew 3).lineWords ((BAway [(128 * 103, 7#8)]).squad 2).image 103 = List.replicate 32 0#32 ∧
    ((BAway [(128 * 103, 7#8)]).crew 3).threads.length = 32 := ⟨by decide, by decide, by decide, by decide⟩

/-- A line that holds what was fetched, and of which no register has been written. -/
theorem test_hyp_evict_unwritten :
    ¬ WrittenSince (((BEvict [103]).modCrew 3 (fun cr => { cr with fetched := [(103, List.replicate 32 0#32)] })).crew 3) 103 (List.replicate 32 0#32) := by
  unfold WrittenSince; decide

/-- The machine whose squad is being stopped. -/
def BStop (out : Bool) : State := BIdle.modSquad 2 (fun q => { q with st := .stopping, out := out })

theorem test_hyp_save : (BStop false).canSave 2 = true := by decide
theorem test_hyp_hold_squad : (BStop true).canHold 2 = true := by decide

theorem test_hyp_save_piece : PieceAt ((BStop true).modSquad 2 (fun q => { q with pieces := [85] })) 2 85 (4096 * 85) ∧
    ((BStop true).modSquad 2 (fun q => { q with pieces := [85] })).unitBusy 2 0 = false ∧
    (((BStop true).modSquad 2 (fun q => { q with pieces := [85] })).squad 2).saveHeld = none :=
  ⟨⟨_, Prod.ext (by rfl) rfl⟩, by decide, by decide⟩
theorem test_hyp_preempt_idle : BIdle.canSave 2 = false ∧ BIdle.canHold 2 = false := ⟨by decide, by decide⟩

/-- The machine with a waiting squad of priority 1, on a cluster of which core 0 alone is in service and runs a squad of priority 0. -/
def BPrio : State :=
  let s := BIdle.modLaunch 9 (fun _ => { handle := 2#16, pkt := { prio := 1, nImg := 1, stMask := 1#16 }, bound := true, cohorts := [0] })
  let s := s.modSquad 10 (fun _ => { launch := 9 })
  let s := s.modCore 0 (fun k => { k with slots := .resident 3 :: List.replicate 15 (.retiring 99) })
  { s.modPart 0 (fun p => { p with hwPreempt := true }) with offline := (List.range 11).map (· + 1) }

theorem test_hyp_priority : BPrio.waiting 10 = true ∧ (BPrio.part (BPrio.launch (BPrio.squad 10).launch).part).hwPreempt = true ∧
    (∀ c ∈ BPrio.coresFor 10, BPrio.fits 10 c (BPrio.roomOf c) = false) ∧ BPrio.pickVictims 10 [] (BPrio.victims 10) = some (0, [2]) ∧
    BPrio.squads.keys.Pairwise (· < ·) := ⟨by decide, by decide, by decide, by decide, by decide⟩

/-- The machine whose squad is held as an image. -/
def BHeld : State :=
  let s := BIdle.modSquad 2 (fun q => { q with st := .held, out := true })
  (s.modCrew 3 (fun cr => { cr with resident := false })).modCore 0 (fun k => { k with slots := List.replicate 16 .free })

theorem test_hyp_restore : (BHeld.squad 2).st = .held ∧ BHeld.firstIn 2 0 = true ∧ (BHeld.restoreCaps 2 0).isSome = true ∧ (BHeld.squad 2).crews.Nodup :=
  ⟨by decide, by decide, by decide, by decide⟩

/-! #### Tasks, steals and messages -/

/-- A waiting pull of every queue. -/
def opPull : Op := opUni (.qpull 255)

/-- The held squad's image is mapped. -/
theorem test_hyp_restore_image : (({ BHeld with mem := { BHeld.mem with home := maps } } : State).memPieces 2 (List.range 85)).isSome = true ∧
    (({ BHeld with mem := { BHeld.mem with home := maps } } : State).memPieces 2 [85]).isSome = true := ⟨by decide, by decide⟩

/-- An entry of queue 7 that may be stolen. -/
def te : TaskEntry := { queue := 7, words := 2#32 :: List.replicate 7 0#32, cap := 0 }

/-- The machine with a pull, and entries in the squad's queues. -/
def BPull (ts : List TaskEntry) : State := { BTask ts with ops := [opPull] }

/-- Its one pull is the first of which anything holds. -/
theorem firstPull (s : State) (h : s.pullsOf 3 = [(opPull, 255)]) (p : Nat → Prop) (hp : p 255) : FirstPull s 3 opPull 255 p :=
  ⟨hp, [], [], h.trans rfl, by simp⟩

theorem test_hyp_pull : FirstPull (BPull [te]) 3 opPull 255 (fun m => (((BPull [te]).squadOf 3).ownTask m).isSome = true) ∧
    ((BPull [te]).squadOf 3).ownTask 255 = some te ∧ opPull.dest = .uni [159] ∧ ((BPull [te]).crew 3).resident = true :=
  ⟨firstPull _ (by decide) _ (by decide), by decide, by decide, by decide⟩

theorem test_hyp_quiescent : ((BPull []).launches.find 1).isSome = true ∧ (BPull []).quiescent 1 = true ∧ (BPull []).launchIdOf 3 = 1 ∧
    Waiting (BPull []) opPull (.qpull 255) [159] ∧ opPull ∈ (BPull []).ops :=
  ⟨by decide, by decide, by decide, by unfold Waiting; decide, by decide⟩

/-- The machine of a thief on core 0 and a victim on core 1 with an entry to steal. -/
def BThief (es : List TaskEntry) : State :=
  let s := (BPull []).modLaunch 1 (fun k => { k with pkt := { k.pkt with sqpc := 2 } })
  let s := s.modSquad 7 (fun _ => { launch := 1, index := 1, st := .resident, core := 1, crews := [8], tasks := es })
  s.setCrew 8 (loneCrew 7 [])

theorem test_hyp_steal_request : (BThief [{ te with words := 1#32 :: te.words.drop 1 }, te]).victimOf 2 255 = some 7 ∧
    ((BThief [te]).squadOf 3).st = .resident ∧ ((BThief [te]).crew 3).retired = false ∧ ((BThief [te]).squadOf 3).ownTask 255 = none ∧
    (BThief [te]).steals = [] ∧ FirstPull (BThief [te]) 3 opPull 255 (fun m => ((BThief [te]).squadOf 3).ownTask m = none ∧ (BThief [te]).victimOf 2 m = some 7) :=
  ⟨by decide, by decide, by decide, by decide, by decide, firstPull _ (by decide) _ ⟨by decide, by decide⟩⟩

/-- A steal of that entry. -/
def stl (ph : StealPhase) (e : Option TaskEntry) : Steal := { id := 9, crew := 3, victim := 7, entry := e, phase := ph, age := 65536, mask := 255 }

/-- The machine with the steal under way. -/
def BSteal (es : List TaskEntry) (x : Steal) : State := { BThief es with steals := [x] }

theorem test_hyp_steal_reply : Stealing (BSteal [te] (stl .requested none)) (stl .requested none) .requested ∧
    ((BSteal [te] (stl .requested none)).squad 7).st = .resident ∧ (((BSteal [te] (stl .requested none)).squad 7).stealable 255) = some te ∧ te.offer = none :=
  ⟨⟨by decide, rfl⟩, by decide, by decide, by decide⟩

theorem test_hyp_steal_acknowledge : Stealing (BSteal [{ te with offer := some 9 }] (stl .replied (some te))) (stl .replied (some te)) .replied ∧
    (BSteal [{ te with offer := some 9 }] (stl .replied (some te))).thiefThere (stl .replied (some te)) = true ∧
    (∃ y ∈ ((BSteal [{ te with offer := some 9 }] (stl .replied (some te))).squad 7).tasks, y.offer = some 9) ∧
    ((BSteal [{ te with offer := some 9 }] (stl .replied (some te))).passCap 1 0 1 te).isSome = true :=
  ⟨⟨by decide, rfl⟩, by decide, ⟨{ te with offer := some 9 }, by decide, by decide⟩, by decide⟩

theorem test_hyp_steal_reclaimed : Stealing (BSteal [te] { stl .replied (some te) with reclaimed := true }) { stl .replied (some te) with reclaimed := true } .replied :=
  ⟨by decide, rfl⟩
theorem test_hyp_steal_confirm : Stealing (BSteal [] (stl .confirmed (some te))) (stl .confirmed (some te)) .confirmed := ⟨by decide, rfl⟩
theorem test_hyp_steal_stale : Stealing (BSteal [te] (stl .stale (some te))) (stl .stale (some te)) .stale := ⟨by decide, rfl⟩
theorem test_hyp_steal_reclaim : 65536 ≤ (stl .replied (some te)).age ∧ (stl .replied (some te)).reclaimed = false := ⟨by decide, by decide⟩

theorem test_hyp_core_reset : (BThief [te]).squads.keys.Pairwise (· < ·) ∧ (BThief [te]).squadsOn 1 = [7] ∧
    ((BThief [te]).launches.find 1).isSome = true ∧ ((BThief [te]).launch 1).ending = none ∧ ((BThief [te]).launch 1).ended = false :=
  ⟨by decide, by decide, by decide, by decide, by decide⟩

/-- A message to core 0, of 48 bytes. -/
def msg (h : Nat) : Message :=
  { id := 9, launch := 1, target := 0, handler := h, payload := List.replicate 12 1#32, sender := 0#32, stage := 0#4, time := 0#64, core := 0, cap := 0 }

/-- The machine with it on its way, a handler slot, a frame and one handler. -/
def BMsg (m : Message) (q : List Nat) : State :=
  let s := BF.modLaunch 1 (fun k => { k with handlers := [{ pc := 64#64, msg := true, task := false, sunits := 0, hregs := 0 }], pkt := { k.pkt with nImg := 2 } })
  let s := s.modCore 0 (fun k => { k with reserves := [{ launch := 1, pair := [], handler := [15] }], messages := q })
  { s with messages := [m] }

theorem test_hyp_message : InFlight (BMsg (msg 0) (List.replicate 63 7)) (msg 0) ∧
    ((BMsg (msg 0) (List.replicate 63 7)).core 0).messages.length < 64 := ⟨by unfold InFlight; decide, by decide⟩

theorem test_hyp_message_full : 64 ≤ ((BMsg (msg 0) (List.replicate 64 7)).core 0).messages.length := by decide

theorem test_hyp_message_starts : ((BMsg { msg 0 with queued := true } [9]).core 0).messages = [9] ∧
    (BMsg { msg 0 with queued := true } [9]).keptSlot 0 1 true = some 15 ∧ ((BMsg { msg 0 with queued := true } [9]).launch 1).freeFrame = some 1 ∧
    (((BMsg { msg 0 with queued := true } [9]).launch 1).handlers[0]?).isSome = true ∧ (msg 0).payload.length ≤ 12 ∧
    ((BMsg { msg 0 with queued := true } [9]).core 0).slots.length = 16 := ⟨by decide, by decide, by decide, by decide, by decide, by decide⟩

/-! #### Launches and their submission -/

/-- A packet in the first queue of partition 0, at address 4096. -/
def sb : Submission := { id := 9, part := 0, queue := some 0, space := none, addr := 4096#64, sys := false, op := none }

/-- The machine with it submitted, and a packet of zeros there but for a few bytes. -/
def BSub (cells : Memory) : State := { State.reset with submissions := [sb], mem := { State.reset.mem with home := cells } }

/-- The least packet that keeps every rule, at address 4096: eight registers, one frame, stage 0. -/
def pkt1 : Memory := [(4098, 0x10#8), (4208, 1#8), (4214, 1#8)]

/-- The same, with a space table at 0 whose space 0 maps its first GiB one to one. -/
def pkt2 : Memory := (1, 0x20#8) :: pkt1 ++ [(0x2000, 1#8), (0x2001, 0x30#8), (0x3000, 1#8), (0x3001, 0x40#8), (0x4000, 0xF#8)]

/-- Why a packet at 4096 is refused, of a machine that has it submitted. -/
def refused (cells : Memory) : Nat :=
  let s := BSub cells
  let bs := (s.packetBytes sb).getD []
  s.refusal 0 (Packet.ofBytes bs) (packetReserved bs) false (s.readTables 0 (Packet.ofBytes bs))

theorem test_hyp_packet : (BSub pkt2).submissions.find? (fun v => v.id == 9) = some sb ∧ (BSub pkt2).submissionReady sb = true ∧
    ((BSub pkt2).packetBytes sb).isSome = true ∧ refused pkt2 = 0 := ⟨by decide, by decide, by decide, by decide⟩

theorem test_hyp_packet_refused : refused [] = 1 ∧ refused ((4096, 1#8) :: pkt1) = 1 ∧ refused pkt1 = 4 := ⟨by decide, by decide, by decide⟩

/-- The machine of a launch that is not bound. -/
def BUnbound : State := State.reset.modLaunch 1 (fun _ => { handle := 1#16, pkt := { regs := 8, nImg := 1, stMask := 1#16, sqpc := 2 } })

theorem test_hyp_bind : BUnbound.launchLive 1 = true ∧ (BUnbound.launch 1).bound = false ∧ BUnbound.bindCohorts 0 (BUnbound.launch 1).pkt = [0] :=
  ⟨by decide, by decide, by decide⟩
theorem test_hyp_bind_not : State.reset.launchLive 1 = false := by decide
theorem test_hyp_hand_down : ∃ (cores r : List Nat), cores ≠ [] ∧ r.length = 5 ∧ cores.length = 3 := ⟨[0, 1, 2], [1, 2, 3, 4, 5], by decide, by decide, by decide⟩

/-- The machine of a launch with five squads in the range of core 1, which has no room, and room on core 0 alone. -/
def BFive : State :=
  let s := BIdle.modLaunch 1 (fun k => { k with ranges := [(1, [11, 12, 13, 14, 15])], frames := [0], pkt := { k.pkt with nImg := 2 } })
  let s := s.modCore 1 (fun k => { k with slots := List.replicate 16 (.retiring 99) })
  { s with offline := (List.range 10).map (· + 2) }

theorem test_hyp_squad_steal : BFive.launchLive 1 = true ∧ (BFive.launch 1).cohorts.contains (0 / 12) = true ∧ BFive.canSteal 1 0 = true ∧
    (∀ c < 12, c ≠ 0 → BFive.canSteal 1 c = false) ∧ (∀ c < 12, (BFive.launch 1).headOn c = none ∨ BFive.room 1 c = false) ∧
    (BFive.launch 1).largest 0 = some (1, [11, 12, 13, 14, 15]) := ⟨by decide, by decide, by decide, by decide, by decide, by decide⟩

/-- The machine of a launch whose squads have all retired, with a completion record at an address. -/
def BOver (compl : DWord) : State :=
  let s := State.reset.modLaunch 1 (fun _ => { handle := 1#16, bound := true, cohorts := [0], startCap := false, pkt := { compl := compl } })
  s.modSquad 2 (fun _ => { launch := 1, st := .retired })

theorem test_hyp_end : (BOver 0#64).launchOver 1 = true ∧ NoEvents (BOver 0#64) 0 := ⟨by decide, by unfold NoEvents; decide⟩
theorem test_hyp_end_not : B.launchOver 1 = false := by decide
theorem test_hyp_end_held : (BOver 4096#64).launchOver 1 = true ∧ canonical 4096 = true ∧ (BOver 4096#64).pageTable 0 0 4096 = none := ⟨by decide, by decide, by decide⟩

theorem test_hyp_end_written : ((({ BOver 4096#64 with mem := { home := pkt2 } } : State).pageTable 0 0 4096).map TlbEntry.w) = some true := by decide

/-! #### Samples, the host and the module -/

/-- The machine with a samples ring of 16 records. -/
def BRing (wptr rptr : Word) : State := B.modPart 0 (fun p => { p with samples := { log := 4#5, wptr := wptr, rptr := rptr } })

theorem test_hyp_sample : (BRing 15#32 0#32).nextSampled 0 = some (0, 3) ∧ ((BRing 15#32 0#32).part 0).samples.log ≠ 0#5 ∧
    (((BRing 15#32 0#32).part 0).samples.wptr - ((BRing 15#32 0#32).part 0).samples.rptr).toNat ≠ 2 ^ ((BRing 15#32 0#32).part 0).samples.log.toNat :=
  ⟨by decide, by decide, by decide⟩
theorem test_hyp_sample_full : (((BRing 15#32 0xFFFFFFFF#32).part 0).samples.wptr - ((BRing 15#32 0xFFFFFFFF#32).part 0).samples.rptr).toNat = 2 ^ 4 ∧
    ((BRing 15#32 0xFFFFFFFF#32).part 0).counters.length = 10 := ⟨by decide, by decide⟩
theorem test_hyp_sample_none : State.reset.nextSampled 575 = none := by decide

/-- The machine of a SYS launch with a fault recorded in entry 7 of cluster 0, and a thread whose access it holds. -/
def BFault : State :=
  let e : FaultEntry := { w := false, x := false, e := false, count := 0, space := 0, core := 0, slot := 0, lane := 31, addr := 0x40000000#64, pc := 4#64 }
  (BWalk tlb0).modCluster 0 (fun k => { k with faults := List.replicate 7 none ++ [some e] })

theorem test_hyp_replay : State.reset.up = true ∧ State.reset.crewsIn 47 = [] ∧ State.reset.heldRecords 47 = [] := ⟨by decide, by decide, by decide⟩
theorem test_hyp_end_entry : BFault.up = true ∧ ((BFault.cluster 0).faults.getD (7#32 : Word).toNat none).isSome = true ∧ BFault.crews.keys.Pairwise (· < ·) ∧
    BFault.coreOf 3 / 12 = 0 ∧ (BFault.thread 3 31).held = some hd ∧ (0x40000000#64 : DWord).toNat / 65536 = hd.addr.toNat / 65536 :=
  ⟨by decide, by decide, by decide, by decide, by decide, by decide⟩
theorem test_hyp_end_entry_none : ((State.reset.cluster 47).faults.getD (7#32 : Word).toNat none) = none := by decide

theorem test_hyp_queue : QueueThere State.reset 0 7 := by unfold QueueThere; decide
theorem test_hyp_partition : PartThere State.reset 0 := by unfold PartThere; decide
theorem test_hyp_partition_last : PartThere { State.reset with split := .eight } 7 := by unfold PartThere; decide
theorem test_hyp_start : B.byHandle 0 1#16 = some 1 ∧ B.byHandle 0 2#16 = none := ⟨by decide, by decide⟩
theorem test_hyp_host_write : State.reset.up = true ∧ State.reset.mem.views.length = 4 := ⟨by decide, by decide⟩
theorem test_hyp_host_atomic : (8 : Nat) % 8 = 0 ∧ State.reset.mem.poisoned 8 8 = false := ⟨by decide, by decide⟩
theorem test_hyp_host_atomic_poisoned : { home := [], poison := [0] : GMem }.poisoned 120 8 = true := by decide
theorem test_hyp_power : State.reset.up = true ∧ (3000 : Nat) ≤ 3000 := ⟨by decide, by decide⟩
theorem test_hyp_throttle : State.reset.up = true ∧ (3 : Nat) < 4 := ⟨by decide, by decide⟩
theorem test_hyp_link : State.reset.powered = true ∧ (5 : Nat) < 6 ∧ (16 : Nat) ∈ [1, 2, 4, 8, 16] ∧ (128 : Nat) ∈ [2, 5, 8, 16, 32, 64, 128] ∧
    State.reset.links.length = 6 := ⟨by decide, by decide, by decide, by decide, by decide⟩
theorem test_hyp_gating : State.reset.up = true ∧ (575 : Nat) < 576 := ⟨by decide, by decide⟩
theorem test_hyp_attestation : ∃ nonce : List Byte, nonce.length = 32 ∧ { State.reset with attIndex := 65535 }.attIndex < 65536 := ⟨List.replicate 32 0#8, by decide, by decide⟩
theorem test_hyp_attestation_over : 65536 ≤ { State.reset with attIndex := 65536 }.attIndex := by decide
theorem test_hyp_scratch_error : (B.squads.find 2).isSome = true ∧ 4 * 1023 < (B.squad 2).allot := ⟨by decide, by decide⟩
theorem test_hyp_slice_error : (B.crews.find 3).isSome = true ∧ 31 < (B.crew 3).threads.length ∧ 511 < 512 := ⟨by decide, by decide, by decide⟩

/-! #### The machine as a whole -/

theorem test_hyp_step_event : (BSub [(0, 1#8)]).agenda = [] ∧ { State.reset with agenda := [.powerLoss] }.agenda = [.powerLoss] := ⟨by decide, by decide⟩
theorem test_hyp_step_word : (baseOf [0xF3A8A8A8#32]).agenda = [] ∧ (baseOf [0xF3A8A8A8#32]).issuer = some (xOf (baseOf [0xF3A8A8A8#32])) ∧
    RunsFit (baseOf [0xF3A8A8A8#32]) ∧ DecodesTo ((xOf (baseOf [0xF3A8A8A8#32])).run.words.drop (xOf (baseOf [0xF3A8A8A8#32])).run.idx) .brk 1 ∧
    ∃ t, exec .brk (baseOf [0xF3A8A8A8#32]) = .next t :=
  ⟨by decide, by decide, fits_of _ (by decide), ⟨_, rfl, rfl⟩, _, rfl⟩
theorem test_hyp_step_none : (baseOf [0xFFFFFFFF#32]).agenda = [] ∧ (baseOf [0xFFFFFFFF#32]).issuer = some (xOf (baseOf [0xFFFFFFFF#32])) ∧
    ∃ e, decodeWords ((xOf (baseOf [0xFFFFFFFF#32])).run.words.drop (xOf (baseOf [0xFFFFFFFF#32])).run.idx) = .error e := ⟨by decide, by decide, _, rfl⟩
theorem test_hyp_step_idle : State.reset.agenda = [] ∧ State.reset.issuer = none := ⟨by decide, by decide⟩
theorem test_hyp_encode : Instr.wf .brk = true ∧ Instr.isWord .brk = true ∧ DecodesTo (encode .brk) .brk 1 := ⟨by decide, by decide, _, rfl, rfl⟩
theorem test_hyp_memory_canonical : MemoryCanonical B ∧ ∃ t, step B = .next t := ⟨by unfold MemoryCanonical; decide, _, rfl⟩
theorem test_hyp_local_canonical : LocalCanonical B := by unfold LocalCanonical; decide
theorem test_hyp_shapes : Shapes B := by unfold Shapes; decide
theorem test_hyp_views : ViewsFollow B := by
  have hm : B.mem = {} := by decide
  unfold ViewsFollow
  rw [hm]
  refine ⟨rfl, List.Pairwise.nil, (by intro w h; cases h), fun d a hd => ⟨fun _ => ?_, (by intro w h; cases h)⟩⟩
  have h4 : d = 0 ∨ d = 1 ∨ d = 2 ∨ d = 3 := by omega
  rcases h4 with rfl | rfl | rfl | rfl <;> rfl
theorem test_hyp_words_leave : Instr.isWord .bar = true ∧ ∃ t, exec .bar B = .next t := ⟨by decide, _, rfl⟩

/-! ### Values that spec/ works out -/

/-- R76, its table. -/
theorem test_shifts : shlW 1#32 31#32 = 0x80000000#32 ∧ shlW 1#32 32#32 = 0#32 ∧ shrW 0xFFFFFFFF#32 0xFFFFFFFF#32 = 0#32 ∧
    sarW 0x80000000#32 40#32 = 0xFFFFFFFF#32 ∧ rotlW 0x80000001#32 33#32 = 3#32 := by decide

/-- R77, its example. -/
theorem test_bfe : bfeUW 0xDEADBEEF#32 0x804#32 = 0xEE#32 ∧ bfeSW 0xDEADBEEF#32 0x804#32 = 0xFFFFFFEE#32 ∧
    bfiW 0xAB#32 0x804#32 0#32 = 0xAB0#32 := by decide

/-- R78, its example. -/
theorem test_prmt : prmtW 0x44332211#32 0x3F40#32 0x88776655#32 = 0x44FF5511#32 := by decide

/-- R79, its table. -/
theorem test_division : udivW 0x80000000#32 0xFFFFFFFF#32 = 0#32 ∧ uremW 0x80000000#32 0xFFFFFFFF#32 = 0x80000000#32 ∧
    sdivW 0x80000000#32 0xFFFFFFFF#32 = 0x80000000#32 ∧ sremW 0x80000000#32 0xFFFFFFFF#32 = 0#32 ∧ udivW 0xFFFFFFF9#32 2#32 = 0x7FFFFFFC#32 ∧
    uremW 0xFFFFFFF9#32 2#32 = 1#32 ∧ sdivW 0xFFFFFFF9#32 2#32 = 0xFFFFFFFD#32 ∧ sremW 0xFFFFFFF9#32 2#32 = 0xFFFFFFFF#32 := by decide

/-- R80, its multiply-add. -/
theorem test_mulw : mulWideU 0xFFFFFFFF#32 2#32 = 0x1FFFFFFFE#64 ∧ (0x1FFFFFFFE#64 : DWord) + 3#64 = 0x200000001#64 := by decide

/-- R92, its table: conversion to B8. -/
theorem test_to_b8 : (convert 8 .rne false (fval 0x3DE00000#32)).1 = 0x20 ∧ (convert 8 .rne false (fval 0x40533333#32)).1 = 0x35 ∧
    (convert 8 .rne false (fval 0xC5C00000#32)).1 = 0x87 ∧ (convert 8 .rne false (fval 0x469C4000#32)).1 = 1 ∧
    (convert 8 .rne true (fval 0x469C4000#32)).1 = 0x80 ∧ (convert 8 .rne false (fval 0x38000000#32)).1 = 0 := by decide

/-- R94: 300.0 becomes 0x79 in E4M3. -/
theorem test_to_e4m3 : (convert 4 .rne false (fval 0x43960000#32)).1 = 0x79 := by decide

/-- R98, its chunk of four E4M3 products, with NX. -/
theorem test_fdp4 : fdp4 4 0x09085858#32 0xA808D858#32 0#32 = (0xBB800000#32, 1#5) := by decide

/-- R104: a quiet NaN is unordered with everything, and no comparison for equality is invalid. -/
theorem test_unordered : f32Un 0x7FC00000#32 0#32 = (1#32, 0#5) ∧ (f32Lt 0x7FC00000#32 0#32).2 = 0x10#5 := by decide

/-- R105: the classes of -infinity, +0, the least subnormal and a quiet NaN. -/
theorem test_class : f32Class 0xFF800000#32 = 1#32 ∧ f32Class 0#32 = 16#32 ∧ f32Class 1#32 = 32#32 ∧ f32Class 0x7FC00000#32 = 512#32 := by decide

/-! ### Further states that meet the hypotheses of statements -/

/-- A pair launch whose records of 16 bytes at 65,528 go on in the next page. -/
def plCross : PairLaunch := { pl with q := tens (rows8.set 2 65448#32) }

theorem test_hyp_pair_load_crosses :
    (xOf (BPair plCross)).run.lanes.map (pairAddr (BPair plCross) (xOf (BPair plCross)) 16 true (.imm 48)) = [some 65528] ∧
    (opened (xOf (BPair plCross)) false (BPair plCross) (recordPages 16 [65528])).map Prod.fst = some [65528, 65536] ∧
    recordOps 16 [65528] [65528, 65536] = [(65528, 65528, some (8, 65536))] := ⟨by decide, by decide, by decide⟩

theorem test_hyp_prefetch_operand : srcOk (B.regsOf 3) 2 false (.v 103) = false := by decide

/-- A session that is still loading. -/
def zLoading : Session := { squad := 2, owners := [{ code := 31, start := 5#32, length := 2 ^ 32 - 1 }] }

theorem test_hyp_xdeal_seals : RunsFit (BSession zLoading) ∧ (BSession zLoading).issuer = some (xOf (BSession zLoading)) ∧
    (BSession zLoading).sessionOf 2 = some zLoading ∧ zLoading.sealed = false ∧ ((BSession zLoading).squad 2).savedSession = none ∧
    (sealedSession (BSession zLoading) 2 zLoading).ranks = [31] ∧ (sealedSession (BSession zLoading) 2 zLoading).total = 2 ^ 32 - 1 :=
  ⟨BSession_fits _, by decide, by decide, by decide, by decide, by decide, by decide⟩

/-- The machine with an entry to pull whose time no capability of the squad has, in a count table without room. -/
def BNoRoom : State :=
  ((BTask [te]).modSquad 2 (fun q => { q with caps := [] })).modCore 0 (fun k => { k with
    table := (List.range 256).map (fun i => (i, { launch := 9, stage := 0#4, time := 0#64, count := 1 })) })

theorem test_hyp_qpull_no_room : ((BNoRoom.squad 2).ownTask 255).isSome = true ∧ BNoRoom.capAt 2 (te.stage, te.time) = false ∧
    BNoRoom.ctRoom 0 1 te.stage te.time = false := ⟨by decide, by decide, by decide⟩

theorem test_hyp_pull_room : (∃ k ∈ ((BPull [te]).squadOf 3).caps, k.stage = te.stage ∧ k.time = te.time) ∨
    ((BPull [te]).capAt ((BPull [te]).crew 3).squad (te.stage, te.time) = false ∧
      (BPull [te]).ctRoom ((BPull [te]).coreOf 3) ((BPull [te]).launchIdOf 3) te.stage te.time = true) := by decide

/-- A fault recorded in entry 7 of a cluster's buffer. -/
def fe : FaultEntry :=
  { w := false, x := false, e := false, count := 0, space := 0, core := 0, slot := 0, lane := 31, addr := 0x40000000#64, pc := 4#64 }

/-- The machine of a SYS launch with it, a thread that it holds, and a job. -/
def BEnd : State :=
  let s := (BSys { faults := List.replicate 7 none ++ [some fe] }).modThread 3 30 (fun t => { t with held := some hd, st := .parked })
  { s with jobs := [{ jobOf (.mzero 0) true true with fault := some (0x4000FFFF#64, false) }] }

theorem test_hyp_end_valid : BEnd.systemAllowed 3 = true ∧ ((xOf BEnd).cr.readU (.const 7)).toNat = 7 ∧ (BEnd.cluster 0).faults.getD 7 none = some fe ∧
    (3, BEnd.crew 3) ∈ BEnd.crews ∧ (BEnd.thread 3 30).held = some hd ∧ hd.addr.toNat / 65536 = fe.addr.toNat / 65536 ∧
    (∀ j ∈ BEnd.jobs, ∃ f, j.fault = some f ∧ j.core / 12 = 0 ∧ f.1.toNat / 65536 = fe.addr.toNat / 65536) :=
  ⟨by decide, by decide, by decide, by decide, by decide, by decide, by
    intro j hj
    rw [show BEnd.jobs = [{ jobOf (.mzero 0) true true with fault := some (0x4000FFFF#64, false) }] by rfl] at hj
    obtain rfl := List.mem_singleton.mp hj
    exact ⟨(0x4000FFFF#64, false), rfl, by decide, by decide⟩⟩

/-- A scratch copy with a word to read and none to write, and one with a word to write. -/
theorem test_hyp_words_left : MayGo (BOp1 (opUni (.moves [(0, 4092)] []))) (opUni (.moves [(0, 4092)] [])) ∧
    WordsLeft (opUni (.moves [(0, 4092)] [])) [(0, 4092)] [] ∧
    WordsLeft (opUni (.moves [] [{ addr := 4092, val := 1#32, bad := true }])) [] [{ addr := 4092, val := 1#32, bad := true }] ∧
    WordsLeft (opUni (.scpy 4 8)) [(4, 0), (8, 4)] [] ∧ WordsLeft { opSts with kind := .sfil 7#32 4 } [] [{ addr := 0, val := 7#32, bad := false }] :=
  ⟨goes _, .rest _ _ rfl, .rest _ _ rfl, .copy 4 8 rfl, .fill 7#32 4 rfl⟩

/-- R253: one sweep and one entry of it reclaimed, and the table unbound. -/
theorem test_clear_status : reclaimed ((BTable opLoad).modCore 0 (fun k => { k with fronts := [(16, none)] })) 0 1 (((BTable opLoad).cluster 0).tables.getD 3 {}) = [0] ∧
    clearStatus (((BTable opLoad).cluster 0).tables.getD 3 {}) [0] = 0xC0000011#32 := ⟨by decide, by decide⟩

/-- A multicast that has begun to land in squad 2 for core 0. -/
def jBegun : Job :=
  { jobOf (.cpym false 0 0 8 1 0 [(0, 2, 0)] 0) false true with unlanded := [(0, 2, [{ addr := 4, mask := 0xFF#8, val := 5#8 }])] }

theorem test_hyp_receiver : receiver (BJob jBegun) jBegun 0 0 8 = some (2, [{ addr := 4, mask := 0xFF#8, val := 5#8 }]) ∧
    receiver ((BJob jBegun).modSquad 2 (fun q => { q with st := .retired })) jBegun 0 0 8 = none ∧ ((BJob jBegun).squad 2).out = false :=
  ⟨by decide, by decide, by decide⟩

/-- The machine with increments of core 1 that are not acknowledged, and a drop after them. -/
def BUnacked : State := { BDrop 0 with unacked := [{ id := 8, core := 1, launch := 1, left := 1 }] }

theorem test_hyp_unacked : BUnacked.unacked ≠ [] ∧ BUnacked.dropLaunch { id := 9, core := 0, entry := 255, squad := 2, before := 0, writes := 0 } = some 1 :=
  ⟨by decide, by decide⟩

/-- The machine with an announcement under way to core 0. -/
def BAnnounce : State := BFront.modCore 0 (fun k => { k with announces := [{ launch := 1, stage := 0#4, front := some 7#64 }] })

theorem test_hyp_announce : (BAnnounce.core 0).announces = [{ launch := 1, stage := 0#4, front := some 7#64 }] ∧
    BAnnounce.sent 0 1 0#4 = some 7#64 ∧ BFront.sent 0 1 0#4 = some 0#64 ∧ B.sent 0 1 15#4 = none := ⟨by decide, by decide, by decide, by decide⟩

/-- A pair core with one pair packed. -/
def pkd : PairCore := { core := 0, arrived := true, enumerated := true, pairs := [{ pr with st := .accepted }] }

theorem test_hyp_pair_crew_waits : pkd.packed = 1 ∧ (((BIs (plWith .accepted)).core 0).clock - pkd.packedAt).toNat < 64 ∧
    64 ≤ ((((BIs (plWith .accepted)).modCore 0 (fun k => { k with clock := 64#64 })).core 0).clock - pkd.packedAt).toNat :=
  ⟨by decide, by decide, by decide⟩

/-- The machine with a squad of priority 1 in the range of core 1 as well. -/
def BOver1 : State :=
  let s := BPlace.modLaunch 9 (fun _ => { handle := 2#16, pkt := { prio := 1, nImg := 1, stMask := 1#16 }, bound := true, cohorts := [0], ranges := [(1, [10])] })
  s.modSquad 10 (fun _ => { launch := 9 })

theorem test_hyp_place_later : (BOver1.core 1).claim = none ∧ (BOver1.launches.find 9).isSome = true ∧ BOver1.nextFor 9 1 = some 10 ∧
    (BOver1.launch (BOver1.squad 10).launch).pkt.prio = 1 ∧ (BOver1.launch (BOver1.squad 7).launch).pkt.prio = 0 :=
  ⟨by decide, by decide, by decide, by decide, by decide⟩

/-- The machine in hardware fault mode, with the fault-service crew of core 0. -/
def BService : State := (State.reset.modPart 0 (fun p => { p with hwFault := true })).startService 0

theorem test_hyp_service : BService.serviceCrew 0 = some 3 ∧ BService.coreOf 3 = 0 ∧ BService.partOfCore 0 = 0 := ⟨by decide, by decide, by decide⟩

/-- The same machine, its crew's threads having exited. -/
def BServiceOver : State :=
  (BService.modCrew 3 (fun cr => { cr with retired := true, threads := cr.threads.map (fun t => { t with st := .exited }) })).modCore 0
    (fun k => { k with slots := k.slots.set 15 (.retiring 3) })

theorem test_hyp_service_retires : BServiceOver.squadDone 2 = true ∧ (BServiceOver.launch (BServiceOver.squad 2).launch).pkt.persist = false ∧
    (BServiceOver.squad 2).kind = .service ∧ 2 < BServiceOver.nextId ∧ (BServiceOver.part (BServiceOver.partOfCore 0)).hwFault = true ∧
    0 ∉ BServiceOver.offline ∧ 3 ∈ (BServiceOver.squad 2).crews ∧ (BServiceOver.core 0).slots.length = 16 ∧ (BServiceOver.core 0).slot 15 = .retiring 3 :=
  ⟨by decide, by decide, by decide, by decide, by decide, by decide, by decide, by decide, by decide⟩

/-- A request for an attestation that waits for its signature. -/
theorem test_hyp_attestation_pending : ∃ a rest, ({ B with attPending := [{ nonce := [], digest := 0#256, rom := 0#32, layout := B.split, spares := [], key := 0 }] } : State).attPending = a :: rest ∧
    a.key < 65536 := ⟨_, _, rfl, by decide⟩

/-- R320: the digest of nothing begins 46 B9 DD 2B (FIPS 202's example of SHAKE256). -/
theorem test_shake : (shake256 []).take 4 = [0x46#8, 0xB9#8, 0xDD#8, 0x2B#8] := by decide

/-! #### Where memory words stop, and what their accesses meet -/

/-- `BF` with that done to the run's clause header, mode and flags. -/
def BAt (hw : Word) (mode : Word) (n : BitVec 4) : State :=
  (BF.modCrew 3 (fun cr => { cr with mode := mode, run := cr.run.map (fun r => { r with hword := some hw }) })).modThreads 3 (List.range 32)
    (fun l t => if l == 31 then { t with flags := t.flags.put 11 n } else t)

/-- An operand that is no legal pair, for a load of 8 bytes; and a load in a clause whose header names no flag. -/
theorem test_hyp_memory_illegal : ∃ i m, MemWord i m ∧ m.ok (BF.regsOf 3) = false := ⟨_, _, .ldgB64 false (.v 103) (.v 0) 0#3 (.units 0#6), by decide⟩

theorem test_hyp_memory_no_flag : ∃ i m, MemWord i m ∧ RunsFit (BAt 0xFF00#32 0#32 0#4) ∧ (BAt 0xFF00#32 0#32 0#4).issuer = some (xOf (BAt 0xFF00#32 0#32 0#4)) ∧
    m.ok ((BAt 0xFF00#32 0#32 0#4).regsOf 3) = true ∧ m.needFlag = true ∧ m.flag (xOf (BAt 0xFF00#32 0#32 0#4)) = none :=
  ⟨_, _, .ldgB32 false (.v 103) (.v 0) 0#3 (.units 0#6), fits_of _ (by decide), by decide, by decide, by decide, by decide⟩

theorem test_hyp_memory_absent : ∃ i m, MemWord i m ∧ RunsFit (flagged BAbsent) ∧ (flagged BAbsent).issuer = some (xOf (flagged BAbsent)) ∧
    m.ok ((flagged BAbsent).regsOf 3) = true ∧ (m.flag (xOf (flagged BAbsent))).isSome = true ∧ ¬ LinesHere (xOf (flagged BAbsent)) m.lines :=
  ⟨_, _, .ldgB32 false (.v 103) (.v 0) 0#3 (.units 0#6), fits_of _ (by decide), by decide, by decide, by decide, by unfold LinesHere; decide⟩

theorem test_hyp_memory_flag_full : ∃ i m, MemWord i m ∧ RunsFit (BAt 0xBA00#32 0#32 15#4) ∧ (BAt 0xBA00#32 0#32 15#4).issuer = some (xOf (BAt 0xBA00#32 0#32 15#4)) ∧
    m.ok ((BAt 0xBA00#32 0#32 15#4).regsOf 3) = true ∧ m.flag (xOf (BAt 0xBA00#32 0#32 15#4)) = some 11 ∧ LinesHere (xOf (BAt 0xBA00#32 0#32 15#4)) m.lines ∧
    ∃ l ∈ (xOf (BAt 0xBA00#32 0#32 15#4)).run.lanes, ((BAt 0xBA00#32 0#32 15#4).thread 3 l).flags.get 11 = 15#4 :=
  ⟨_, _, .ldgB32 false (.v 103) (.v 0) 0#3 (.units 0#6), fits_of _ (by decide), by decide, by decide, by decide, by unfold LinesHere; decide,
    31, by decide, by decide⟩

theorem test_hyp_memory_uniform_check : ∃ i m, MemWord i m ∧ RunsFit (BAt 0xBA00#32 1#32 0#4) ∧ (BAt 0xBA00#32 1#32 0#4).issuer = some (xOf (BAt 0xBA00#32 1#32 0#4)) ∧
    m.ok ((BAt 0xBA00#32 1#32 0#4).regsOf 3) = true ∧ LinesHere (xOf (BAt 0xBA00#32 1#32 0#4)) m.lines ∧ ¬ m.SameRun (xOf (BAt 0xBA00#32 1#32 0#4)) :=
  ⟨_, _, .stsB32 true .lid .zero (.units 0#6), fits_of _ (by decide), by decide, by decide, by unfold LinesHere; decide,
    by unfold Access.SameRun; decide⟩

/-- `BF` with the vector registers of every lane set so, the register pair at v100 being a global address. -/
def BBase (lo hi : Word) : State := BF.modThreads 3 (List.range 32) (fun _ t => { t with v := (t.v.put 100 lo).put 101 hi })

/-- Which of the four an access meets. -/
def meetCode : Meets → Nat
  | .misaligned => 0
  | .denied => 1
  | .unmapped => 2
  | .starts _ => 3

/-- A run that meets `k` at lane 31 in a memory word that is ready. -/
def ReadyToMeet (s : State) (k : Nat) : Prop :=
  ∃ i m, MemWord i m ∧ RunsFit s ∧ s.issuer = some (xOf s) ∧ m.Ready s (xOf s) ∧ m.d.noPort = true ∧ meetCode (m.meets (xOf s) s 31).1 = k

theorem readyToMeet {s : State} {i : Instr} {m : Access} {k : Nat} (hm : MemWord i m)
    (h : RunsFit s ∧ s.issuer = some (xOf s) ∧ m.ok (s.regsOf (xOf s).c) = true ∧ (m.flag (xOf s)).isSome = true ∧ LinesHere (xOf s) m.lines ∧
      (∀ l ∈ (xOf s).run.lanes, (s.thread (xOf s).c l).flags = []) ∧ m.u = false ∧ m.d.noPort = true) (hk : meetCode (m.meets (xOf s) s 31).1 = k) :
    ReadyToMeet s k := by
  obtain ⟨hf, hi, ho, hs, hl, hn, hu, hd⟩ := h
  refine ⟨i, m, hm, hf, hi, ⟨ho, fun _ => hs, hl, fun l hm f _ => ?_, fun h => by rw [hu] at h; cases h⟩, hd, hk⟩
  rw [hn l hm]
  show (0#4 : BitVec 4) ≠ 15#4
  decide

theorem test_hyp_memory_misaligned : ReadyToMeet (BBase 0x1002#32 0#32) 0 :=
  readyToMeet (.ldgB32 false (.v 0) (.v 100) 0#3 (.units 0#6))
    ⟨fits_of _ (by decide), by decide, by decide, by decide, by unfold LinesHere; decide, by decide, rfl, by decide⟩ (by decide)

/-- A global address that is not canonical, and a store to a page that may not be written. -/
theorem test_hyp_memory_denied : ReadyToMeet (BBase 0#32 0x01000000#32) 1 ∧
    ReadyToMeet ((BBase 0x1000#32 0#32).modCore 0 (fun k => { k with tlb := [{ tlb0 with w := false }] })) 1 :=
  ⟨readyToMeet (.ldgB32 false (.v 0) (.v 100) 0#3 (.units 0#6))
      ⟨fits_of _ (by decide), by decide, by decide, by decide, by unfold LinesHere; decide, by decide, rfl, by decide⟩ (by decide),
    readyToMeet (.stgB32 false (.v 0) (.v 100) 0#3 (.units 0#6))
      ⟨fits_of _ (by decide), by decide, by decide, by decide, by unfold LinesHere; decide, by decide, rfl, by decide⟩ (by decide)⟩

/-- Local addresses: one that ends one word beyond the allotment, one below zero, and one whose sum passes 2^32. -/
theorem test_hyp_memory_local_denied : ReadyToMeet (BBase 4096#32 0#32) 1 ∧ ReadyToMeet (BBase 0#32 0#32) 1 ∧ ReadyToMeet (BBase 0xFFFFFFFC#32 0#32) 1 :=
  ⟨readyToMeet (.stsB32 false (.v 0) (.v 100) (.units 0#6))
      ⟨fits_of _ (by decide), by decide, by decide, by decide, by unfold LinesHere; decide, by decide, rfl, by decide⟩ (by decide),
    readyToMeet (.ldsB32 false (.v 0) (.v 100) (.units 63#6))
      ⟨fits_of _ (by decide), by decide, by decide, by decide, by unfold LinesHere; decide, by decide, rfl, by decide⟩ (by decide),
    readyToMeet (.ldsB32 false (.v 0) (.v 100) (.units 1#6))
      ⟨fits_of _ (by decide), by decide, by decide, by decide, by unfold LinesHere; decide, by decide, rfl, by decide⟩ (by decide)⟩

theorem test_hyp_memory_unmapped : ReadyToMeet (BBase 0x40000000#32 0#32) 2 :=
  readyToMeet (.ldgB32 false (.v 0) (.v 100) 0#3 (.units 0#6))
    ⟨fits_of _ (by decide), by decide, by decide, by decide, by unfold LinesHere; decide, by decide, rfl, by decide⟩ (by decide)

/-- The last words of the page and of the allotment. -/
theorem test_hyp_memory_starts : ReadyToMeet (BBase 0x3FFFFFFC#32 0#32) 3 ∧ ReadyToMeet (BBase 4092#32 0#32) 3 :=
  ⟨readyToMeet (.ldgB32 false (.v 0) (.v 100) 0#3 (.units 0#6))
      ⟨fits_of _ (by decide), by decide, by decide, by decide, by unfold LinesHere; decide, by decide, rfl, by decide⟩ (by decide),
    readyToMeet (.stsB32 false (.v 0) (.v 100) (.units 0#6))
      ⟨fits_of _ (by decide), by decide, by decide, by decide, by unfold LinesHere; decide, by decide, rfl, by decide⟩ (by decide)⟩

/-- All accesses of a word start. -/
def allStart (outs : List (List Nat × Meets)) : Bool := outs.all (fun o => meetCode o.2 == 3)

/-- Data from a queue, for the greatest aligned store; and a load into a port of a neighbour. -/
theorem test_hyp_memory_ports : (∃ i m, MemWord i m ∧ m.d = .port .west ∧ m.write = true ∧ m.ok ((flagged BWest).regsOf 3) = true ∧
      allStart (m.allMeet (xOf (flagged BWest)) (flagged BWest) (m.groups (xOf (flagged BWest)))).1 = true ∧
      PortsGo (flagged BWest) (xOf (flagged BWest)) [.west] none) ∧
    ∃ i m, MemWord i m ∧ m.d = .port .north ∧ m.write = false ∧ m.ok ((flagged BNorth).regsOf 3) = true ∧
      allStart (m.allMeet (xOf (flagged BNorth)) (flagged BNorth) (m.groups (xOf (flagged BNorth)))).1 = true ∧
      PortsGo (flagged BNorth) (xOf (flagged BNorth)) [] (some .north) :=
  ⟨⟨_, _, .stgB32 false (.port .west) (.v 0) 0#3 (.units 0#6), by decide, by decide, by decide, by decide, by unfold PortsGo; decide⟩,
    _, _, .ldgB32 false (.port .north) (.v 0) 0#3 (.units 0#6), by decide, by decide, by decide, by decide, by unfold PortsGo; decide⟩

/-! #### Expand: free registers, an open iteration -/

theorem test_hyp_terms_free : WritesFree (BOpen 1) 3 31 (.v 103) := ⟨by decide, by decide⟩

theorem test_hyp_xdeal_open : (BOpen 2).sessionOf 2 = some { squad := 2, sealed := true, owners := [xo], ranks := [31], total := 3 } ∧
    ∃ l ∈ (xOf (BOpen 2)).run.lanes, ((BOpen 2).thread 3 l).xopen ≠ none := ⟨by decide, 31, by decide, by decide⟩

/-! #### Ports that have no room -/

theorem test_hyp_port_lands : ((BFlight.thread 3 31).port .die).queue.length < 8 := by decide

theorem test_hyp_port_full : 8 ≤ (((BFlight.modThread 3 31 (fun t => t.modPort .die (fun p => { p with queue := List.replicate 8 0#32 }))).thread 3 31).port .die).queue.length := by
  decide

/-! #### An enumeration that accepts a pair -/

/-- The core's part of `plSelf`, nothing enumerated. -/
def kSelf : PairCore := { core := 0, arrived := true }

/-- `BIs` of a launch whose sweep has one cell of records 1 and 2, their numbers at 4,096, in the given state. -/
def BEnum (p : PairLaunch) (st : SweepState) : State :=
  let s := (BIs p).modCluster 0 (fun k => { k with tables := [{}, {}, {},
    { bound := some 1, sweeps := [{ st := st, obase := 4096#64 }], entries := [{ ix := 0, iy := 0, iz := 0, sweep := 0, start := 0, count := 2 }] }] })
  { s with mem := { s.mem with home := [(4096, 1#8), (4100, 2#8)], views := List.replicate 4 [(4096, 1#8), (4100, 2#8)] } }

theorem BEnum_translated (p : PairLaunch) (st : SweepState) : Translated (BEnum p st) 0 0 [(0, 0)] := by
  intro q hq a ha
  obtain rfl : q = (0, 0) := by simpa using hq
  have h : ((BEnum p st).core 0).tlb = [tlb0] := rfl
  have ha : a < 65536 := by simpa [Nat.div_eq_zero_iff] using ha
  have hm : a % 2 ^ 57 = a := Nat.mod_eq_of_lt (Nat.lt_trans ha (by decide))
  have hc : tlb0.covers 0 a = true := by
    unfold TlbEntry.covers tlb0
    rw [decide_eq_true_iff, hm]
    exact ⟨rfl, Nat.zero_le _, Nat.lt_trans ha (by decide)⟩
  refine ⟨?_, tlb0, by rw [h]; simp [hc], ?_⟩
  · unfold canonical
    rw [decide_eq_true_iff, Nat.mod_eq_of_lt (Nat.lt_trans ha (by decide))]
    exact Or.inl (Nat.div_eq_of_lt (Nat.lt_trans ha (by decide)))
  · unfold TlbEntry.phys tlb0
    rw [hm, Nat.mod_eq_of_lt ha]
    simp

theorem test_hyp_pair_enumeration : PairWork (BEnum plSelf .complete) 0 7 plSelf kSelf ∧ ((BEnum plSelf .complete).keptSlot 0 1 false).isSome = true ∧
    (blk plSelf.block 0 2 1 = 1 → plSelf.q = plSelf.p) ∧ (BEnum plSelf .complete).mem.poison = [] ∧ ((BEnum plSelf .complete).squad 2).scratchPoison = [] ∧
    Translated (BEnum plSelf .complete) 0 ((BEnum plSelf .complete).spaceOfSquad 2) [(0, 0)] ∧
    Covers (BEnum plSelf .complete) ((BEnum plSelf .complete).jobMem 0 2 [(0, 0)]) plSelf 0 [(0, 0)] :=
  ⟨⟨⟨[], by decide⟩, by decide, by decide, by decide⟩, by decide, by decide, by decide, by decide, BEnum_translated _ _, by unfold Covers; decide⟩

/-- Record 1 gives the pair (1, 2), and record 2 none. -/
theorem test_hyp_pair_accepted : ((left kSelf (pairCands (BEnum plSelf .complete) ((BEnum plSelf .complete).jobMem 0 2 [(0, 0)]) plSelf 0)).filterMap
    (pairOf ((BEnum plSelf .complete).jobMem 0 2 [(0, 0)]) plSelf { st := .complete, obase := 4096#64 })).map (fun x => (x.i, x.j)) = [(1, 2)] := by decide

/-- So does the machine: it lists that pair, and the enumeration is over (R257). -/
theorem test_pair_enumeration : (match exec (.pairEnumerationStart 0) (BEnum plSelf .complete) with
    | .next t => (t.pairLaunches.find 7).map (fun p => ((p.part 0).pairs.map (fun x => (x.i, x.j)), (p.part 0).enumerated))
    | _ => none) = some ([(1, 2)], true) := by decide

theorem test_hyp_pair_building : PairWork (BEnum { plSelf with sweep := none } .building) 0 7 { plSelf with sweep := none } kSelf ∧
    (((BEnum plSelf .building).cluster 0).tables.getD 3 {}).sweepAt (Word.pair (plSelf.block.getD 6 0#32) (plSelf.block.getD 7 0#32)) = some 0 :=
  ⟨⟨⟨[], by decide⟩, by decide, by decide, by decide⟩, by decide⟩

/-! #### A pair that returned a component -/

/-- Where its other record's owner is. -/
def plRet (jcore : Nat) : PairLaunch :=
  { pl with cores := [{ core := 0, arrived := true, enumerated := true, pairs := [{ pr with st := .returned [0x3F800000#32], jcore := jcore }] }] }

/-- What the rows' pages answer: 0 translated, 1 denied, 2 unmapped. -/
def openCode (s : State) (rs : List Range) : Nat :=
  match (s.openPages 0 (s.spaceOfSquad 2) (pagesOf rs)).1 with
  | .ok _ => 0
  | .error (_, _, .denied) => 1
  | .error (_, _, _) => 2

/-- Its rows. -/
def rowsOf (p : PairLaunch) : List Range := p.accp.rowRanges 1 1 ++ p.accq.rowRanges 2 1

theorem test_hyp_pair_returned : (∀ jc ∈ [0, 575], PairWork (BIs (plRet jc)) 0 7 (plRet jc)
      { core := 0, arrived := true, enumerated := true, pairs := [{ pr with st := .returned [0x3F800000#32], jcore := jc }] } ∧ (BIs (plRet jc)).mayAdd 0 = true) ∧
    openCode (BIs (plRet 0)) (rowsOf pl) = 0 ∧ openCode (BIs (plRet 575)) (pl.accp.rowRanges 1 1) = 0 ∧
    openCode ((BIs (plRet 0)).modCore 0 (fun k => { k with tlb := [{ tlb0 with w := false }] })) (rowsOf pl) = 1 ∧
    openCode ((BIs (plRet 0)).modCore 0 (fun k => { k with tlb := [] })) (rowsOf pl) = 2 := by
  refine ⟨?_, by decide, by decide, by decide, by decide⟩
  intro jc h
  simp only [List.mem_cons, List.not_mem_nil, or_false] at h
  rcases h with rfl | rfl <;> exact ⟨⟨⟨[], by decide⟩, by decide, by decide, by decide⟩, by decide⟩

/-! #### Walks of counted accesses and fetches, failed tasks -/

/-- The machine with lane 31 parked on a page with that held, its page mapped. -/
def BWalkOf (h : Held) : State :=
  (BWalk { tlb0 with va := 2 ^ 30 }).modThread 3 31 (fun t => { t with held := some h })

/-- The access counts on flag 11; and a clause fetch. -/
theorem test_hyp_walk_counted : (∀ h ∈ [{ hd with op := some { opLoad with lanes := [31], flag := some 11, addr := 2 ^ 30, pa := 0 } }, { hd with op := none, fetch := true }],
    Walking (BWalkOf h) 9 3 31 h ∧ ∃ pa s2, (BWalkOf h).access 0 ((BWalkOf h).spaceOf 3) h.addr.toNat h.write h.fetch = (.ok pa, s2)) ∧
    opLoad.crew = 3 := by
  refine ⟨?_, by decide⟩
  intro h hh
  simp only [List.mem_cons, List.not_mem_nil, or_false] at hh
  rcases hh with rfl | rfl <;> exact ⟨⟨by decide, by decide, by decide, by decide⟩, 0, _, Prod.ext (by decide) rfl⟩

/-- A failed task alone, of time 7, whose capability is its own or the squad's. -/
def tkAt (own : Bool) : Task :=
  { entry := { queue := 7, words := [0#32, 7#32] ++ List.replicate 6 0#32, cap := 0 }, failed := true, own := own }

/-- The squad with a capability for that time at entry 1, and the crew with lane 31 at a time. -/
def BFailed (own : Bool) (time : DWord) : State :=
  ((BIdle.modSquad 2 (fun q => { q with caps := [{ stage := 0#4, time := 7#64, entry := 1 }] })).modCrew 3 (fun cr => { cr with tasks := [tkAt own] })).modThread 3 31
    (fun t => { t with time := time })

theorem test_hyp_task_own : ((BFailed true 0#64).crew 3).tasks.filter Task.failed = [tkAt true] ∧ (tkAt true).own = true := ⟨by decide, by decide⟩

theorem test_hyp_task_squads : ((BFailed false 0#64).crew 3).tasks.filter Task.failed = [tkAt false] ∧ (tkAt false).own = false ∧
    ((BFailed false 0#64).squads.find 2).isSome = true ∧ ¬ HeldBeside (BFailed false 0#64) 3 (tkAt false) := by
  refine ⟨by decide, by decide, by decide, ?_⟩
  unfold HeldBeside
  rw [show ((BFailed false 0#64).squad ((BFailed false 0#64).crew 3).squad).crews = [3] by decide]
  rintro ⟨d, hd, h⟩
  obtain rfl : d = 3 := by simpa using hd
  rcases h with ⟨u, hu, h⟩ | ⟨o, ho, -⟩
  · have : ∀ u ∈ ((BFailed false 0#64).crew 3).threads, ¬ (u.st ≠ .exited ∧ u.freed = false ∧ u.stage = (tkAt false).entry.stage ∧ u.time = (tkAt false).entry.time) := by
      decide
    exact this u hu h
  · have : ((BFailed false 0#64).crew 3).tasks.filter (fun k => !k.failed) = [] := by decide
    rw [if_pos rfl, this] at ho
    cases ho

/-- Lane 31 stands at the task's time, so a second capability is taken: with room in the count table, and with none. -/
theorem test_hyp_task_beside : HeldBeside (BFailed false 7#64) 3 (tkAt false) ∧ ((BFailed false 7#64).squad 2).out = false ∧
    ((BFailed false 7#64).ctInc 0 1 0#4 7#64).isSome = true ∧
    (((BFailed false 7#64).modCore 0 (fun k => { k with
      table := (List.range 256).map (fun i => (i, { launch := 9, stage := 0#4, time := 0#64, count := 1 })) })).ctInc 0 1 0#4 7#64).isSome = false :=
  ⟨⟨3, by decide, Or.inl ⟨(BFailed false 7#64).thread 3 31, by decide, by decide, by decide, by decide, by decide⟩⟩, by decide, by decide, by decide⟩

/-! #### Why a message is dropped, and a packet refused -/

/-- A handler beyond NHAND drops a message, as does a target that runs no squad of the launch, or holds no slots. -/
theorem test_hyp_message_dropped : Dropped (BMsg (msg 1) []) (msg 1) ∧ Dropped (BMsg (msg 0) []) { msg 0 with target := 1 } ∧
    Dropped ((BMsg (msg 0) []).modCore 0 (fun k => { k with reserves := [] })) (msg 0) ∧
    Dropped ((BMsg (msg 0) []).modLaunch 1 (fun k => { k with handlers := [{ pc := 64#64, msg := false, task := true, sunits := 0, hregs := 0 }] })) (msg 0) :=
  ⟨Or.inr (Or.inr (Or.inl (by decide))), Or.inl (by decide), Or.inr (Or.inl (by decide)), Or.inr (Or.inr (Or.inr (by decide)))⟩

theorem test_hyp_message_kept : ¬ Dropped (BMsg (msg 0) (List.replicate 63 7)) (msg 0) := by
  rintro (h | h | h | h)
  · have : ¬ ∀ q ∈ (BMsg (msg 0) (List.replicate 63 7)).squads, ¬ (q.2.launch = (msg 0).launch ∧ q.2.core = (msg 0).target ∧ (q.2.st = .resident ∨ q.2.st = .stopping)) := by
      decide
    exact this h
  · exact absurd (h { launch := 1, pair := [], handler := [15] } (by decide)) (by decide)
  · exact absurd h (by decide)
  · exact absurd h (by decide)

/-- The packet of `BSub`. -/
def bsOf (cells : Memory) : List Byte := ((BSub cells).packetBytes sb).getD []

/-- A packet that asks for two islands, one with more initial words than the scratch has bytes, and one whose tensor's descriptor is all zeros. -/
def pktTwo : Memory := [(1, 0x20#8), (4098, 0x10#8), (4101, 1#8), (4208, 1#8), (4214, 1#8), (0x2000, 1#8), (0x2001, 0x30#8), (0x3000, 1#8), (0x3001, 0x40#8), (0x4000, 0xF#8)]
def pktLong : Memory := [(1, 0x20#8), (4098, 0x10#8), (4200, 4#8), (4208, 1#8), (4214, 1#8), (0x2000, 1#8), (0x2001, 0x30#8), (0x3000, 1#8), (0x3001, 0x40#8), (0x4000, 0xF#8)]
def pktTensor : Memory := [(1, 0x20#8), (4098, 0x10#8), (4152, 1#8), (4208, 1#8), (4214, 1#8), (0x2000, 1#8), (0x2001, 0x30#8), (0x3000, 1#8), (0x3001, 0x40#8), (0x4000, 0xF#8)]

/-- A packet refused for each reason. -/
theorem test_hyp_refused : RefusedFor (BSub ((4096, 1#8) :: pkt1)) sb (bsOf ((4096, 1#8) :: pkt1)) 1 ∧ RefusedFor (BSub []) sb (bsOf []) 1 ∧
    RefusedFor { BSub pktTwo with split := .eight } sb (bsOf pktTwo) 2 ∧ RefusedFor (BSub pktLong) sb (bsOf pktLong) 3 ∧
    RefusedFor (BSub pkt1) sb (bsOf pkt1) 4 ∧ RefusedFor (BSub pktTensor) sb (bsOf pktTensor) 5 :=
  ⟨Or.inl (by decide), Or.inr (Or.inl (by decide)), by simp only [RefusedFor]; decide, by simp only [RefusedFor]; decide,
    Or.inr (Or.inr (Or.inr (Or.inr (Or.inr (Or.inl (by decide)))))), ((BSub pktTensor).readTables 0 (Packet.ofBytes (bsOf pktTensor))).tx.getD [], 0, by decide, by decide, Or.inl (by decide)⟩

/-- One that is refused for none. -/
theorem test_hyp_accepted : ∀ r, ¬ RefusedFor (BSub pkt2) sb (bsOf pkt2) r := by
  intro r h
  match r with
  | 0 => exact h
  | 1 =>
    rcases h with h | h | ⟨hs, i, -, h, -⟩ | ⟨ds, k, -, h, -⟩ | ⟨ws, a, b, h, n, -⟩
    · exact absurd h (by decide)
    · exact absurd h (by decide)
    · have h : i < bitsOf (byteField (bsOf pkt2) 0x70 4) 16 16 := h
      rw [show bitsOf (byteField (bsOf pkt2) 0x70 4) 16 16 = 0 by decide] at h
      exact absurd h (by omega)
    · exact absurd h (by rw [show ((List.range 64).filter (fun k => (byteField (bsOf pkt2) 0x38 8).testBit k)).length = 0 by decide]; omega)
    · rw [show ((BSub pkt2).readTables sb.part (Packet.ofBytes (bsOf pkt2))).sums = some [] by decide] at h
      exact n (by simpa using h.symm)
  | 2 => simp only [RefusedFor] at h; exact absurd h (by decide)
  | 3 => simp only [RefusedFor] at h; exact absurd h (by decide)
  | 4 => simp only [RefusedFor] at h; exact absurd h (by decide)
  | 5 =>
    obtain ⟨ds, k, -, h, -⟩ := h
    exact absurd h (by rw [show ((List.range 64).filter (fun k => (byteField (bsOf pkt2) 0x38 8).testBit k)).length = 0 by decide]; omega)
  | n + 6 => exact h

/-! #### Waits without a descriptor, pulls at a time that the squad holds -/

/-- `BF` with all sixteen wait descriptors in use. -/
def BWaits : State := BF.modCrew 3 (fun cr => { cr with waits := List.replicate 16 { stage := 0, time := 7#64, flag := 11, lanes := [0] } })

theorem test_hyp_ftwait_full : RunsFit BWaits ∧ BWaits.issuer = some (xOf BWaits) ∧ (BWaits.launchOf 3).declares 0#4 = true ∧
    FlagRoom BWaits (xOf BWaits) (some 11) ∧ 16 ≤ (xOf BWaits).cr.waits.length :=
  ⟨fits_of _ (by decide), by decide, by decide, room_of _ _ (by decide) _, by decide⟩

theorem test_hyp_pull_held : (∃ k ∈ (((BPull [te]).modSquad 2 (fun q => { q with caps := [{ stage := 0#4, time := 0#64, entry := 5 }] })).squadOf 3).caps,
      k.stage = te.stage ∧ k.time = te.time) ∧
    ¬ ∃ k ∈ (((BPull [te]).modSquad 2 (fun q => { q with caps := [] })).squadOf 3).caps, k.stage = te.stage ∧ k.time = te.time := by decide

end Sys2Proof.Tests
end

section
/-! PROOF. The synchronous lane words that name no port: what a lane's result makes of its thread, and that every such word gives its
lanes their results and leaves everything else (R30, R31, R34, R74, R80, R96). -/

namespace Sys2Proof.Claim

open Sys2Proof.Machine

/-! ### A lane's result, register by register -/

/-- The registers of a pair or a quad that starts inside its file lie inside it: the file is a multiple of them (R31). -/
theorem add_le_of_dvd_of_lt {r w m : Nat} (hr : w ∣ r) (hm : w ∣ m) (h : r < m) : r + w ≤ m := by
  obtain ⟨i, rfl⟩ := hr
  obtain ⟨j, rfl⟩ := hm
  exact Nat.mul_le_mul_left w (Nat.lt_of_mul_lt_mul_left h)

/-- A register of the file reads the same in two threads whose files are the same. -/
theorem readW_congr {t t' : Thread} (hv : t.v = t'.v) (ho : t.o = t'.o) (hp : t.p = t'.p) (l : Nat) {y : LOp}
    (hy : isFile y = true) : t.readW l y = t'.readW l y := by
  cases y with
  | v k => exact congrArg (·.get k.val) hv
  | o k => exact congrArg (·.get k.val) ho
  | p k => exact congrArg (fun p => Word.ofBool (p.getLsbD k.val)) hp
  | q0 | q1 | pt | lid | port | zero => cases hy

/-- What every register of the file reads after words were written to a destination that may take as many. -/
theorem readW_writeWs {regs : Nat} {u : Bool} {d : LOp} {ws : List Word} (hd : dstOk regs ws.length u d = true)
    (hw : ws.length ∣ 8) (t : Thread) (l : Nat) {y : LOp} (hy : isFile y = true) :
    (t.writeWs d ws).readW l y = regAfter d ws t l y := by
  obtain ⟨hv, ho, hp⟩ := Thread.writeWs_other t d ws
  cases y with
  | v k =>
    cases d with
    | v r =>
      have hr : r.val % ws.length = 0 ∧ r.val + ws.length ≤ regs := of_decide_eq_true hd
      exact Thread.writeWs_v t r.val r.isLt ws
        (add_le_of_dvd_of_lt (Nat.dvd_of_mod_eq_zero hr.1) (Nat.dvd_trans hw (by decide)) r.isLt) k.val
    | _ => exact congrArg (·.get k.val) (hv nofun)
  | o k =>
    cases d with
    | o r =>
      have hr : r.val % ws.length = 0 := of_decide_eq_true hd
      exact Thread.writeWs_o t r.val r.isLt ws (add_le_of_dvd_of_lt (Nat.dvd_of_mod_eq_zero hr) hw r.isLt) k.val
    | _ => exact congrArg (·.get k.val) (ho nofun)
  | p k =>
    cases d with
    | p r =>
      obtain ⟨w, rfl⟩ := List.length_eq_one_iff.mp (of_decide_eq_true hd)
      simpa [regAfter, Thread.writeWs] using Thread.readW_writeW_p t l r k w
    | _ => exact congrArg (fun p => Word.ofBool (p.getLsbD k.val)) (hp nofun)
  | q0 | q1 | pt | lid | port | zero => cases hy

/-- A lane's result changes the register files, `q0` and `q1`, the flags and the notes of written lines (R30, R96). -/
theorem result_frame (t : Thread) (d : LOp) (ws : List Word) (fl : BitVec 5) :
    t.result d ws fl = { t with
      v := (t.result d ws fl).v, o := (t.result d ws fl).o, p := (t.result d ws fl).p, wrote := (t.result d ws fl).wrote
      q0 := ws.headD 0#32, q1 := t.q0, fflags := t.fflags ||| fl } :=
  Thread.writeWs_frame ((t.orFlags fl).moveQ (ws.headD 0#32)) d ws

/-- A lane that gets its result and moves on has the result that the statements describe. -/
theorem resultOf_result {regs : Nat} {u : Bool} {d : LOp} {ws : List Word} (hd : dstOk regs ws.length u d = true)
    (hw : ws.length ∣ 8) (x : Issuer) (n : Nat) (fl : BitVec 5) (l : Nat) (t : Thread) :
    ResultOf x n d ws fl l t (x.run.movedThread n (t.result d ws fl)) := by
  refine ⟨?_, fun y hy => ?_⟩
  · rw [result_frame]
    rfl
  · have before : ((t.orFlags fl).moveQ (ws.headD 0#32)).readW l y = t.readW l y := by
      refine readW_congr ?_ ?_ ?_ l hy <;> rfl
    calc (x.run.movedThread n (t.result d ws fl)).readW l y
        = (t.result d ws fl).readW l y := readW_congr rfl rfl rfl l hy
      _ = regAfter d ws ((t.orFlags fl).moveQ (ws.headD 0#32)) l y := readW_writeWs hd hw _ l hy
      _ = regAfter d ws t l y := by unfold regAfter; rw [before]

/-! ### One issue of a lane word with no port -/

/-- The hypotheses on lines and on sources are the tests of the issue. -/
theorem lines_any_absent {x : Issuer} {lines : List Nat} (h : LinesHere x lines) :
    lines.any (fun n => x.cr.absent.contains n) = false := by
  simpa [LinesHere] using h

theorem sameSources_test {x : Issuer} {f : LaneForm} {u : Bool} {d a : LOp} {b : BOp} (h : SameSources x f u d a b) :
    (u && x.cr.uchk && !x.cr.sameSources f d a b x.lanes) = false := by
  cases hu : u
  · rfl
  cases hk : x.cr.uchk
  · rfl
  simpa [Crew.sameSources, Issuer.lanes, Issuer.lowest] using h hu hk

/-- Threads of the run that are changed and then move on are all that differs. -/
theorem onlyRun_modThreads_advance {s : State} {x : Issuer} (hx : s.issuer = some x) (hn : x.run.lanes.Nodup)
    (hl : ∀ l ∈ x.run.lanes, l < x.cr.threads.length) (g : Nat → Thread → Thread) (n : Nat)
    {new : Nat → Thread → Thread → Prop} (hg : ∀ l t, new l t (x.run.movedThread n (g l t))) :
    OnlyRun s ((s.modThreads x.c x.lanes g).advance x.c n) x n new := by
  obtain ⟨cr, frame, crews, hcr, run, length, threads⟩ := State.modThreads_advance hx hn hl g n
  have here := crews x.c
  rw [if_pos rfl] at here
  refine ⟨frame, fun c hc => ?_, ?_, ?_, fun l => ?_⟩
  · rw [crews, if_neg (Ne.symm hc)]
  · rw [here]
    exact hcr.trans (by rw [run]; rfl)
  · rw [here, length]
  · unfold State.thread
    rw [here, threads, State.issuer_crew hx]
    by_cases hm : l ∈ x.run.lanes
    · simp only [hm, if_true]
      exact hg l _
    · simp only [hm, if_false]

/-- The hold of the lane pipe after an issue that changed the run's threads alone (R80). -/
theorem holdPipe_eq_heldPipe {s t : State} {x : Issuer} {n : Nat} {new : Nat → Thread → Thread → Prop} (h : OnlyRun s t x n new) :
    t.holdPipe x.c false = heldPipe t x false := by
  obtain ⟨-, -, crew, -⟩ := h
  unfold State.holdPipe heldPipe State.coreOf State.squadOf
  rw [crew]

/-- A WORD THAT MEANS ONE LANE ISSUE COMPLETES: what it computes fills its destination, and it names no port. -/
theorem laneCompletes_of_exec {i : Instr} {f : LaneForm} {fn : LaneFn} {slow u : Bool} {d a : LOp} {b : BOp}
    (hi : ∀ s, exec i s = laneExec f fn slow u d a b s) (hlen : ∀ v w z, (fn v w z).1.length = f.dw) (hdw : f.dw ∣ 8) :
    LaneCompletes i f fn slow u d a b := by
  intro s x fits hx legal plain lines same
  obtain ⟨hne, hsorted, hlanes⟩ := fits x.c x.run (by rw [State.issuer_crew hx]; exact State.issuer_run hx)
  rw [State.issuer_crew hx] at hlanes
  have hd : dstOk (s.regsOf x.c) f.dw u d = true := by
    simp only [laneLegal, Bool.and_eq_true] at legal
    exact legal.1.2
  have length (l : Nat) : (laneValue x f fn u d a b l).1.length = f.dw := hlen _ _ _
  have only := onlyRun_modThreads_advance hx (hsorted.imp Nat.ne_of_lt) hlanes
    (fun l t => t.result d (laneValue x f fn u d a b l).1 (laneValue x f fn u d a b l).2) b.size
    (fun l => resultOf_result (by rw [length]; exact hd) (by rw [length]; exact hdw) x b.size _ l)
  refine ⟨_, ?_, only⟩
  have issue := laneIssue_plain hx (fn := fn) (slow := slow) legal plain (lines_any_absent lines) (sameSources_test same)
  have busy : x.lanes.isEmpty = false := by simpa [Issuer.lanes] using hne
  rw [hi, laneExec, withRun_next hx, issue, busy, ← holdPipe_eq_heldPipe only]
  simp only [Bool.not_false, Bool.and_true]
  rfl

/-! ### The lane words of the statements -/

section
variable {i : Instr} {f : LaneForm} {fn : LaneFn} {slow u : Bool} {d a : LOp} {b : BOp}

/-- The meaning of each lane word is one issue of its form and function. -/
theorem LaneWord.exec_eq (h : LaneWord i f fn slow u d a b) (s : State) : exec i s = laneExec f fn slow u d a b s := by
  cases h <;> rfl

/-- What each lane word computes has the words of its destination. -/
theorem LaneWord.result_length (h : LaneWord i f fn slow u d a b) (v w : DWord) (z : Word) : (fn v w z).1.length = f.dw := by
  cases h <;> rfl

/-- The destination of each lane word is a register or a pair. -/
theorem LaneWord.dw_dvd (h : LaneWord i f fn slow u d a b) : f.dw ∣ 8 := by
  cases h <;> decide

theorem LaneWord.completes (h : LaneWord i f fn slow u d a b) : LaneCompletes i f fn slow u d a b :=
  laneCompletes_of_exec h.exec_eq h.result_length h.dw_dvd

end

end Sys2Proof.Claim
end

section
/-! PROOF. The values of the integer functions: sums that saturate, products, bit counts, orders and rotation (R75); shifts (R76); bit
fields (R77); byte permutation (R78); division (R79). -/

namespace Sys2Proof.Machine

/-! ### Sums, products and orders (R75) -/

/-- A saturated value is the value clamped to the signed range. -/
theorem toInt_satS (v : Int) : (satS v).toInt = max (-2 ^ 31) (min (2 ^ 31 - 1) v) :=
  BitVec.toInt_ofInt_eq_self (by decide) (by omega) (by omega)

theorem toInt_mulWideS (x y : Word) : (mulWideS x y).toInt = x.toInt * y.toInt := by
  have upper : x.toInt * y.toInt ≤ 2 ^ (32 * 2 - 2) := BitVec.toInt_mul_toInt_le
  have lower : -2 ^ (32 * 2 - 2) ≤ x.toInt * y.toInt := BitVec.le_toInt_mul_toInt
  exact BitVec.toInt_ofInt_eq_self (by decide) (by omega) (by omega)

theorem toNat_mulWideU (x y : Word) : (mulWideU x y).toNat = x.toNat * y.toNat := by
  have bound : x.toNat * y.toNat < 2 ^ 32 * 2 ^ 32 := Nat.mul_lt_mul'' x.isLt y.isLt
  exact Nat.mod_eq_of_lt bound

theorem toInt_minSW (x y : Word) : (minSW x y).toInt = min x.toInt y.toInt := by
  unfold minSW
  simp only [BitVec.slt_iff_toInt_lt]
  split <;> omega

theorem toNat_minUW (x y : Word) : (minUW x y).toNat = min x.toNat y.toNat := by
  unfold minUW
  simp only [BitVec.ult_iff_toNat_lt]
  split <;> omega

theorem toInt_maxSW (x y : Word) : (maxSW x y).toInt = max x.toInt y.toInt := by
  unfold maxSW
  simp only [BitVec.slt_iff_toInt_lt]
  split <;> omega

theorem toNat_maxUW (x y : Word) : (maxUW x y).toNat = max x.toNat y.toNat := by
  unfold maxUW
  simp only [BitVec.ult_iff_toNat_lt]
  split <;> omega

theorem selW_eq (x y z : Word) : selW x y z = if z = 0#32 then y else x := by
  unfold selW
  split <;> simp_all

/-! ### Bit counts and reversal (R75) -/

/-- The zeros counted down from bit `n - 1` of a nonzero word below 2^n end at its highest one. -/
theorem clzFrom_eq {y : Word} (hy : y.toNat ≠ 0) (n : Nat) (h : y.toNat < 2 ^ n) : clzFrom y n = n - 1 - Nat.log2 y.toNat := by
  induction n with
  | zero => omega
  | succ n ih =>
    unfold clzFrom
    split
    · next hb =>
      have low : 2 ^ n ≤ y.toNat := Nat.ge_two_pow_of_testBit hb
      have top : Nat.log2 y.toNat = n := (Nat.log2_eq_iff hy).mpr ⟨low, h⟩
      omega
    · next hb =>
      have below : y.toNat < 2 ^ n := by
        refine Nat.lt_pow_two_of_testBit _ fun i hi => ?_
        obtain rfl | hi := Nat.eq_or_lt_of_le hi
        · exact eq_false_of_ne_true hb
        · exact Nat.testBit_lt_two_pow (Nat.lt_of_lt_of_le h (Nat.pow_le_pow_right (by decide) hi))
      have top : Nat.log2 y.toNat < n := (Nat.log2_lt hy).mpr below
      rw [ih below]
      omega

theorem clzFrom_zero (n : Nat) : clzFrom 0#32 n = n := by
  induction n with
  | zero => rfl
  | succ n ih => simp [clzFrom, ih]

theorem toNat_clzW (y : Word) : (clzW y).toNat = if y = 0#32 then 32 else 31 - Nat.log2 y.toNat := by
  unfold clzW
  split
  · next h => rw [h, clzFrom_zero]; rfl
  · next h =>
    rw [clzFrom_eq (fun h0 => h (BitVec.eq_of_toNat_eq h0)) 32 y.isLt, BitVec.toNat_ofNat]
    omega

theorem toNat_popcW (y : Word) : (popcW y).toNat = ((List.range 32).filter (fun k => y.getLsbD k)).length := by
  have bound : (List.range 32).countP (fun k => y.getLsbD k) ≤ 32 := List.countP_le_length
  unfold popcW
  rw [← List.countP_eq_length_filter, BitVec.toNat_ofNat]
  omega

theorem getLsbD_brevW (y : Word) {k : Nat} (hk : k < 32) : (brevW y).getLsbD k = y.getLsbD (31 - k) := by
  unfold brevW
  rw [BitVec.getLsbD_reverse, BitVec.getMsbD]
  simp [hk]

/-! ### Rotation and shifts (R75, R76) -/

/-- A rotated word is the part shifted up beside the part that came round: they share no bit. -/
theorem toNat_rotlW (x y : Word) :
    (rotlW x y).toNat = x.toNat * 2 ^ (y.toNat % 32) % 2 ^ 32 + x.toNat / 2 ^ (32 - y.toNat % 32) := by
  unfold rotlW
  rw [BitVec.toNat_rotateLeft, Nat.mod_mod, Nat.shiftLeft_eq, Nat.shiftRight_eq_div_pow]
  generalize hr : y.toNat % 32 = r
  have r_le : r ≤ 32 := by omega
  have width : 2 ^ 32 = 2 ^ (32 - r) * 2 ^ r := by rw [← Nat.pow_add, Nat.sub_add_cancel r_le]
  have round : x.toNat / 2 ^ (32 - r) < 2 ^ r := Nat.div_lt_of_lt_mul (width ▸ x.isLt)
  have up : x.toNat * 2 ^ r % 2 ^ 32 = 2 ^ r * (x.toNat % 2 ^ (32 - r)) := by
    rw [width, Nat.mul_mod_mul_right, Nat.mul_comm]
  rw [up, ← Nat.two_pow_add_eq_or_of_lt round]

theorem toNat_shlW (x : Word) {y : Word} (h : y.toNat ≤ 31) : (shlW x y).toNat = x.toNat * 2 ^ y.toNat % 2 ^ 32 := by
  rw [shlW, if_pos h, BitVec.toNat_shiftLeft, Nat.shiftLeft_eq]

theorem toNat_shrW (x : Word) {y : Word} (h : y.toNat ≤ 31) : (shrW x y).toNat = x.toNat / 2 ^ y.toNat := by
  rw [shrW, if_pos h, BitVec.toNat_ushiftRight, Nat.shiftRight_eq_div_pow]

theorem toInt_sarW (x : Word) {y : Word} (h : y.toNat ≤ 31) : (sarW x y).toInt = x.toInt / 2 ^ y.toNat := by
  rw [sarW, if_pos h, BitVec.toInt_sshiftRight, Int.shiftRight_eq_div_pow]
  norm_cast

section
variable (x : Word) {y : Word} (h : 32 ≤ y.toNat)
include h

theorem shlW_of_le : shlW x y = 0#32 := if_neg (by omega)

theorem shrW_of_le : shrW x y = 0#32 := if_neg (by omega)

theorem sarW_of_le : sarW x y = if x.getLsbD 31 then 0xFFFFFFFF#32 else 0#32 := by
  rw [sarW, if_neg (by omega), BitVec.msb_eq_getLsbD_last]

end

/-! ### Bit fields (R77) -/

theorem fieldPos_eq (y : Word) : fieldPos y = y.toNat % 32 := by
  rw [fieldPos, BitVec.extractLsb'_toNat, Nat.shiftRight_zero]

theorem fieldLen_eq (y : Word) : fieldLen y = min (y.toNat / 2 ^ 8 % 64) 32 := by
  rw [fieldLen, BitVec.extractLsb'_toNat, Nat.shiftRight_eq_div_pow]

theorem fieldLen_le (y : Word) : fieldLen y ≤ 32 := Nat.min_le_right _ _

/-- A field of at most 32 bits is a word. -/
theorem mod_two_pow_lt {n : Nat} (hn : n ≤ 32) (a : Nat) : a % 2 ^ n < 2 ^ 32 :=
  Nat.lt_of_lt_of_le (Nat.mod_lt _ (Nat.two_pow_pos n)) (Nat.pow_le_pow_right (by decide) hn)

theorem toNat_bfeUW (x y : Word) : (bfeUW x y).toNat = x.toNat / 2 ^ fieldPos y % 2 ^ fieldLen y :=
  Nat.mod_eq_of_lt (mod_two_pow_lt (fieldLen_le y) _)

/-- The low bits of a word, as a signed field, do not depend on whether the word is read signed. -/
theorem bmod_toNat_eq_bmod_toInt (w : Word) {n : Nat} (hn : n ≤ 32) : (w.toNat : Int).bmod (2 ^ n) = w.toInt.bmod (2 ^ n) := by
  rw [BitVec.toInt_eq_toNat_bmod, Int.bmod_bmod_of_dvd (Nat.pow_dvd_pow 2 hn)]

/-- The sign extension of a field: its top bit, worth half of the modulus, counts against it. -/
theorem bmod_two_mul (a p : Nat) :
    (a : Int).bmod (2 * p) = if p ≤ a % (2 * p) then ((a % (2 * p) : Nat) : Int) - (2 * p : Nat) else ((a % (2 * p) : Nat) : Int) := by
  rw [Int.bmod_def, ← Int.natCast_emod]
  generalize a % (2 * p) = g
  split <;> split <;> omega

/-- What `bfe.s` answers is its field, cut from the word with copies of its sign above, read as a signed number. -/
theorem bfeSW_eq (x y : Word) {n : Nat} (hn : fieldLen y = n + 1) :
    bfeSW x y = BitVec.ofInt 32 (((x.sshiftRight (fieldPos y)).toNat : Int).bmod (2 ^ (n + 1))) := by
  unfold bfeSW
  rw [hn, if_neg (Nat.succ_ne_zero n), Nat.add_sub_cancel, Nat.pow_succ', bmod_two_mul]
  push_cast
  rw [Int.pow_succ, Int.mul_comm]

theorem toInt_bfeSW (x y : Word) :
    (bfeSW x y).toInt = if fieldLen y = 0 then 0 else (x.toInt / 2 ^ fieldPos y).bmod (2 ^ fieldLen y) := by
  have le := fieldLen_le y
  cases hn : fieldLen y with
  | zero => simp [bfeSW, hn]
  | succ n =>
    have small : (2 : Int) ^ n ≤ 2 ^ 31 := by exact_mod_cast Nat.pow_le_pow_right (by decide) (by omega : n ≤ 31)
    rw [bfeSW_eq x y hn, bmod_toNat_eq_bmod_toInt _ (hn ▸ le), BitVec.toInt_sshiftRight, Int.shiftRight_eq_div_pow,
      if_neg (Nat.succ_ne_zero n)]
    push_cast
    refine BitVec.toInt_ofInt_eq_self (by decide) ?_ ?_
    · have low := Int.le_bmod (x := x.toInt / 2 ^ fieldPos y) (Nat.two_pow_pos (n + 1))
      push_cast [Int.pow_succ] at low ⊢
      omega
    · have high := Int.bmod_lt (x := x.toInt / 2 ^ fieldPos y) (Nat.two_pow_pos (n + 1))
      push_cast [Int.pow_succ] at high ⊢
      omega

theorem getLsbD_bfiW (x y z : Word) {i : Nat} (hi : i < 32) :
    (bfiW x y z).getLsbD i =
      if fieldPos y ≤ i ∧ i < fieldPos y + fieldLen y then x.getLsbD (i - fieldPos y) else z.getLsbD i := by
  have mask : (BitVec.ofNat 32 ((2 ^ fieldLen y - 1) * 2 ^ fieldPos y)).getLsbD i =
      decide (fieldPos y ≤ i ∧ i < fieldPos y + fieldLen y) := by
    rw [BitVec.getLsbD_ofNat, Nat.testBit_mul_two_pow, Nat.testBit_two_pow_sub_one, Bool.eq_iff_iff]
    simp only [Bool.and_eq_true, decide_eq_true_eq]
    omega
  unfold bfiW
  rw [BitVec.getLsbD_or, BitVec.getLsbD_and, BitVec.getLsbD_and, BitVec.getLsbD_not, mask, BitVec.getLsbD_shiftLeft]
  by_cases field : fieldPos y ≤ i ∧ i < fieldPos y + fieldLen y
  · simp [field, hi, Nat.not_lt.mpr field.1]
  · simp [field, hi]

/-! ### Byte permutation (R78) -/

theorem toNat_byteAt (x : Word) (k : Nat) : (byteAt x k).toNat = x.toNat / 2 ^ (8 * k) % 256 := by
  rw [byteAt, BitVec.extractLsb'_toNat, Nat.shiftRight_eq_div_pow]

/-- The eight bytes of x and z are those of one number of 64 bits. -/
theorem toNat_byteAt_pair (x z : Word) {j : Nat} (hj : j < 8) :
    (if j < 4 then byteAt x j else byteAt z (j - 4)).toNat = (x.toNat + z.toNat * 2 ^ 32) / 2 ^ (8 * j) % 256 := by
  split <;> rw [toNat_byteAt]
  · next low =>
    obtain rfl | rfl | rfl | rfl : j = 0 ∨ j = 1 ∨ j = 2 ∨ j = 3 := by omega
    all_goals omega
  · next high =>
    obtain rfl | rfl | rfl | rfl : j = 4 ∨ j = 5 ∨ j = 6 ∨ j = 7 := by omega
    all_goals omega

/-- One byte of a permutation: the byte chosen, or its sign in all eight bits. -/
theorem toNat_prmtByte (x y z : Word) (k : Nat) {c v : Nat} (hc : c = y.toNat / 2 ^ (4 * k) % 16)
    (hv : v = (x.toNat + z.toNat * 2 ^ 32) / 2 ^ (8 * (c % 8)) % 256) :
    (prmtByte x y z k).toNat = if c < 8 then v else if 128 ≤ v then 255 else 0 := by
  have sel : (y.extractLsb' (4 * k) 4).toNat = c := by rw [BitVec.extractLsb'_toNat, Nat.shiftRight_eq_div_pow, hc]
  have byte := toNat_byteAt_pair x z (Nat.mod_lt c (by decide : 8 > 0))
  rw [← hv] at byte
  unfold prmtByte
  simp only [sel]
  split
  · exact byte
  · simp only [BitVec.msb_eq_decide, byte, decide_eq_true_eq]
    split <;> rfl

/-- The bytes of a permuted word are the bytes permuted. -/
theorem toNat_prmtW_byte (x y z : Word) {k : Nat} (hk : k < 4) :
    (prmtW x y z).toNat / 2 ^ (8 * k) % 256 = (prmtByte x y z k).toNat := by
  have lt (k : Nat) : (prmtByte x y z k).toNat < 256 := (prmtByte x y z k).isLt
  have lt0 := lt 0
  have lt1 := lt 1
  have lt2 := lt 2
  have lt3 := lt 3
  rw [prmtW, BitVec.toNat_ofNat]
  obtain rfl | rfl | rfl | rfl : k = 0 ∨ k = 1 ∨ k = 2 ∨ k = 3 := by omega
  all_goals omega

/-! ### Division (R79) -/

theorem udivW_zero (x : Word) : udivW x 0#32 = 0xFFFFFFFF#32 := if_pos rfl
theorem uremW_zero (x : Word) : uremW x 0#32 = x := if_pos rfl
theorem sdivW_zero (x : Word) : sdivW x 0#32 = 0xFFFFFFFF#32 := if_pos rfl
theorem sremW_zero (x : Word) : sremW x 0#32 = x := if_pos rfl

section
variable {x y : Word} (hy : y ≠ 0#32)
include hy

theorem toNat_udivW : (udivW x y).toNat = x.toNat / y.toNat := by rw [udivW, if_neg hy, BitVec.toNat_udiv]

theorem toNat_uremW : (uremW x y).toNat = x.toNat % y.toNat := by rw [uremW, if_neg hy, BitVec.toNat_umod]

theorem sdivW_eq_sdiv : sdivW x y = x.sdiv y := by
  rw [sdivW, if_neg hy, ← BitVec.toInt_inj, BitVec.toInt_ofInt, BitVec.toInt_sdiv]

theorem sremW_eq_srem : sremW x y = x.srem y := by
  rw [sremW, if_neg hy, ← BitVec.toInt_srem, BitVec.ofInt_toInt]

/-- The quotient is exact but for the most negative dividend by -1, whose quotient has no word. -/
theorem toInt_sdivW (h : ¬ (x = 0x80000000#32 ∧ y = 0xFFFFFFFF#32)) : (sdivW x y).toInt = x.toInt.tdiv y.toInt := by
  rw [sdivW_eq_sdiv hy]
  exact BitVec.toInt_sdiv_of_ne_or_ne x y (Decidable.not_and_iff_not_or_not.mp h)

theorem toInt_sremW : (sremW x y).toInt = x.toInt.tmod y.toInt := by rw [sremW_eq_srem hy, BitVec.toInt_srem]

/-- x = q × y + rem, the overflowing quotient too: in 32 bits it holds of the exact quotient and remainder. -/
theorem sdivW_mul_add_sremW : sdivW x y * y + sremW x y = x := by
  rw [sdivW, if_neg hy, sremW, if_neg hy]
  calc BitVec.ofInt 32 (x.toInt.tdiv y.toInt) * y + BitVec.ofInt 32 (x.toInt.tmod y.toInt)
      = BitVec.ofInt 32 (x.toInt.tdiv y.toInt * y.toInt + x.toInt.tmod y.toInt) := by
        rw [BitVec.ofInt_add, BitVec.ofInt_mul, BitVec.ofInt_toInt]
    _ = x := by rw [Int.tdiv_mul_add_tmod, BitVec.ofInt_toInt]

end

end Sys2Proof.Machine
end

section
/-! PROOF. The statements on registers and integer words (R74-R80). -/

namespace Sys2Proof.Claim

open Sys2Proof.Machine

theorem integerValues : IntegerValues := fun x y z =>
  ⟨toInt_satS _, toInt_satS _, toInt_mulWideS x y, toNat_mulWideU x y, toNat_clzW y, toNat_popcW y, fun _ => getLsbD_brevW y,
    toInt_minSW x y, toNat_minUW x y, toInt_maxSW x y, toNat_maxUW x y, selW_eq x y z, toNat_rotlW x y⟩

/-- Settles O1: every lane word is one lane issue of its form and function, and the integer functions have the values of R75. -/
theorem laneWordsGiveResults : Obligations.LaneWordsGiveResults :=
  ⟨fun _ _ _ _ _ _ _ _ => LaneWord.completes, integerValues⟩

/-- Settles O7: the signed functions are `BitVec.sdiv` and `BitVec.srem` where the divisor is not 0, and the words are lane words. -/
theorem divisionCases : Obligations.DivisionCases := by
  refine ⟨fun x => ⟨udivW_zero x, uremW_zero x, sdivW_zero x, sremW_zero x⟩, fun x y hy => ?_, by decide, fun u d a b => ?_⟩
  · exact ⟨toNat_udivW hy, toNat_uremW hy, toInt_sdivW hy, toInt_sremW hy, sdivW_mul_add_sremW hy⟩
  · exact ⟨(LaneWord.udiv u d a b).completes, (LaneWord.sdiv u d a b).completes, (LaneWord.urem u d a b).completes,
      (LaneWord.srem u d a b).completes⟩

theorem shiftAmounts : ShiftAmounts := fun x y =>
  ⟨fun low => ⟨toNat_shlW x low, toNat_shrW x low, toInt_sarW x low⟩,
    fun high => ⟨shlW_of_le x high, shrW_of_le x high, sarW_of_le x high⟩, toNat_rotlW x y⟩

theorem bitFields : BitFields := by
  intro x y z pos n hpos hn
  rw [← fieldPos_eq] at hpos
  rw [← fieldLen_eq] at hn
  subst hpos hn
  exact ⟨toNat_bfeUW x y, toInt_bfeSW x y, fun _ => getLsbD_bfiW x y z⟩

theorem bytePermute : BytePermute := fun x y z k _ _ hk hc hv => by rw [toNat_prmtW_byte x y z hk, toNat_prmtByte x y z k hc hv]

theorem shiftAndFieldWordsRun : ShiftAndFieldWordsRun := fun u d a b =>
  ⟨(LaneWord.shl u d a b).completes, (LaneWord.shr u d a b).completes, (LaneWord.sar u d a b).completes,
    (LaneWord.rotl u d a b).completes, (LaneWord.bfeU u d a b).completes, (LaneWord.bfeS u d a b).completes,
    (LaneWord.bfi u d a b).completes, (LaneWord.prmt u d a b).completes⟩

/-- Settles O41: the functions by amount, by field and by byte, and the words as lane words. -/
theorem shiftAndFieldWords : Obligations.ShiftAndFieldWords := ⟨shiftAmounts, bitFields, bytePermute, shiftAndFieldWordsRun⟩

end Sys2Proof.Claim
end
